-- ==== Sys2Proof/Word.lean ====
section
/-! DEFINITION. The words the part computes with, and the small fixed families (per agent, per port, per rail) its
state is made of. -/

namespace Sys2Proof

abbrev Byte := BitVec 8
abbrev Word := BitVec 16
abbrev Word32 := BitVec 32

/-- One value per member of a family of four: agents, inputs, main phases, Check units. -/
structure Four (α : Type) where
  a0 : α
  a1 : α
  a2 : α
  a3 : α
deriving DecidableEq, Repr, Inhabited

def Four.get {α : Type} (f : Four α) : Fin 4 → α
  | 0 => f.a0
  | 1 => f.a1
  | 2 => f.a2
  | 3 => f.a3

def Four.set {α : Type} (f : Four α) (i : Fin 4) (v : α) : Four α :=
  match i with
  | 0 => { f with a0 := v }
  | 1 => { f with a1 := v }
  | 2 => { f with a2 := v }
  | 3 => { f with a3 := v }

def Four.all {α : Type} (v : α) : Four α := ⟨v, v, v, v⟩

def Four.map {α β : Type} (g : α → β) (f : Four α) : Four β := ⟨g f.a0, g f.a1, g f.a2, g f.a3⟩

def Four.toList {α : Type} (f : Four α) : List α := [f.a0, f.a1, f.a2, f.a3]

/-- One value per sequenced rail; rail k of the manual (1 to 8) is index k - 1. -/
structure Eight (α : Type) where
  r1 : α
  r2 : α
  r3 : α
  r4 : α
  r5 : α
  r6 : α
  r7 : α
  r8 : α
deriving DecidableEq, Repr, Inhabited

def Eight.get {α : Type} (f : Eight α) : Fin 8 → α
  | 0 => f.r1
  | 1 => f.r2
  | 2 => f.r3
  | 3 => f.r4
  | 4 => f.r5
  | 5 => f.r6
  | 6 => f.r7
  | 7 => f.r8

def Eight.set {α : Type} (f : Eight α) (i : Fin 8) (v : α) : Eight α :=
  match i with
  | 0 => { f with r1 := v }
  | 1 => { f with r2 := v }
  | 2 => { f with r3 := v }
  | 3 => { f with r4 := v }
  | 4 => { f with r5 := v }
  | 5 => { f with r6 := v }
  | 6 => { f with r7 := v }
  | 7 => { f with r8 := v }

def Eight.all {α : Type} (v : α) : Eight α := ⟨v, v, v, v, v, v, v, v⟩

def Eight.toList {α : Type} (f : Eight α) : List α := [f.r1, f.r2, f.r3, f.r4, f.r5, f.r6, f.r7, f.r8]

/-- One value per Type-C port or port converter. -/
structure Two (α : Type) where
  p1 : α
  p2 : α
deriving DecidableEq, Repr, Inhabited

/-- The value of bits [lsb + width - 1 : lsb] of w. -/
def bits (w lsb width : Nat) : Nat := w / 2 ^ lsb % 2 ^ width

/-- Bit i of w. -/
def bit (w i : Nat) : Bool := w / 2 ^ i % 2 == 1

def b2n (b : Bool) : Nat := if b then 1 else 0

end Sys2Proof
end

