-- ==== Sys2Proof/Syntax.lean ====
section
/-! DEFINITION. The commands: one constructor per row of spec/opcode_table.json. The table gives the rows no operands; an
operand here is what the row's rule says the step reads: the agent, port or unit it is about, the bytes of a
transaction, or the quantity measured and how long it lasted. Voltages are in mV, sense voltages in uV, currents in mA,
temperatures in 0.1 degrees C, times in the unit the operand's name ends in. -/

namespace Sys2Proof

abbrev Agent := Fin 4
abbrev Phase := Fin 4
abbrev UnitId := Fin 4
abbrev Rail := Fin 8

/-- The four inputs of the selector, in the fixed order of R135's tie break. -/
inductive InputId where
  | poe | aux | c1 | c2
deriving DecidableEq, Repr, Inhabited

/-- The Type-C ports. -/
inductive Port where
  | c1 | c2
deriving DecidableEq, Repr, Inhabited

/-- The watchdog channels (03, Watchdog channels). -/
inductive WdgCh where
  | s | e
deriving DecidableEq, Repr, Inhabited

/-- A level of an ADR ball (R57). -/
inductive Level where
  | l | m | h
deriving DecidableEq, Repr, Inhabited

/-- What an ADR ball is connected to (R57): a ground or supply through a resistance in ohms, or nothing but a leakage in nA. -/
inductive AdrTie where
  | agnd (ohm : Nat)
  | vdda (ohm : Nat)
  | opened (leakNa : Nat)
deriving DecidableEq, Repr, Inhabited

/-- A converter phase: a main phase or the single phase of a port converter (R159). -/
inductive PhaseId where
  | main (p : Phase)
  | x (p : Port)
deriving DecidableEq, Repr, Inhabited

/-- One switching cycle of a phase (R160, R164): the voltages of its input and output and V_COMP in mV, and CSP - CSN in uV at
instants of the cycle, each with its time in ns since the cycle began, in order. -/
structure Cycle where
  vin : Nat
  vout : Nat
  vcomp : Nat
  samples : List (Nat × Int)
deriving DecidableEq, Repr, Inhabited

/-- The converter whose loop is looked at, with the present cycle of each of its phases (R159, R163). -/
inductive LoopOf where
  | main (cycles : Four Cycle)
  | x (p : Port) (cycle : Cycle)
deriving DecidableEq, Repr, Inhabited

/-- Why the connected input collapses (R132). -/
inductive Collapse where
  | low (mv : Nat)
  | reverse (uv : Int)
  | over (mv : Nat)
deriving DecidableEq, Repr, Inhabited

/-- Why reverse ends (R199); a condition of R195 is judged with VAUX. -/
inductive RevEnd where
  | grantEnded
  | condition (vaux : Nat)
  | vsys (mv : Nat)
deriving DecidableEq, Repr, Inhabited

/-- The failures of a port converter (R204). -/
inductive XFail where
  | senseLost | runaway | overTemp
deriving DecidableEq, Repr, Inhabited

/-- The scheduled tests (07). -/
inductive TestKind where
  | function | duration
deriving DecidableEq, Repr, Inhabited

/-- A Request as it names an advertised object (R347): fixed current in 10 mA, or PPS voltage in 20 mV and current in 50 mA. -/
inductive PdRequest where
  | fixed (pos : Nat) (cur : Nat)
  | pps (pos : Nat) (volt : Nat) (cur : Nat)
deriving DecidableEq, Repr, Inhabited

/-- What a node is receiving at the instant its listen time ends (R382, R384, and 10, When things coincide). -/
inductive RxNow where
  | nothing
  | claimSync
  | claimLater
  | beaconSync
deriving DecidableEq, Repr, Inhabited

/-- A grant entry of a beacon: short address, direction (true supply), current in 100 mA steps. -/
structure GrantEntry where
  short : Nat
  supply : Bool
  cur : Nat
deriving DecidableEq, Repr, Inhabited

/-- The payload of a BEACON (10, BEACON payload). -/
structure Beacon where
  bc : Byte
  leadId : BitVec 48
  prio : Nat
  members : Nat
  holder : Nat
  emergency : Bool
  grants : List GrantEntry
deriving DecidableEq, Repr, Inhabited

/-- The payload of a STATUS (10, STATUS payload). -/
structure LinkStatus where
  flags : Byte
  offer : Nat
  demand : Nat
  soc : Byte
  reserve : Word
  bc : Byte
deriving DecidableEq, Repr, Inhabited

/-- A received unicast or broadcast frame of an agent (types 0x9 and 0xA): header fields and payload (R375). -/
structure AgentFrame where
  src : Nat
  broadcast : Bool
  prio : Bool
  ackReq : Bool
  seqNo : Nat
  payload : List Byte
deriving DecidableEq, Repr, Inhabited

/-- A command transaction after its command code: the bytes written, and the bytes clocked in its read part when it has
one (R422, R423). -/
structure CmdTx where
  written : List Byte
  clocked : Option Nat
deriving DecidableEq, Repr, Inhabited

/-- The commands. The docstring of each family names its file of spec/. -/
inductive Instr where
  -- 03, life cycle
  | powerOn (validMask : BitVec 4) (vsafeOhm chemOhm : Option Nat) (bats : Nat)
  | keeperPowerLoss (bats vbias : Nat)
  | shipWake (input : Option InputId)
  | enterShip
  | shipEntry
  | enterDormant
  | sysPowerBadKey (v : Byte)
  | watchdogWarn (ch : WdgCh) (ms : Nat)
  | watchdogReset (ch : WdgCh) (ms : Nat)
  | brownout
  | wakeNLow (us : Nat)
  | boot (adr1 adr0 : AdrTie) (sns : Eight Nat) (vbat : Nat) (copyOk : Bool)
  | remoteWakePulseEnd (low : Bool)
  | wakeAttemptFail (tboUs vddcUs vbat : Nat)
  | wakeRetry (ms : Nat)
  | wakeFailRetry (secs : Nat)
  | bootDone
  | holdTimeout (ms : Nat) (vbat : Nat)
  | tboLost (us : Nat)
  | tboLostReset (ms : Nat)
  | lfoLost (us : Nat)
  | lfoRestored (edges : Nat)
  | rtcAlarm
  | rtcSet (secs : Word32)
  -- 04, PoE front end and inputs
  | poeClassEvent (clsOhm : Option Nat)
  | hotSwapOn (mv : Nat)
  | hotSwapOff (mv : Nat)
  | hotSwapPg (ma : Nat) (enhanced : Bool)
  | hotSwapFault (ma us : Nat)
  | poeValid (mv ms us : Nat)
  | poeLimitUpdate (mv : Nat)
  | poeDllAlloc (v : Word) (mv : Nat)
  | mpsPulse (ma ms : Nat)
  | mpsPulseEnd (ms : Nat)
  | inputQualified (i : InputId) (mv us : Nat)
  | inputOvervoltage (i : InputId) (mv : Nat)
  | takeover (why : Collapse)
  | returnDelay (i : InputId) (ms : Nat)
  | pthEn (v : Word)
  | batterySupplement (vsys vbat : Nat)
  | vsysLow (mv us : Nat)
  -- 05, converters
  | vsysOv (mv : Nat)
  | vsysOvResume (mv : Nat)
  | cinchTrip (p : PhaseId) (uv quietUs : Nat)
  | cinchRunaway (p : PhaseId) (uv cycles : Nat)
  | phaseAdd (ma us : Nat)
  | phaseDrop (ma us : Nat)
  | senseLost (p : Phase) (uv : Int) (samples : Nat)
  | driverOverTemp (p : Phase) (dc : Int)
  | remoteSenseLost (vs vbias : Nat) (gnd : Int) (us : Nat)
  | rsRetry (vs vbias : Nat) (gnd : Int)
  | cnvClear (mask : BitVec 4)
  | reverseStart (vaux : Nat)
  | deadBusTimeout (vaux ms : Nat)
  | reverseStop (why : RevEnd)
  | portCnvFail (p : Port) (why : XFail)
  | cnvXnClear (p : Port)
  | vbusOvp (p : Port) (mv : Nat)
  | vbusOvpResume (p : Port) (mv : Nat)
  -- 06, charging
  | chgChem (v : Word)
  | chgClear
  | chargePermissionChange
  | qualifyDone (vbat ms : Nat)
  | recoverDone (vbat ms : Nat)
  | prechargeDone (vbat ms : Nat)
  | cvEntry (vbat : Nat)
  | termination (vbat : Nat) (ma : Int) (secs : Nat)
  | recharge (vbat ms : Nat)
  | requalify (vbat : Nat)
  | chgOvervoltage (vbat ms : Nat)
  | recoveryTimeout
  | prechargeTimeout
  | safetyTimeout
  | packRemoved
  | packInserted (dc : Int)
  | ntcMeasure (t1 t2 : Option Int)
  | dormantNtcSample (t1 t2 : Option Int)
  | gaugeUpdate (dq : Int) (vbat : Nat) (ma : Int) (avgDis : Nat)
  -- 07, emergency and tests
  | emergencyDeclared (ms : Nat)
  | emergencyEnded (ms : Nat)
  | emgWarn (vbat ms : Nat)
  | emgWarnClear (vbat : Nat)
  | emgCutoff (vbat ms : Nat)
  | testDue
  | testRetry (mins : Nat)
  | testMissed
  | slotGranted
  | startFn (a : Agent)
  | startDur (a : Agent)
  | startRecordCommit (ok : Bool)
  | testLengthReached (ms : Nat)
  | emgAbort (a : Agent)
  | testAbortVbat (vbat us : Nat)
  -- 08, rail sequencing
  | seqUp
  | seqDown
  | seqClear
  | seqForceOff
  | seqBadCommand (v : Byte)
  | seqEn (v : Byte) (sns : Eight Nat)
  | startDelay (k : Rail) (ms : Nat)
  | powerGood (k : Rail) (mv us : Nat)
  | riseTimeout (k : Rail) (ms : Nat)
  | railFault (k : Rail) (mv us : Nat)
  | railWarning (k : Rail) (mv us : Nat)
  | railDischarged (k : Rail) (mv : Nat)
  | disMaxTimeout (k : Rail) (ms : Nat)
  | disWaitStart
  | seqRestart (ms : Nat)
  | faultLatchAbsent (k : Rail) (mv us : Nat)
  -- 09, Type-C ports
  | vbusWake (p : Port) (mv : Nat)
  | attach (p : Port) (source cc2 : Bool) (rp rev ms : Nat)
  | unsupportedAttach (p : Port)
  | detach (p : Port) (ms : Nat)
  | drpToggle (p : Port) (ms : Nat)
  | sourceTurnOn (p : Port) (mv ms : Nat)
  | request (p : Port) (r : PdRequest) (vin pload : Nat)
  | psRdySend (p : Port) (mv : Nat)
  | ppsTimeout (p : Port) (ms : Nat)
  | budgetShortfall (p : Port) (ms vin pload : Nat)
  | sourceCapabilities (p : Port) (pdos : List Word32)
  | sourceCapRepeat (p : Port) (ms : Nat)
  | keepalive (p : Port) (secs : Nat)
  | waitReceived (p : Port)
  | waitRetry (p : Port) (ms : Nat)
  | psRdyReceived (p : Port) (mv : Nat)
  | senderResponseTimeout (p : Port) (ms : Nat)
  | prSwapReceived (p : Port)
  | drSwapReceived (p : Port) (vconn : Bool)
  | notSupportedMessage (p : Port) (epr ext : Bool) (typ : Nat) (objs : List Word32)
  | sinkCapabilities (p : Port) (pdos : List Word32)
  | getSourceCap (p : Port)
  | getSinkCap (p : Port)
  | getStatusReceived (p : Port)
  | getPpsStatusReceived (p : Port) (mv ma : Nat)
  | getSourceCapExtended (p : Port)
  | alertReceived (p : Port) (ado : Word32)
  | discoverIdentity (p : Port)
  | bistCarrierMode (p : Port) (mv : Nat)
  | hardResetReceived (p : Port)
  | softResetReceived (p : Port)
  | frsSignal (p : Port) (us mv : Nat)
  | frsSend (p : Port)
  | frsFail (p : Port) (us : Nat)
  | srcCut (p : Port)
  | dischargeDone (p : Port) (mv : Nat)
  | dischargeSlow (p : Port) (mv ms : Nat)
  | pdpHardReset (p : Port)
  | pdpSoftReset (p : Port)
  | pdpPrSwap (p : Port)
  | pdpRenegotiate (p : Port)
  | pdpGetStatus (p : Port)
  | pdpGetPpsStatus (p : Port)
  | pdpGetSrcCapExt (p : Port)
  | pdpRoleCfg (p : Port) (cfg : Bool) (v : Word)
  -- 10, Quiden Link
  | beaconSend
  | beaconReceived (b : Beacon)
  | statusSend
  | statusReceived (src : Nat) (st : LinkStatus)
  | listenTimeout (rx : RxNow) (ms : Nat)
  | claimStart (freeUs : Nat) (aligned : Bool)
  | claimHeard
  | claimWithdraw (bitNo : Nat) (carrier : Bool)
  | claimEnd
  | joinReceived (id : BitVec 48) (prio seqNo : Nat)
  | joinAckReceived (id : BitVec 48) (short : Nat)
  | joinRetry (ms : Nat)
  | beaconGrantLoss (ms : Nat)
  | beaconLost (ms : Nat)
  | leaveReceived (src : Nat) (lead : Bool)
  | testReqReceived (src : Nat) (kind : TestKind) (secs seqNo : Nat)
  | testGrantReceived (kind : TestKind) (seqNo : Nat)
  | testEndReceived (src : Nat) (outcome : Byte) (seqNo : Nat)
  | slotTimeout (secs : Nat)
  | doorbellReceived (f : AgentFrame)
  | dataReceived (f : AgentFrame)
  | ackReceived (seqNo : Nat)
  | ackTimeout (us : Nat)
  | frameTransmit (freeUs leftUs : Nat)
  | capture (riseHalfDb : Nat) (preamble : Bool) (claimField : Bool)
  | lnkDbSend (a : Agent) (dst : Byte) (d : BitVec 5)
  | lnkDisable
  -- 11, serial port
  | windowWrite (a : Agent) (bytes : List Byte)
  | windowRead (a : Agent) (bytes : List Byte) (clocked : Nat)
  | currentPointerRead (a : Agent) (clocked : Nat)
  | summary (a : Agent) (tx : CmdTx)
  | ident (a : Agent) (tx : CmdTx)
  | status (a : Agent) (tx : CmdTx)
  | pendingCmd (a : Agent) (tx : CmdTx)
  | claim (a : Agent) (tx : CmdTx)
  | complete (a : Agent) (tx : CmdTx)
  | doorbell (a : Agent) (tx : CmdTx)
  | ringPush (a : Agent) (tx : CmdTx)
  | ringPop (a : Agent) (tx : CmdTx)
  | tkrReq (a : Agent) (tx : CmdTx)
  | quickCommand (a : Agent) (read : Bool)
  | unackedFirstByte (a : Agent) (b : Byte)
  | busError (a : Agent)
  | busTimeout (a : Agent) (ms : Nat)
  | araRead (others : List Byte)
  | attentionDue (a : Agent)
  | attentionRepeat (a : Agent) (ms : Nat)
  | attentionFrame (freeNs : Nat)
  | attentionFallback (us : Nat)
  | attentionArbLoss
  | notifyFrame (a : Agent) (freeNs : Nat)
  | notifyArbLoss
  | notifyNack
  | notifyStretchTimeout (ms : Nat)
  -- 12, event fabric
  | eventPost (src : BitVec 9)
  | evtDoorbell (a : Agent) (d : BitVec 5)
  | coalesceTime (g : BitVec 5) (us : Nat)
  | agtnClaim (a : Agent)
  | agtnComplete (a : Agent) (x : BitVec 9)
  | agtnCtlAwake (a : Agent) (v : Word)
  | remoteWake (a : Agent)
  | remoteWakeDeferred (a : Agent) (ms : Nat)
  | evtRoute (x : BitVec 9) (v : Word)
  | watchHitDormant (src : BitVec 9)
  | watchHitShip (src : BitVec 9)
  -- 13, rings and Check units
  | ringCfg (a : Agent) (base : Bool) (v : Word)
  | ringDataPush (a : Agent) (data : List (Fin 8 × Word))
  | ringData0Pop (a : Agent)
  | rawAccess (a : Agent) (data : Option (List (Fin 8 × Word)))
  | sramScrub (word : Word) (flips : Nat)
  | chkJobStart (u : UnitId) (bg : Option (Word32 × Word32))
  | chkJobDone (u : UnitId)
  | chkUnitFailed (u : UnitId) (lanes : Bool)
  | chkKat (u : UnitId)
  | chkAccWrite (u : UnitId) (v : Word32)
  -- 14, Tack Room
  | tkrRequestStart (a : Agent)
  | tkrRead (a : Agent) (flips : List Nat)
  | tkrInfo (a : Agent)
  | tkrStage (a : Agent) (verify : Bool)
  | tkrNote (a : Agent)
  | tkrSeal (a : Agent)
  | tkrOpen (a : Agent)
  | tkrWrite (a : Agent) (verify : Bool)
  | tkrClose (a : Agent)
  | tkrAbort (a : Agent)
  | replyDelivered (a : Agent)
  | sessionTimeout (secs : Nat)
  | journalPageProgram (secs : Nat)
  | sealTimer (secs : Nat)
  | storeScrub (page : BitVec 18) (flips : Nat)
  | blockRefresh (b : BitVec 10) (eraseOk : Bool)
  | blockRetire (b : BitVec 10) (cause : Byte)
  -- 15, measurement and background work
  | oneshotGo (a : Agent) (v : Word)
  | oneshotDone (a : Agent) (samples : List Int)
  | telemetryDue (e : BitVec 6)
  | telemetryResult (e : BitVec 6) (samples : List Int) (lateUs : Nat)
  | tlmCfg (e : BitVec 6) (period : Bool) (v : Word)
  | historyIntervalEnd (secs : Nat)
  | tlmHistInterval (v : Word) (secs : Nat)
  | calRun
  | calTrigger (die : Int) (mins : Nat)
  | calPassEnd (gain off : Four Int) (ratio : Int) (iin ibat : Int) (die : Int)
  | tboTrim (die : Int)
  | senseOffset (s : Fin 8) (uv : Int)
  | offsetStale (s : Fin 8)
  | deadlineMiss (a : Fin 6)
  -- 04 to 15, the rows at the table's end
  | strappedCutoff (vbat : Nat)
  | inputInvalid (i : InputId) (mv : Nat)
  | inputCurrentLimit (ma vin : Nat) (ibat : Int)
  | inputVoltageRegulation (mv : Nat) (ibat : Int)
  | cnvOutputLimit (ma : Nat) (loop : LoopOf)
  | gateFault (i : InputId) (us : Nat)
  | watchdogService (ch : WdgCh)
  | vdrvUndervoltage (mv : Nat)
  | historyPageProgram (secs : Nat)
  | crcErrorFrame
  | acceptReceived (p : Port)
  | rejectReceived (p : Port)
  | frSwapReceived (p : Port)
deriving DecidableEq, Repr

end Sys2Proof
end

