-- ==== Sys2Proof/Config.lean ====
section
/-! DEFINITION. The values the manual leaves open. Each is opaque: nothing proves anything about it, so what is proved
holds whatever it is. -/

namespace Sys2Proof.Config

/-- Sub-second counts of the n-th posting or sample (R461: taken from the TBO, of which no command tells). -/
opaque subSecond : Nat → Word

/-- PTH_STAT.SEL while NONE is 1 (R156: meaningless). -/
opaque selWhileNone : Nat → BitVec 2

/-- The private half of the device-unique key, before its bounds (R112: it never leaves the part). -/
opaque deviceKeyRaw : Nat

/-- The nonce of a signature over a digest, before its bounds (R112 leaves it open). -/
opaque nonceRaw : List Byte → Nat

/-- The level an ADR ball reads under a connection that R57 does not describe: the n-th use. -/
opaque adrLevel : Nat → AdrTie → Level

/-- The Keeper's falling power-on threshold of this part, in mV before the bounds of R608. -/
opaque kprFallRaw : Nat

/-- The Keeper's falling power-on threshold: 3.7 to 4.0 V (R608). -/
def kprFall : Nat := max 3700 (min 4000 kprFallRaw)

/-- Byte i of the identity page where 14 names no value: manufacturing signature, unnamed bytes. -/
opaque identityByte : Nat → Byte

/-- Raw data of an uncorrectable page: its address, and the n-th use (R540). -/
opaque rawByte : Nat → Nat → Byte

/-- Level of the n-th frame received, 0.5 dB steps (LNK_RSSI). -/
opaque rssi : Nat → Byte

/-- The random part of the n-th listen time before its bounds (R380). -/
opaque listenRaw : Nat → Nat

/-- The n-th listen time: 300 to 800 ms (R380). -/
def listenMs (n : Nat) : Nat := 300 + listenRaw n % 501

/-- MessageID of the n-th message received from a port partner, of which no command tells (R370). -/
opaque partnerId : Nat → BitVec 3

/-- A mean or a highest reading of a HISTORY interval in which there was none (R579): the n-th use, the summary's byte. -/
opaque noReading : Nat → Nat → Int

/-- A measurement of an interrupted test that went with the digital domain (R288): the n-th use, the offset in the record. -/
opaque lostField : Nat → Nat → Word

/-- The VDRV undervoltage threshold of this part, in mV before the bounds of R608. -/
opaque vdrvRaw : Nat

/-- The VDRV undervoltage threshold: 7.2 to 7.8 V (R608). -/
def vdrvUvlo : Nat := max 7200 (min 7800 vdrvRaw)

end Sys2Proof.Config
end

