-- ==== Sys2Proof/Machine/State.lean ====
section
/-! DEFINITION. Everything the manual gives the part to hold, as plain data; the three outcomes' reasons; the state at
State.reset. A register of the window keeps its stored value in `regs` when its reset value no longer holds; status
words that only show other state are computed (Machine/Flags.lean). -/

namespace Sys2Proof.Machine

/-- Raised by nobody: every command of this manual has an effect or a status. -/
inductive Fault where
  /-- Raised by nobody (safe: nothing stops with it). -/
  | none
deriving DecidableEq, Repr

inductive Refusal where
  /-- Raised by an arm of `exec` whose row has no meaning yet (safe). -/
  | notModelled (mnemonic : String)
deriving DecidableEq, Repr

/-- A sparse table: keys strictly rising, and no entry equal to what an unlisted key reads as. -/
abbrev SMap (α : Type) := List (Nat × α)

/-- The variants (00, R1 to R3). -/
inductive Variant where
  | qd6480 | qd6472 | qd6464 | qd6440
deriving DecidableEq, Repr, Inhabited

/-- What manufacture fixes (R45, R108, R595). -/
structure Part where
  variant : Variant
  uid : BitVec 48
  keyHash : List Byte
  calGain : Four Word
  calOff : Four Word
deriving DecidableEq, Repr, Inhabited

/-- SYS_STRAPS (R58, R62, R69). -/
structure Straps where
  bad : Bool
  chem : Nat
  vsafe : Nat
  adr : Nat
deriving DecidableEq, Repr, Inhabited

/-- The states of R72. -/
inductive Mode where
  | off | ship | dormant | hold | active
deriving DecidableEq, Repr, Inhabited

/-- What the present Hold came from. -/
inductive HoldKind where
  | powerOn | ship | dormant | watchdog | brownout
deriving DecidableEq, Repr, Inhabited

/-- Who asked for SHIP (R73, R262). -/
inductive ShipReq where
  | none | agent | own
deriving DecidableEq, Repr, Inhabited

/-- The charge states of R216, in code order. -/
inductive ChgState where
  | idle | qualify | recover | precharge | cc | cv | done | maintain | suspend | fault | isolated | emergency
deriving DecidableEq, Repr, Inhabited

/-- What the digital domain saw last before it went: the states whose change at the next boot posts (R158, R207). -/
structure Seen where
  conn : Option InputId
  valid : Four Bool
  pg : Bool
  alloc : Nat
  runs : Four Bool
  chg : ChgState
deriving DecidableEq, Repr, Inhabited

/-- Keeper, boot and watchdog (03); `stage` is the outcome held for step 6: applied or not, and the VERSION (R641). -/
structure Life where
  kind : HoldKind
  causes : BitVec 7
  wakeFailed : Bool
  attempts : Nat
  waiting : Bool
  booted : Bool
  defaults : Bool
  pulse : Bool
  holdoff : Bool
  armed : Bool
  sWarned : Bool
  eWarned : Bool
  tboSilent : Bool
  lfoBackup : Bool
  shipReq : ShipReq
  fuseFloor : Nat
  stage : Option (Bool × Nat)
  seen : Seen
deriving DecidableEq, Repr, Inhabited

/-- The battery FET (R146, R149, R150). -/
inductive BatFet where
  | off | linear | on
deriving DecidableEq, Repr, Inhabited

/-- The setpoints the analog path holds (R16, R154, R155). -/
structure Setpoints where
  en : Nat
  prio : Nat
  lim : Four Nat
  floor : Four Nat
  vsysMin : Nat
  vhead : Nat
  tgt : Nat
deriving DecidableEq, Repr, Inhabited

/-- The hot-swap gate HSG: off, turning on with its current limited, or fully enhanced (R119 to R121). -/
inductive Hsg where
  | off | rising | on
deriving DecidableEq, Repr, Inhabited

/-- The PoE front end (R116 to R126); `sig` is the class signature of the last event, `ready` that 80 ms have passed since
power-good. -/
structure Poe where
  events : Nat
  requested : Nat
  assigned : Nat
  sig : Nat
  clsBad : Bool
  hsg : Hsg
  pg : Bool
  ready : Bool
  hsFault : Bool
  mps : Bool
  pulse : Bool
  alloc : Nat
  lim : Nat
deriving DecidableEq, Repr, Inhabited

/-- Inputs, selector and VSYS (04). `vbat` is VBAT in mV as the analog comparators saw it last, `sag` that VSYS is below
98 % of its floor on the battery's account (R151). -/
structure PowerPath where
  conn : Option InputId
  valid : Four Bool
  ov : Four Bool
  isolated : Bool
  linear : Bool
  supplement : Bool
  vfloor : Bool
  ilim : Bool
  vsysLow : Bool
  cutoff : Bool
  inelig : Bool
  batfet : BatFet
  vbat : Nat
  sag : Bool
  held : Setpoints
  poe : Poe
  portLim : Two Nat
deriving DecidableEq, Repr, Inhabited

/-- The main phase states (R187); idle while the converter has no power. -/
inductive PhaseSt where
  | idle | run | shed | isolated
deriving DecidableEq, Repr, Inhabited

/-- How a phase runs in a cycle (R160). -/
inductive CycleMode where
  | buck | boost | fourSwitch
deriving DecidableEq, Repr, Inhabited

/-- Where a phase stands in its cycle: not switching, in its on-interval, with its synchronous switch on, in diode emulation
until the next cycle, in a skipped cycle, or turned off by Cinch until the next cycle (R164, R169, R175, R176). -/
inductive Interval where
  | off | on | sync | idle | skip | cinched
deriving DecidableEq, Repr, Inhabited

/-- A main phase (R187 to R194). `cinch` tells a Cinch trip within the last second, `mode` is none before the first cycle,
`angle` is its place in degrees among the running phases (R172). -/
structure PhaseCell where
  st : PhaseSt
  sense : Bool
  runaway : Bool
  ot : Bool
  cinch : Bool
  mode : Option CycleMode
  iv : Interval
  angle : Nat
deriving DecidableEq, Repr, Inhabited

/-- A port converter (R200 to R205). -/
structure XCell where
  run : Bool
  stopped : Bool
  sense : Bool
  runaway : Bool
  ot : Bool
  ilim : Bool
  ovp : Bool
  mode : Option CycleMode
  iv : Interval
  vtgt : Nat
  iset : Nat
  cinch : Bool
deriving DecidableEq, Repr, Inhabited

/-- The converters (05); `tgt` is the VSYS target in force, which ramps to `goal` (R167); `rsOut` tells that the remote-sense
lines were seen out of range last (R186); in reverse `revOut` is the current regulated into AUX in 100 mA and `revCeil` that
VAUX has reached CNV_REV_VMAX (R197). -/
structure Cnv where
  phases : Four PhaseCell
  ov : Bool
  rsInt : Bool
  rsOut : Bool
  rev : Bool
  ilim : Bool
  vdrvLow : Bool
  deadBus : Bool
  revI : Nat
  revOut : Nat
  revCeil : Bool
  goal : Nat
  tgt : Nat
  x : Two XCell
deriving DecidableEq, Repr, Inhabited

/-- The zones, in code order. -/
inductive Zone where
  | cold | cool | normal | warm | hot
deriving DecidableEq, Repr, Inhabited

/-- The charger (06); the timers count half seconds, `measured` tells that the thermistors were converted since the last boot. -/
structure Chg where
  st : ChgState
  zone : Zone
  float : Bool
  halfRate : Bool
  limited : Bool
  boardHot : Bool
  ntcFault : Bool
  absent : Bool
  measured : Bool
  tRecov : Nat
  tPre : Nat
  tSafe : Nat
  dormantStop : Bool
  capL : Nat
deriving DecidableEq, Repr, Inhabited

/-- A test that is due, or an agent's start that waits (R273 to R276); kind, origin, due time, slot granted, and whether
its START record has been composed. -/
structure Due where
  kind : TestKind
  origin : Nat
  tDue : Nat
  slot : Bool
  lead : BitVec 48
  start : Bool
deriving DecidableEq, Repr, Inhabited

/-- What a running test has measured (R289). -/
structure Run where
  kind : TestKind
  origin : Nat
  tDue : Nat
  serial : Nat
  tStart : Nat
  secs : Nat
  warnAt : Option Nat
  zone : Zone
  rails : Nat
  vbatStart : Nat
  vbatMin : Nat
  qStart : Int
  qWarn : Option Int
  capBefore : Nat
  tempMin : Int
  tempMax : Int
  lead : BitVec 48
deriving DecidableEq, Repr, Inhabited

/-- Emergency and tests (07); `fnStop` and `durStop` mark a schedule that R269 stopped, `fnDefer` and `durDefer` a due instance
that has posted its deferral (R273, R294). -/
structure Emg where
  emergency : Bool
  warn : Bool
  cutoff : Bool
  emgSecs : Nat
  full : Bool
  outcome : Nat
  deferred : Bool
  waitSlot : Bool
  due : Option Due
  run : Option Run
  serial : Nat
  elapsed : Nat
  fnStop : Bool
  durStop : Bool
  fnDefer : Bool
  durDefer : Bool
deriving DecidableEq, Repr, Inhabited

/-- The sequencer states of R328, in code order. -/
inductive SeqState where
  | off | up | on | down | stuck | held
deriving DecidableEq, Repr, Inhabited

/-- Which automatic start waits for a rail to discharge (R305). -/
inductive SeqWait where
  | none | auto | restart
deriving DecidableEq, Repr, Inhabited

/-- The rail sequencer (08); `cur` is the rail whose delay runs or whose EN fell last, `rise` the rail whose EN rose and that has
not yet reached power-good, `sns` what the comparators saw last in mV, `keeperFault` what the Keeper latched (R321), true for a
level above. -/
structure Seq where
  state : SeqState
  latch : Bool
  cause : Nat
  dir : Nat
  rail : Nat
  en : Eight Bool
  pg : Eight Bool
  disch : Eight Bool
  unsup : Eight Bool
  armedHi : Eight Bool
  armedLo : Eight Bool
  warned : Eight Bool
  bits : Eight Nat
  cur : Option Rail
  rise : Option Rail
  sns : Eight (Option Nat)
  wait : SeqWait
  keeperFault : Option (Rail × Bool)
deriving DecidableEq, Repr, Inhabited

/-- The role of an attached port (PDP_Cn_STAT.ROLE). -/
inductive PortRole where
  | none | source | sink
deriving DecidableEq, Repr, Inhabited

/-- Why a port presents as cut (R363, R364). -/
inductive CutBy where
  | none | emergency | xstop
deriving DecidableEq, Repr, Inhabited

/-- The reply a port waits for (R367, R368). -/
inductive PdWait where
  | none | request | psRdy | prSwap | caps | sinkCap | sourceCap | status | ppsStatus | capExt | softReset | frSwap
deriving DecidableEq, Repr, Inhabited

/-- An explicit contract; voltage in mV, current in mA. -/
structure Contract where
  pps : Bool
  mv : Nat
  ma : Nat
deriving DecidableEq, Repr, Inhabited

/-- One advertised object of R342. -/
structure Pdo where
  pps : Bool
  mv : Nat
  ma : Nat
deriving DecidableEq, Repr, Inhabited

/-- Where Try.SRC or Try.SNK stands (R336): trying the preferred side, or waiting on the other one after it failed. -/
inductive TryAt where
  | none | src | waitSnk | snk | waitSrc
deriving DecidableEq, Repr, Inhabited

/-- What goes out on CC: a message, Hard Reset signalling, or the fast-role-swap signal, CC low for 90 us (R360). -/
inductive PdSignal where
  | message | hardReset | frSwap
deriving DecidableEq, Repr, Inhabited

/-- A PD message or signal the port put on CC. -/
structure PdMsg where
  signal : PdSignal
  ext : Bool
  typ : Nat
  id : Nat
  objs : List Word32
deriving DecidableEq, Repr, Inhabited

/-- A Type-C port (09). `partnerRev` is the revision in the partner's headers and `rev` the one in force from its first header
on (R332); `trying` is R336's place; `openCc` marks error recovery (R368); `recover` holds a source off for tSrcRecover after a
Hard Reset (R368); `swapped` marks a sink fresh from a swap (R361); `noTurnOn` waits for VBUS below 0.8 V (R366). -/
structure PortSt where
  role : PortRole
  cc2 : Bool
  rp : Nat
  rev : Nat
  partnerRev : Nat
  trying : TryAt
  openCc : Bool
  recover : Bool
  swapped : Bool
  contract : Option Contract
  next : Option Contract
  offered : List Pdo
  partner : List Word32
  snkCaps : List Word32
  frsI : Nat
  dfp : Bool
  discharging : Bool
  slow : Bool
  cut : CutBy
  unsup : Bool
  showRp : Bool
  roleIn : Nat
  cfgIn : Nat
  wait : PdWait
  swapTo : PortRole
  frs : Bool
  waits : Nat
  capsSent : Nat
  hardCnt : Nat
  msgId : Nat
  logRx : Word32
  logTx : Word32
  bist : Bool
  detachHold : Bool
  hadContract : Bool
  noTurnOn : Bool
  sent : List PdMsg
deriving DecidableEq, Repr, Inhabited

/-- LNK_STAT.STATE (R380), in code order. -/
inductive LnkState where
  | off | listen | claiming | joining | member | lead
deriving DecidableEq, Repr, Inhabited

/-- A row of the lead's member table, with the member's last report. -/
structure Member where
  short : Nat
  id : BitVec 48
  prio : Nat
  flags : Byte
  offer : Nat
  demand : Nat
  soc : Nat
  reserve : Nat
  rounds : Nat
  heard : Bool
deriving DecidableEq, Repr, Inhabited

/-- A frame (R375). -/
structure Frame where
  typ : Nat
  ack : Bool
  prio : Bool
  seq : Nat
  src : Nat
  dst : Nat
  claim : Option (Nat × BitVec 48)
  payload : List Byte
deriving DecidableEq, Repr, Inhabited

/-- A test-slot request at the lead (R400). -/
structure SlotReq where
  short : Nat
  kind : TestKind
  secs : Nat
deriving DecidableEq, Repr, Inhabited

/-- The Link (10). `rx` keeps the frames of rings 20 and 22 as R511 shows them, `air` the frame that waits for its ACK and
the tries it has had, `sent` what the last
Link command put on the bus, `last` the last frame each sender asked an ACK for (R376), `listenMs` the listen time (R380). -/
structure Lnk where
  state : LnkState
  listenMs : Nat
  short : Nat
  lead : BitVec 48
  bc : Byte
  count : Nat
  members : List Member
  grant : Option (Bool × Nat)
  offer : Nat
  demand : Nat
  grants : List GrantEntry
  holder : Option Nat
  slotSecs : Nat
  slots : List SlotReq
  rx : Two (List (List Byte))
  txq : List Frame
  air : Option (Frame × Nat)
  sent : List Frame
  seq : Nat
  last : SMap (Nat × List Byte)
  refused : Bool
  capRecent : Bool
deriving DecidableEq, Repr, Inhabited

/-- An attention or notify frame in progress (R446, R451). -/
inductive BusFrame where
  | none
  | attention (mask : Nat)
  | notify (a : Agent)
deriving DecidableEq, Repr, Inhabited

/-- What the port keeps per agent slot; `want` is a frame of the agent's attention mode that has yet to go out. -/
structure SerAgent where
  ptr : Nat
  latches : SMap Word
  called : Bool
  want : Bool
  fallback : Bool
  tries : Nat
  sel : Word
  addr : Word
  result : Nat
  latch : Eight Word
  blkSel : Nat
deriving DecidableEq, Repr, Inhabited

/-- The serial port (11); `reply` and `acked` are what the last transaction put on the bus. -/
structure Ser where
  ag : Four SerAgent
  alert : Bool
  frame : BusFrame
  backoff : Bool
  busBusy : Bool
  reply : List Byte
  acked : Bool
  timedOut : Bool
deriving DecidableEq, Repr, Inhabited

/-- An entry of the fabric (R462); `group` is the batch that holds it while held. -/
structure Entry where
  num : Nat
  origin : Nat
  prio : Nat
  count : Nat
  seq : Word32
  sec : Word32
  sub : Word
  redelivered : Bool
  coalesced : Bool
  overflow : Bool
  rr : Bool
  bound : Four Bool
deriving DecidableEq, Repr, Inhabited

/-- An open batch of a coalescing group (R481). -/
structure Batch where
  group : Nat
  received : Nat
  held : List Entry
deriving DecidableEq, Repr, Inhabited

/-- The latched claim record of an agent (R472, R474). -/
structure ClaimRec where
  w0 : Word
  w1 : Word
  seq : Word32
  sec : Word32
  sub : Word
deriving DecidableEq, Repr, Inhabited

/-- A ring (R491 to R502); `items` are the entry counts of the items it holds, oldest first. -/
structure Ring where
  size : Nat
  base : Nat
  head : Nat
  items : List Nat
  drops : Nat
  wmark : Nat
  wArmed : Bool
  pop : Nat
  db : Nat
  dbEn : Bool
  ovf : Bool
deriving DecidableEq, Repr, Inhabited

/-- The event fabric and ring SRAM (12, 13); `bootPosts` keeps 512 × entry + source for each Keeper watch hit of the absence
(R487). -/
structure Fabric where
  seq : Word32
  stamp : Nat
  unrouted : Nat
  merged : Nat
  batches : List Batch
  pend : List Entry
  last : SMap Nat
  stack : Four (List Entry)
  latch : Four ClaimRec
  stackFlag : Four Bool
  faults : Four Nat
  absent : List Nat
  bootPosts : List Nat
  rings : SMap Ring
  sram : SMap Byte
  bad : List Nat
  eccCorr : Nat
  eccUncorr : Nat
  eccAddr : Nat
  corrRecent : Bool
deriving DecidableEq, Repr, Inhabited

/-- A submit entry waiting in its ring (R508, R512). -/
structure QJob where
  ring : Nat
  no : Nat
  right : Bool
  repeated : Bool
deriving DecidableEq, Repr, Inhabited

/-- The parameter set a job computes with (R514, R530). -/
structure Alg where
  code : Nat
  width : Nat
  poly : Nat
  init : Nat
  refIn : Bool
  refOut : Bool
  xorOut : Nat
deriving DecidableEq, Repr, Inhabited

/-- A job a unit has taken: what it captured, and what its walk found. -/
structure Job where
  ring : Nat
  no : Nat
  entry : List Byte
  right : Bool
  start : Nat
  alg : Alg
  status : Nat
  raw : Nat
  bytes : Nat
  repeated : Bool
deriving DecidableEq, Repr, Inhabited

/-- A Check unit (R517 to R528). `begun` tells that slots 14 and 15 hold a value of the self-test in progress, `held` that the
test is preempted there (R29). -/
structure ChkUnit where
  failed : Bool
  cause : Nat
  kat : Bool
  job : Option Job
  begun : Bool
  held : Bool
deriving DecidableEq, Repr, Inhabited

/-- The Check units; `tests` marks those whose self-test of the present calibration pass is not over (R521). -/
structure Chk where
  units : Four ChkUnit
  tests : Four Bool
  queue : List QJob
  restart : List Job
  pushNo : Nat
deriving DecidableEq, Repr, Inhabited

/-- A journal entry before its serial is assigned (R549). -/
structure JEntry where
  sec : Nat
  typ : Nat
  origin : Nat
  data : List Byte
deriving DecidableEq, Repr, Inhabited

/-- A Tack Room request (R536); `no` is its order of admission. -/
structure Req where
  no : Nat
  bytes : List Byte
deriving DecidableEq, Repr, Inhabited

/-- A reply item that waits for room: first entry, then data entries (R539). -/
structure ReplyItem where
  entries : List (List Byte)
deriving DecidableEq, Repr, Inhabited

/-- An image session (R546): kind 0 IMAGE, 1 PATCH, 2 CONFIG; first page of its target. -/
structure Session where
  agent : Agent
  kind : Nat
  slot : Nat
  base : Nat
  pages : Nat
  next : Nat
deriving DecidableEq, Repr, Inhabited

/-- A background operation of store upkeep on a plane (R27): a page's program, a block's erase, a block's copy. -/
inductive TkrOp where
  | program (page : Nat)
  | erase (block : Nat)
  | copy (block : Nat)
deriving DecidableEq, Repr, Inhabited

/-- A shared unit's arbiter (R26 to R33): `past` tells that an atom boundary has passed since a foreground request began to wait,
`waits` gives for each background activity that waits the grants of the unit since. -/
structure Arb where
  past : Bool
  waits : List (Nat × Nat)
deriving DecidableEq, Repr, Inhabited

/-- The arbiters of the ADC, the Check units and the planes, and the upkeep operation that is suspended on each plane (R27). -/
structure Arbs where
  adc : Arb
  chk : Four Arb
  plane : Four Arb
  susp : Four (Option TkrOp)
deriving DecidableEq, Repr, Inhabited

/-- The Tack Room (14); the store is kept by logical address (R535). `weak` are the blocks in which a read found a page with 4 to
8 corrected bits, `worn` those with more than 5 (R556, R557). -/
structure Tkr where
  store : SMap Byte
  prog : List Nat
  bad : List Nat
  weak : List Nat
  worn : List Nat
  erases : SMap Nat
  map : SMap Nat
  free : List Nat
  retired : Nat
  dropped : List Nat
  queue : Four (List Req)
  run : Four (Option Req)
  replies : Four (List ReplyItem)
  reqNo : Nat
  session : Option Session
  img : Two (Option Nat)
  jbuf : List JEntry
  jserial : Nat
  jhead : Nat
  jsince : Nat
  sealNo : Nat
  chain : List Byte
  chainFrom : List Byte
  thead : Nat
  hbuf : List (List Byte)
  hhead : Nat
  hcount : Nat
  scrubLate : Bool
  spareLow : Bool
  spareOut : Bool
deriving DecidableEq, Repr, Inhabited

/-- A one-shot block (R567). -/
structure OneShot where
  busy : Bool
  ch : Nat
  avg : Nat
deriving DecidableEq, Repr, Inhabited

/-- What the interval in progress has gathered for its summary (R579): a count and a sum per mean. -/
structure Hist where
  vsys : Nat × Int
  vbat : Nat × Int
  ibat : Nat × Int
  pin : Nat × Int
  prail : Nat × Int
  pport : Nat × Int
  paux : Nat × Int
  inputs : Nat
  flags : Nat
  packMax : Option Int
  dieMax : Option Int
  qIn : Nat
  qOut : Nat
  emgSecs : Nat
  secs : Nat
deriving DecidableEq, Repr, Inhabited

/-- Telemetry and one-shots (15): `order` holds the agents whose one-shots wait, as they were admitted (R30), `flight` the
instances that are due, each with the TLM_CFG_e it fell due under, `queued` those of them that were due at the last atom boundary
(R571), `ntcb` is the pin NTCB (R566), `up` the seconds since step 6 of the boot. -/
structure Tlm where
  os : Four OneShot
  order : List Agent
  flight : List (Nat × Nat)
  queued : List Nat
  ntcb : Bool
  count : SMap Nat
  lateRecent : Bool
  hist : Hist
  up : Nat
deriving DecidableEq, Repr, Inhabited

/-- Calibration (15). -/
structure Cal where
  busy : Bool
  again : Bool
  fuseOnly : Bool
  fail : Bool
  clock : Bool
  stale : BitVec 8
  die : Int
  trimDie : Int
  secs : Nat
  coef : Two (Four Word)
deriving DecidableEq, Repr, Inhabited

/-- The whole part, and the queue of commands that wait. `free` numbers the uses of free values (Config). -/
structure State where
  part : Part
  straps : Straps
  mode : Mode
  life : Life
  regs : SMap Word
  pp : PowerPath
  cnv : Cnv
  chg : Chg
  emg : Emg
  seq : Seq
  pdp : Two PortSt
  lnk : Lnk
  ser : Ser
  fab : Fabric
  chk : Chk
  tkr : Tkr
  tlm : Tlm
  cal : Cal
  arb : Arbs
  free : Nat
  pending : List Instr
deriving DecidableEq, Repr

/-! The reset value of each part of the state. A boot, a Hold and a watchdog reset return to these values what they do
not keep. -/

def Seen.init : Seen := ⟨none, Four.all false, false, 0, Four.all false, .idle⟩

def Life.init : Life :=
  ⟨.powerOn, 0, false, 0, false, false, false, false, false, false, false, false, false, false, .none, 0, none, Seen.init⟩

/-- The setpoints at their register reset values for a VSAFE target in 20 mV units (R156). -/
def Setpoints.init (tgt : Nat) : Setpoints :=
  ⟨0xF, 0xE4, ⟨1000, 200, 50, 50⟩, ⟨370, 170, 44, 44⟩, tgt, 10, tgt⟩

def Poe.init : Poe :=
  { events := 0, requested := 1, assigned := 1, sig := 0, clsBad := false, hsg := .off, pg := false, ready := false, hsFault := false,
    mps := false, pulse := false, alloc := 0, lim := 0 }

def PowerPath.init : PowerPath :=
  { conn := none, valid := Four.all false, ov := Four.all false, isolated := false, linear := false, supplement := false,
    vfloor := false, ilim := false, vsysLow := false, cutoff := false, inelig := false, batfet := .off,
    vbat := 0, sag := false, held := Setpoints.init 600, poe := Poe.init, portLim := ⟨0, 0⟩ }

def XCell.init : XCell := ⟨false, false, false, false, false, false, false, none, .off, 0, 0, false⟩

def PhaseCell.init : PhaseCell := ⟨.idle, false, false, false, false, none, .off, 0⟩

def Cnv.init : Cnv :=
  { phases := Four.all PhaseCell.init, ov := false, rsInt := false, rsOut := false, rev := false, ilim := false,
    vdrvLow := false, deadBus := false, revI := 0, revOut := 0, revCeil := false, goal := 600, tgt := 600, x := ⟨XCell.init, XCell.init⟩ }

def Chg.init : Chg := ⟨.idle, .normal, false, false, false, false, false, false, false, 0, 0, 0, false, 0⟩

def Emg.init : Emg := ⟨false, false, false, 0, false, 0, false, false, none, none, 0, 0, false, false, false, false⟩

def Seq.init : Seq :=
  { state := .off, latch := false, cause := 0, dir := 0, rail := 0, en := Eight.all false, pg := Eight.all false,
    disch := Eight.all false, unsup := Eight.all false, armedHi := Eight.all false, armedLo := Eight.all false,
    warned := Eight.all false, bits := Eight.all 0, cur := none, rise := none, sns := Eight.all none, wait := .none,
    keeperFault := none }

def PortSt.init : PortSt :=
  { role := .none, cc2 := false, rp := 0, rev := 0, partnerRev := 0, trying := .none, openCc := false, recover := false,
    swapped := false, contract := none, next := none, offered := [], partner := [],
    snkCaps := [], frsI := 0, dfp := false, discharging := false, slow := false, cut := .none, unsup := false,
    showRp := false, roleIn := 0, cfgIn := 0x0FF0, wait := .none, swapTo := .none, frs := false, waits := 0, capsSent := 0,
    hardCnt := 0, msgId := 0, logRx := 0, logTx := 0, bist := false, detachHold := false, hadContract := false, noTurnOn := false, sent := [] }

def Lnk.init : Lnk :=
  { state := .off, listenMs := 0, short := 0, lead := 0, bc := 0, count := 0, members := [], grant := none, offer := 0, demand := 0,
    grants := [], holder := none, slotSecs := 0, slots := [], rx := ⟨[], []⟩, txq := [], air := none, sent := [], seq := 0,
    last := [], refused := false, capRecent := false }

def SerAgent.init : SerAgent := ⟨0, [], false, false, false, 0, 0, 0, 0, Eight.all 0, 0⟩

def Ser.init : Ser := ⟨Four.all SerAgent.init, false, .none, false, false, [], false, false⟩

def Fabric.init : Fabric :=
  { seq := 0, stamp := 0, unrouted := 0, merged := 0, batches := [], pend := [], last := [], stack := Four.all [],
    latch := Four.all ⟨0, 0, 0, 0, 0⟩, stackFlag := Four.all false, faults := Four.all 0, absent := [], bootPosts := [],
    rings := [], sram := [], bad := [], eccCorr := 0, eccUncorr := 0, eccAddr := 0, corrRecent := false }

def ChkUnit.init : ChkUnit := ⟨false, 0, false, none, false, false⟩

def Chk.init : Chk := ⟨Four.all ChkUnit.init, Four.all false, [], [], 0⟩

def Arb.init : Arb := ⟨false, []⟩

def Arbs.init : Arbs := ⟨Arb.init, Four.all Arb.init, Four.all Arb.init, Four.all none⟩

/-- The spare blocks, 976 to 1023. -/
def spareBlocks : List Nat := (List.range 48).map (· + 976)

/-- The store as it leaves manufacture (R601): only wear management's map and the identity page are not erased; the
page reads as Store.lean's `identityAt` says (log 34). -/
def Tkr.init : Tkr :=
  { store := [], prog := [], bad := [], weak := [], worn := [], erases := [], map := [], free := spareBlocks, retired := 0, dropped := [],
    queue := Four.all [], run := Four.all none, replies := Four.all [], reqNo := 0, session := none, img := ⟨none, none⟩,
    jbuf := [], jserial := 0, jhead := 0, jsince := 0, sealNo := 0, chain := List.replicate 32 0, chainFrom := [],
    thead := 0, hbuf := [], hhead := 0, hcount := 0, scrubLate := false, spareLow := false, spareOut := false }

def Hist.init : Hist :=
  { vsys := (0, 0), vbat := (0, 0), ibat := (0, 0), pin := (0, 0), prail := (0, 0), pport := (0, 0), paux := (0, 0),
    inputs := 0, flags := 0, packMax := none, dieMax := none, qIn := 0, qOut := 0, emgSecs := 0, secs := 0 }

def Tlm.init : Tlm := ⟨Four.all ⟨false, 0, 0⟩, [], [], [], false, [], false, Hist.init, 0⟩

def Cal.init (p : Part) : Cal :=
  { busy := false, again := false, fuseOnly := true, fail := false, clock := false, stale := 0, die := 0,
    trimDie := 0, secs := 0, coef := ⟨p.calGain, p.calOff⟩ }

/-- The part of the log's choice (log 2): a QD6480 of UID 0x001234567890. -/
def Part.chosen : Part := ⟨.qd6480, 0x001234567890, List.replicate 32 0, Four.all 0, Four.all 0⟩

/-- Right after reset: OFF, the first row of the state transitions table, with nothing sampled yet. -/
def State.reset : State :=
  { part := Part.chosen, straps := ⟨false, 0, 0, 0⟩, mode := .off, life := Life.init, regs := [], pp := PowerPath.init,
    cnv := Cnv.init, chg := Chg.init, emg := Emg.init, seq := Seq.init, pdp := ⟨PortSt.init, PortSt.init⟩, lnk := Lnk.init,
    ser := Ser.init, fab := Fabric.init, chk := Chk.init, tkr := Tkr.init, tlm := Tlm.init, cal := Cal.init Part.chosen,
    arb := Arbs.init, free := 0, pending := [] }

end Sys2Proof.Machine
end

