-- ==== Sys2Proof/Machine/Operands.lean ====
section
/-! DEFINITION. The window: every implemented register, its fields, their access codes, reset values, ranges and
retention (R6 to R12, R594 to R598; the layouts of each owning chapter). -/

namespace Sys2Proof.Machine

/-- The access codes of R6. -/
inductive Kind where
  | ro | rw | w1c | wo | rc | rb
deriving DecidableEq, Repr

/-- Where a reset value comes from (R595): a number, or the source the owning table names. -/
inductive Src where
  | num (n : Nat)
  | partId | unitsWord | strapWord | uidWord | vsafeReset | chgEnReset | chemTypeReset | chemCellsReset | vchgReset
  | vrecovReset | vpreReset | vrechgReset | emgWarnReset | emgCutReset | emgAbortReset | fixedChannel | fixedPeriod | fusedCal
deriving DecidableEq, Repr

/-- A field: place, access code, reset source, range (R12; as a two's-complement number when `signed`), retention (R8). -/
structure Field where
  lsb : Nat
  width : Nat
  kind : Kind
  reset : Src
  lo : Int
  hi : Int
  retained : Bool
  signed : Bool
deriving DecidableEq, Repr

/-- A field that takes every value of its width. -/
def fp (lsb width : Nat) (k : Kind) (r : Src) (ret : Bool) : Field := ⟨lsb, width, k, r, 0, 2 ^ width - 1, ret, false⟩

/-- Index i is one of count registers from base, stride apart. -/
def at_ (i base stride count : Nat) : Bool := base ≤ i && (i - base) % stride == 0 && (i - base) / stride < count

/-- Bank 0x00: R44 01, R69 02, R113 03, R488 12. -/
def bank00 (i : Nat) : List Field :=
  if i == 0x0 then [fp 0 16 .ro .partId false]  -- SYS_ID
  else if i == 0x1 then [fp 0 16 .ro (.num 2817) false]  -- SYS_REV
  else if i == 0x2 then [fp 0 16 .ro .unitsWord false]  -- SYS_UNITS
  else if i == 0x3 then [fp 0 16 .ro .strapWord false]  -- SYS_STRAPS
  else if 0x4 ≤ i && i ≤ 0x6 then [fp 0 16 .ro .uidWord false]  -- SYS_UID0-2
  else if i == 0x8 then [fp 12 4 .ro (.num 0) false, fp 0 8 .wo (.num 0) false]  -- SYS_POWER
  else if i == 0x9 then [fp 8 8 .rb (.num 0) false, fp 2 2 .rb (.num 0) false, fp 0 2 .rb (.num 0) false]  -- SYS_BOOT
  else if 0x40 ≤ i && i ≤ 0x5f then [fp 0 16 .rb (.num 0) false]  -- SYS_RIGHTS_a_w
  else if 0x60 ≤ i && i ≤ 0x63 then [fp 0 16 .rb (.num 0) false]  -- SYS_PECREQ0-3
  else if i == 0x64 then [fp 0 16 .rb (.num 0) false]  -- SYS_LIM_CHGV
  else if i == 0x65 then [fp 0 16 .rb (.num 0) false]  -- SYS_LIM_CHGI
  else if i == 0x66 then [fp 0 16 .rb (.num 0) false]  -- SYS_LIM_VSYSLO
  else if i == 0x67 then [fp 0 16 .rb (.num 0) false]  -- SYS_LIM_VSYSHI
  else if i == 0x68 then [fp 8 1 .rb (.num 0) false, fp 0 4 .rb (.num 0) false]  -- SYS_LIM_MISC
  else if i == 0x69 then [fp 0 16 .rb (.num 0) false]  -- SYS_LIM_PORT
  else if 0x6a ≤ i && i ≤ 0x6b then [fp 0 16 .rb (.num 0) false]  -- SYS_DBALLOW0-1
  else if i == 0x80 then [fp 0 7 .ro (.num 1) true]  -- KPR_WAKE_CAUSE
  else if i == 0x81 then [fp 0 8 .ro (.num 0) true]  -- KPR_WAKE_FAILS
  else if i == 0x82 then [fp 1 1 .rw (.num 0) true, fp 0 1 .rw (.num 1) true]  -- KPR_CFG
  else if i == 0x83 then [fp 2 1 .w1c (.num 0) true, fp 1 1 .ro (.num 0) true, fp 0 1 .ro (.num 0) true]  -- KPR_STAT
  else if 0x84 ≤ i && i ≤ 0x85 then [fp 0 16 .rw (.num 0) true]  -- KPR_RTC0-1
  else if 0x86 ≤ i && i ≤ 0x87 then [fp 0 16 .rw (.num 0) true]  -- KPR_ALARM0-1
  else if 0x88 ≤ i && i ≤ 0x8f then [fp 0 16 .rw (.num 0) true]  -- KPR_RET0-7
  else if 0x90 ≤ i && i ≤ 0xaf then [fp 15 1 .rw (.num 0) true, fp 14 1 .ro (.num 0) false, fp 0 9 .rw (.num 0) true]  -- KPR_WATCH_0-31
  else if 0xb0 ≤ i && i ≤ 0xb1 then [fp 0 16 .w1c (.num 0) true]  -- KPR_WATCH_HIT0-1
  else []

/-- Bank 0x01: R456 11. -/
def bank01 (i : Nat) : List Field :=
  if i == 0x100 then [fp 5 1 .rw (.num 0) true, fp 4 1 .rw (.num 1) true, ⟨0, 2, .rw, (.num 1), 0, 2, true, false⟩]  -- SER_CFG
  else if i == 0x101 then [⟨0, 8, .rw, (.num 10), 1, 255, true, false⟩]  -- SER_REPEAT
  else if i == 0x102 then [fp 8 1 .ro (.num 0) false, fp 0 4 .ro (.num 0) false]  -- SER_PENDING
  else if i == 0x103 then [fp 0 16 .rc (.num 0) false]  -- SER_TIMEOUTS
  else if i == 0x104 then [fp 0 16 .rc (.num 0) false]  -- SER_BUS_ERRS
  else if at_ i 0x110 0x10 4 then [fp 2 1 .rw (.num 0) true, fp 0 2 .rw (.num 0) true]  -- SER_AGTn_CFG
  else if at_ i 0x111 0x10 4 then [fp 0 7 .rw (.num 8) true]  -- SER_AGTn_NOTIFY
  else if at_ i 0x112 0x10 4 then [fp 0 4 .rw (.num 15) true]  -- SER_AGTn_ATTN
  else if at_ i 0x113 0x10 4 then [fp 7 1 .ro (.num 0) false, fp 6 1 .w1c (.num 0) false, fp 5 1 .w1c (.num 0) false, fp 4 1 .w1c (.num 0) false, fp 0 4 .ro (.num 0) false]  -- SER_AGTn_STAT
  else if at_ i 0x114 0x10 4 then [fp 15 1 .ro (.num 0) false, fp 0 14 .ro (.num 0) false]  -- SER_AGTn_DENY_IDX
  else if at_ i 0x115 0x10 4 then [fp 0 16 .rc (.num 0) false]  -- SER_AGTn_PECERRS
  else if at_ i 0x116 0x10 4 then [fp 0 14 .ro (.num 0) false]  -- SER_AGTn_PTR
  else if at_ i 0x117 0x10 4 then [fp 0 16 .ro (.num 0) false]  -- SER_AGTn_SUMMARY
  else []

/-- Bank 0x02: R488 12. -/
def bank02 (i : Nat) : List Field :=
  if 0x200 ≤ i && i ≤ 0x3fe then [fp 15 1 .rw (.num 1) false, fp 14 1 .rw (.num 0) false, fp 9 5 .rw (.num 0) false, fp 8 1 .rw (.num 0) false, fp 4 4 .rw (.num 8) false, fp 0 4 .rw (.num 15) false]  -- EVT_ROUTE_x
  else []

/-- Bank 0x03: R488 12. -/
def bank03 (i : Nat) : List Field :=
  if 0x200 ≤ i && i ≤ 0x3fe then [fp 15 1 .rw (.num 1) false, fp 14 1 .rw (.num 0) false, fp 9 5 .rw (.num 0) false, fp 8 1 .rw (.num 0) false, fp 4 4 .rw (.num 8) false, fp 0 4 .rw (.num 15) false]  -- EVT_ROUTE_x
  else []

/-- Bank 0x04: R488 12. -/
def bank04 (i : Nat) : List Field :=
  if i == 0x400 then [fp 0 5 .wo (.num 0) false]  -- EVT_DOORBELL
  else if 0x402 ≤ i && i ≤ 0x403 then [fp 0 16 .ro (.num 0) false]  -- EVT_SEQ0-1
  else if i == 0x404 then [fp 0 16 .rc (.num 0) false]  -- EVT_UNROUTED
  else if i == 0x405 then [fp 0 16 .rc (.num 0) false]  -- EVT_MERGED
  else if 0x408 ≤ i && i ≤ 0x427 then [fp 0 16 .ro (.num 0) false]  -- EVT_OPEN0-31
  else []

/-- Bank 0x05: R488 12. -/
def bank05 (i : Nat) : List Field :=
  if at_ i 0x502 0x2 31 then [⟨0, 8, .rw, (.num 1), 1, 255, false, false⟩]  -- EVT_COAL_g_COUNT
  else if at_ i 0x503 0x2 31 then [⟨0, 16, .rw, (.num 100), 1, 65535, false, false⟩]  -- EVT_COAL_g_TIME
  else []

/-- Bank 0x06: R529 13. -/
def bank06 (i : Nat) : List Field :=
  if i == 0x600 then [fp 8 1 .rw (.num 0) false, fp 0 8 .rw (.num 0) false]  -- RING_SEL
  else if i == 0x601 then [fp 0 16 .rw (.num 0) false]  -- RING_ADDR
  else if i == 0x602 then [fp 0 4 .ro (.num 0) false]  -- RING_RESULT
  else if i == 0x603 then [⟨0, 4, .rw, (.num 0), 0, 9, false, false⟩]  -- RING_CFG
  else if i == 0x604 then [fp 0 12 .rw (.num 0) false]  -- RING_BASE
  else if i == 0x605 then [fp 13 1 .rw (.num 0) false, fp 8 5 .rw (.num 0) false, fp 4 4 .rw (.num 15) false, fp 2 2 .ro (.num 0) false, fp 0 2 .ro (.num 0) false]  -- RING_MODE
  else if i == 0x606 then [fp 0 13 .rw (.num 0) false]  -- RING_WMARK
  else if i == 0x607 then [fp 0 13 .ro (.num 0) false]  -- RING_COUNT
  else if i == 0x608 then [fp 0 16 .rc (.num 0) false]  -- RING_DROPS
  else if 0x610 ≤ i && i ≤ 0x617 then [fp 0 16 .rw (.num 0) false]  -- RING_DATA0-7
  else if 0x620 ≤ i && i ≤ 0x62f then [fp 0 16 .ro (.num 0) false]  -- RING_NONEMPTY0-15
  else if 0x630 ≤ i && i ≤ 0x63f then [fp 0 16 .w1c (.num 0) false]  -- RING_OVF0-15
  else if i == 0x640 then [fp 0 16 .rc (.num 0) false]  -- RING_ECC_CORR
  else if i == 0x641 then [fp 0 16 .rc (.num 0) false]  -- RING_ECC_UNCORR
  else if i == 0x642 then [fp 0 16 .ro (.num 0) false]  -- RING_ECC_ADDR
  else []

/-- Bank 0x07: R529 13. -/
def bank07 (i : Nat) : List Field :=
  if 0x700 ≤ i && i ≤ 0x7ff then [fp 0 13 .ro (.num 0) false]  -- RING_x_COUNT
  else []

/-- Bank 0x08: R529 13. -/
def bank08 (i : Nat) : List Field :=
  if at_ i 0x800 0x30 4 then [fp 8 4 .ro (.num 0) false, fp 4 2 .ro (.num 0) false, fp 2 1 .ro (.num 0) false, fp 0 2 .ro (.num 0) false]  -- CHK_u_STAT
  else if at_ i 0x802 0x30 4 then [fp 0 16 .rw (.num 0) false]  -- CHK_u_ACC0
  else if at_ i 0x803 0x30 4 then [fp 0 16 .rw (.num 0) false]  -- CHK_u_ACC1
  else if at_ i 0x804 0x30 4 then [fp 0 16 .rc (.num 0) false]  -- CHK_u_JOBS
  else if at_ i 0x805 0x30 4 then [fp 0 16 .rc (.num 0) false]  -- CHK_u_REPEATS
  else if 0x810 ≤ i && i ≤ 0x82f then [fp 0 16 .rw (.num 0) false]  -- CHK_0_CTX_s_h
  else if 0x840 ≤ i && i ≤ 0x85f then [fp 0 16 .rw (.num 0) false]  -- CHK_1_CTX_s_h
  else if 0x870 ≤ i && i ≤ 0x88f then [fp 0 16 .rw (.num 0) false]  -- CHK_2_CTX_s_h
  else if 0x8a0 ≤ i && i ≤ 0x8bf then [fp 0 16 .rw (.num 0) false]  -- CHK_3_CTX_s_h
  else if at_ i 0x8c0 0x8 4 then [fp 9 1 .rw (.num 1) false, fp 8 1 .rw (.num 1) false, ⟨0, 6, .rw, (.num 32), 8, 32, false, false⟩]  -- CHK_PSETk_CFG
  else if at_ i 0x8c1 0x8 4 then [fp 0 16 .rw (.num 7607) false]  -- CHK_PSETk_POLY0
  else if at_ i 0x8c2 0x8 4 then [fp 0 16 .rw (.num 1217) false]  -- CHK_PSETk_POLY1
  else if at_ i 0x8c3 0x8 4 then [fp 0 16 .rw (.num 65535) false]  -- CHK_PSETk_INIT0
  else if at_ i 0x8c4 0x8 4 then [fp 0 16 .rw (.num 65535) false]  -- CHK_PSETk_INIT1
  else if at_ i 0x8c5 0x8 4 then [fp 0 16 .rw (.num 65535) false]  -- CHK_PSETk_XOR0
  else if at_ i 0x8c6 0x8 4 then [fp 0 16 .rw (.num 65535) false]  -- CHK_PSETk_XOR1
  else []

/-- Bank 0x09: R561 14. -/
def bank09 (i : Nat) : List Field :=
  if i == 0x900 then [fp 9 1 .ro (.num 0) false, fp 8 1 .ro (.num 0) false, fp 4 4 .ro (.num 0) false, fp 2 2 .ro (.num 0) false, fp 0 2 .ro (.num 0) false]  -- TKR_STAT
  else if i == 0x901 then [fp 0 6 .ro (.num 48) false]  -- TKR_SPARE
  else if i == 0x902 then [fp 0 10 .ro (.num 0) false]  -- TKR_RETIRED
  else if 0x903 ≤ i && i ≤ 0x904 then [fp 0 16 .ro (.num 0) false]  -- TKR_JRN_SERIAL0-1
  else if 0x905 ≤ i && i ≤ 0x906 then [fp 0 16 .ro (.num 0) false]  -- TKR_SEAL_NO0-1
  else if i == 0x907 then [fp 0 12 .ro (.num 0) false]  -- TKR_QUEUE
  else if i == 0x908 then [fp 0 16 .rc (.num 0) false]  -- TKR_ECC_CORR
  else if i == 0x909 then [fp 0 16 .rc (.num 0) false]  -- TKR_ECC_UNCORR
  else if 0x90a ≤ i && i ≤ 0x90b then [fp 0 16 .ro (.num 0) false]  -- TKR_UNCORR_ADDR0-1
  else if i == 0x90c then [fp 0 7 .ro (.num 0) false]  -- TKR_SCRUB
  else if 0x90d ≤ i && i ≤ 0x90e then [fp 15 1 .ro (.num 0) false, fp 0 15 .ro (.num 0) false]  -- TKR_IMG0-1
  else []

/-- Bank 0x0A: R561 14. -/
def bank0A (i : Nat) : List Field :=
  if i == 0xa00 then [fp 0 10 .rw (.num 0) false]  -- TKR_BLK_SEL
  else if i == 0xa01 then [fp 12 2 .ro (.num 0) false, fp 0 10 .ro (.num 0) false]  -- TKR_BLK_MAP
  else if 0xa02 ≤ i && i ≤ 0xa03 then [fp 0 16 .ro (.num 0) false]  -- TKR_BLK_ERASES0-1
  else []

/-- Bank 0x0B: R113 03, R591 15. -/
def bank0B (i : Nat) : List Field :=
  if i == 0xb00 then [fp 4 3 .rb (.num 3) false, fp 0 4 .rb (.num 4) false]  -- WDG_CFG
  else if i == 0xb01 then [fp 1 1 .ro (.num 0) false, fp 0 1 .ro (.num 0) false]  -- WDG_STAT
  else if 0xb10 ≤ i && i ≤ 0xb15 then [⟨0, 3, .rw, (.num 2), 0, 4, false, false⟩]  -- BG_FLOOR_a
  else if i == 0xb18 then [fp 0 6 .w1c (.num 0) false]  -- BG_LATE
  else if 0xb20 ≤ i && i ≤ 0xb25 then [fp 0 7 .ro (.num 0) false]  -- BG_PROG_a
  else []

/-- Bank 0x0C: R328 08. -/
def bank0C (i : Nat) : List Field :=
  if i == 0xc00 then [fp 13 3 .ro (.num 0) false, fp 12 1 .ro (.num 0) true, fp 9 3 .ro (.num 0) true, fp 7 2 .ro (.num 0) true, fp 3 4 .ro (.num 0) true, fp 0 3 .ro (.num 0) false]  -- SEQ_STAT
  else if i == 0xc01 then [fp 0 8 .wo (.num 0) false]  -- SEQ_CTL
  else if i == 0xc02 then [fp 1 1 .rw (.num 1) true, fp 0 1 .rw (.num 0) true]  -- SEQ_CFG
  else if i == 0xc03 then [fp 0 8 .rw (.num 0) true]  -- SEQ_EN
  else if i == 0xc04 then [fp 0 8 .ro (.num 0) false]  -- SEQ_PG
  else if i == 0xc05 then [fp 0 8 .ro (.num 0) false]  -- SEQ_DISCH
  else []

/-- Bank 0x0D: R328 08. -/
def bank0D (i : Nat) : List Field :=
  if at_ i 0xd00 0x10 8 then [fp 0 8 .rw (.num 1) true]  -- SEQ_k_START
  else if at_ i 0xd01 0x10 8 then [⟨0, 8, .rw, (.num 10), 1, 255, true, false⟩]  -- SEQ_k_RISE
  else if at_ i 0xd02 0x10 8 then [⟨0, 8, .rw, (.num 20), 1, 255, true, false⟩]  -- SEQ_k_DIS_MAX
  else if at_ i 0xd03 0x10 8 then [⟨8, 8, .rw, (.num 50), 1, 255, true, false⟩, ⟨0, 8, .rw, (.num 10), 1, 255, true, false⟩]  -- SEQ_k_DGL
  else if at_ i 0xd04 0x10 8 then [⟨0, 12, .rw, (.num 3300), 0, 3300, true, false⟩]  -- SEQ_k_FAULT_HI
  else if at_ i 0xd05 0x10 8 then [⟨0, 12, .rw, (.num 3300), 0, 3300, true, false⟩]  -- SEQ_k_WARN_HI
  else if at_ i 0xd06 0x10 8 then [⟨0, 12, .rw, (.num 1000), 0, 3300, true, false⟩]  -- SEQ_k_WARN_LO
  else if at_ i 0xd07 0x10 8 then [⟨0, 12, .rw, (.num 900), 0, 3300, true, false⟩]  -- SEQ_k_FAULT_LO
  else if at_ i 0xd08 0x10 8 then [⟨0, 12, .rw, (.num 100), 0, 3300, true, false⟩]  -- SEQ_k_DISCH
  else if at_ i 0xd09 0x10 8 then [fp 0 12 .ro (.num 0) false]  -- SEQ_k_SNS
  else if at_ i 0xd0a 0x10 8 then [fp 0 9 .ro (.num 0) false]  -- SEQ_k_STAT
  else []

/-- Bank 0x0E: R208 05. -/
def bank0E (i : Nat) : List Field :=
  if i == 0xe00 then [fp 8 8 .ro (.num 0) false, fp 4 4 .ro (.num 15) false, fp 0 4 .ro (.num 0) false]  -- CNV_STAT
  else if i == 0xe01 then [fp 4 4 .wo (.num 0) false, fp 3 1 .wo (.num 0) false, fp 2 1 .rw (.num 1) true, fp 1 1 .rw (.num 1) true, fp 0 1 .rw (.num 1) true]  -- CNV_CTL
  else if i == 0xe02 then [fp 3 6 .rw (.num 3) true, ⟨0, 3, .rw, (.num 2), 0, 6, true, false⟩]  -- CNV_CFG
  else if i == 0xe03 then [fp 7 5 .rw (.num 5) true, fp 2 5 .rw (.num 9) true, fp 0 2 .rw (.num 1) true]  -- CNV_COMP
  else if i == 0xe04 then [⟨0, 8, .rw, (.num 120), 5, 120, true, false⟩]  -- CNV_ILIM
  else if i == 0xe05 then [fp 0 8 .ro (.num 120) false]  -- CNV_ILIM_EFF
  else if i == 0xe06 then [⟨0, 8, .rw, (.num 10), 1, 255, true, false⟩]  -- CNV_SLEW
  else if i == 0xe07 then [fp 0 11 .ro .vsafeReset false]  -- CNV_VSYS_TGT
  else if i == 0xe08 then [⟨0, 7, .rw, (.num 10), 1, 100, true, false⟩]  -- CNV_SHED_DWELL
  else if i == 0xe09 then [⟨0, 8, .rw, (.num 25), 1, 120, true, false⟩]  -- CNV_SHED_ADD1
  else if i == 0xe0a then [⟨0, 8, .rw, (.num 55), 1, 120, true, false⟩]  -- CNV_SHED_ADD2
  else if i == 0xe0b then [⟨0, 8, .rw, (.num 85), 1, 120, true, false⟩]  -- CNV_SHED_ADD3
  else if i == 0xe0c then [⟨0, 8, .rw, (.num 20), 1, 120, true, false⟩]  -- CNV_SHED_DROP2
  else if i == 0xe0d then [⟨0, 8, .rw, (.num 45), 1, 120, true, false⟩]  -- CNV_SHED_DROP3
  else if i == 0xe0e then [⟨0, 8, .rw, (.num 75), 1, 120, true, false⟩]  -- CNV_SHED_DROP4
  else if i == 0xe0f then [⟨0, 4, .rw, (.num 4), 1, 15, true, false⟩]  -- CNV_SKIP
  else if i == 0xe10 then [⟨0, 6, .rw, (.num 20), 0, 60, true, false⟩]  -- CNV_REV_IMAX
  else if i == 0xe11 then [⟨0, 10, .rw, (.num 540), 180, 570, true, false⟩]  -- CNV_REV_VMAX
  else if i == 0xe12 then [fp 0 6 .ro (.num 0) false]  -- CNV_REV_I
  else []

/-- Bank 0x0F: R208 05. -/
def bank0F (i : Nat) : List Field :=
  if at_ i 0xf00 0x10 4 then [⟨0, 7, .rw, (.num 30), 8, 100, true, false⟩]  -- CNV_Pp_CINCH
  else if at_ i 0xf01 0x10 4 then [fp 0 6 .ro (.num 0) false]  -- CNV_Pp_STAT
  else if at_ i 0xf02 0x10 4 then [fp 0 16 .rc (.num 0) false]  -- CNV_Pp_CINCH_CNT
  else []

/-- Bank 0x11: R208 05. -/
def bank11 (i : Nat) : List Field :=
  if at_ i 0x1100 0x80 2 then [fp 0 9 .ro (.num 0) false]  -- CNV_Xn_STAT
  else if at_ i 0x1101 0x80 2 then [fp 10 1 .rw (.num 1) true, fp 9 1 .rw (.num 1) true, fp 3 6 .rw (.num 3) true, ⟨0, 3, .rw, (.num 3), 0, 6, true, false⟩]  -- CNV_Xn_CFG
  else if at_ i 0x1102 0x80 2 then [⟨0, 7, .rw, (.num 40), 8, 100, true, false⟩]  -- CNV_Xn_CINCH
  else if at_ i 0x1103 0x80 2 then [fp 7 5 .rw (.num 5) true, fp 2 5 .rw (.num 9) true, fp 0 2 .rw (.num 1) true]  -- CNV_Xn_COMP
  else if at_ i 0x1104 0x80 2 then [fp 0 11 .ro (.num 0) false]  -- CNV_Xn_VTGT
  else if at_ i 0x1105 0x80 2 then [fp 0 6 .ro (.num 0) false]  -- CNV_Xn_ILIM
  else if at_ i 0x1106 0x80 2 then [fp 0 1 .wo (.num 0) false]  -- CNV_Xn_CTL
  else if at_ i 0x1107 0x80 2 then [fp 0 16 .rc (.num 0) false]  -- CNV_Xn_CINCH_CNT
  else []

/-- Bank 0x12: R251 06. -/
def bank12 (i : Nat) : List Field :=
  if i == 0x1200 then [fp 7 6 .ro (.num 0) false, fp 4 3 .ro (.num 2) false, fp 0 4 .ro (.num 0) false]  -- CHG_STAT
  else if i == 0x1201 then [fp 2 1 .wo (.num 0) false, fp 1 1 .rw (.num 0) true, fp 0 1 .rw .chgEnReset true]  -- CHG_CTL
  else if i == 0x1202 then [fp 4 4 .rw .chemTypeReset true, fp 0 4 .rw .chemCellsReset true]  -- CHG_CHEM
  else if i == 0x1203 then [⟨0, 12, .rw, .vchgReset, 800, 3000, true, false⟩]  -- CHG_VCHG
  else if i == 0x1204 then [⟨0, 9, .rw, (.num 40), 2, 320, true, false⟩]  -- CHG_ICHG
  else if i == 0x1205 then [⟨0, 6, .rw, (.num 8), 2, 40, true, false⟩]  -- CHG_IPRE
  else if i == 0x1206 then [⟨0, 4, .rw, (.num 2), 1, 8, true, false⟩]  -- CHG_IRECOV
  else if i == 0x1207 then [⟨0, 6, .rw, (.num 4), 1, 40, true, false⟩]  -- CHG_ITERM
  else if i == 0x1208 then [⟨0, 9, .rw, .vrecovReset, 100, 300, true, false⟩]  -- CHG_VRECOV
  else if i == 0x1209 then [⟨0, 9, .rw, .vpreReset, 200, 350, true, false⟩]  -- CHG_VPRE
  else if i == 0x120a then [⟨0, 6, .rw, .vrechgReset, 5, 50, true, false⟩]  -- CHG_VRECHG
  else if i == 0x120b then [⟨0, 6, .rw, (.num 10), 1, 60, true, false⟩]  -- CHG_TTERM
  else if i == 0x120c then [⟨0, 8, .rw, (.num 60), 1, 255, true, false⟩]  -- CHG_TPRE
  else if i == 0x120d then [⟨0, 6, .rw, (.num 30), 1, 60, true, false⟩]  -- CHG_TRECOV
  else if i == 0x120e then [⟨0, 6, .rw, (.num 20), 1, 48, true, false⟩]  -- CHG_TSAFE
  else if i == 0x120f then [⟨0, 5, .rw, (.num 4), 1, 16, true, false⟩]  -- CHG_PLIN
  else if i == 0x1210 then [fp 0 4 .ro (.num 0) true]  -- CHG_FAULT
  else if i == 0x1220 then [⟨2, 2, .rw, (.num 1), 0, 2, true, false⟩, ⟨0, 2, .rw, (.num 0), 0, 2, true, false⟩]  -- CHG_NTC
  else if i == 0x1221 then [⟨0, 8, .rw, (.num 0), (-40), 85, true, true⟩]  -- CHG_T_COLD
  else if i == 0x1222 then [⟨0, 8, .rw, (.num 10), (-40), 85, true, true⟩]  -- CHG_T_COOL
  else if i == 0x1223 then [⟨0, 8, .rw, (.num 45), (-40), 85, true, true⟩]  -- CHG_T_WARM
  else if i == 0x1224 then [⟨0, 8, .rw, (.num 55), (-40), 85, true, true⟩]  -- CHG_T_HOT
  else if i == 0x1225 then [⟨0, 8, .rw, (.num 85), 40, 125, true, false⟩]  -- CHG_TBOARD
  else if i == 0x1226 then [⟨8, 4, .rw, (.num 4), 0, 8, true, false⟩, fp 0 5 .rw (.num 0) true]  -- CHG_ZONE_COOL
  else if i == 0x1227 then [⟨8, 4, .rw, (.num 8), 0, 8, true, false⟩, fp 0 5 .rw (.num 0) true]  -- CHG_ZONE_NORMAL
  else if i == 0x1228 then [⟨8, 4, .rw, (.num 8), 0, 8, true, false⟩, fp 0 5 .rw (.num 10) true]  -- CHG_ZONE_WARM
  else if 0x1229 ≤ i && i ≤ 0x122a then [fp 0 16 .ro (.num 0) false]  -- CHG_TEMP1-2
  else []

/-- Bank 0x13: R252 06. -/
def bank13 (i : Nat) : List Field :=
  if 0x1300 ≤ i && i ≤ 0x1301 then [fp 0 16 .ro (.num 0) true]  -- CHG_QACC0-1
  else if i == 0x1302 then [fp 0 16 .ro (.num 0) true]  -- CHG_QREM
  else if i == 0x1303 then [fp 0 16 .ro (.num 0) false]  -- CHG_CAP_L
  else if i == 0x1304 then [fp 0 16 .rw (.num 0) true]  -- CHG_CAP_NOM
  else if i == 0x1305 then [fp 15 1 .ro (.num 0) true, fp 0 7 .ro (.num 0) false]  -- CHG_SOC
  else if i == 0x1306 then [fp 0 16 .ro (.num 0) false]  -- CHG_RESERVE_MIN
  else if i == 0x1307 then [⟨0, 9, .rw, (.num 40), 2, 320, true, false⟩]  -- CHG_IREF
  else if i == 0x1308 then [fp 0 10 .rw (.num 0) true]  -- CHG_RESERVE_WARN
  else if i == 0x1309 then [fp 0 16 .ro (.num 0) false]  -- CHG_IBAT
  else if i == 0x130a then [fp 0 12 .ro (.num 0) false]  -- CHG_VBAT
  else []

/-- Bank 0x14: R292 07, R293 07. -/
def bank14 (i : Nat) : List Field :=
  if i == 0x1400 then [fp 12 4 .ro (.num 0) true, fp 8 1 .ro (.num 0) true, fp 7 1 .ro (.num 0) false, fp 6 1 .ro (.num 0) false, fp 4 2 .ro (.num 0) false, fp 3 1 .ro (.num 0) false, fp 2 1 .ro (.num 0) false, fp 1 1 .ro (.num 0) false, fp 0 1 .ro (.num 0) false]  -- EMG_STAT
  else if i == 0x1401 then [fp 12 4 .ro (.num 0) false, ⟨10, 2, .rw, (.num 1), 0, 2, true, false⟩, fp 8 1 .rw (.num 1) true, fp 2 1 .wo (.num 0) false, fp 1 1 .wo (.num 0) false, fp 0 1 .wo (.num 0) false]  -- EMG_CTL
  else if i == 0x1402 then [⟨0, 9, .rw, .emgWarnReset, 250, 400, true, false⟩]  -- EMG_WARN
  else if i == 0x1403 then [⟨0, 9, .rw, .emgCutReset, 250, 400, true, false⟩]  -- EMG_CUTOFF
  else if i == 0x1404 then [⟨0, 9, .rw, .emgAbortReset, 250, 400, true, false⟩]  -- EMG_TEST_ABORT
  else if i == 0x1405 then [⟨0, 5, .rw, (.num 3), 3, 30, true, false⟩]  -- EMG_FN_LEN
  else if i == 0x1406 then [⟨0, 5, .rw, (.num 6), 1, 16, true, false⟩]  -- EMG_DUR_LEN
  else if 0x1408 ≤ i && i ≤ 0x1409 then [fp 0 16 .rw (.num 0) true]  -- EMG_FN_NEXT0-1
  else if 0x140a ≤ i && i ≤ 0x140b then [fp 0 16 .rw (.num 0) true]  -- EMG_DUR_NEXT0-1
  else if i == 0x140c then [⟨0, 9, .rw, (.num 30), 0, 365, true, false⟩]  -- EMG_FN_PERIOD
  else if i == 0x140d then [⟨0, 10, .rw, (.num 365), 0, 730, true, false⟩]  -- EMG_DUR_PERIOD
  else if i == 0x140e then [⟨0, 7, .rw, (.num 24), 1, 72, true, false⟩]  -- EMG_DEFER_MAX
  else if i == 0x140f then [⟨0, 5, .rw, (.num 3), 1, 24, true, false⟩]  -- EMG_RETRY
  else if i == 0x1410 then [fp 0 16 .ro (.num 0) false]  -- EMG_ELAPSED
  else if i == 0x1411 then [fp 0 16 .ro (.num 0) false]  -- EMG_SERIAL
  else []

/-- Bank 0x15: R156 04. -/
def bank15 (i : Nat) : List Field :=
  if i == 0x1500 then [fp 0 13 .ro (.num 0) false]  -- PTH_STAT
  else if i == 0x1501 then [fp 0 4 .rw (.num 15) true]  -- PTH_EN
  else if i == 0x1502 then [fp 0 8 .rw (.num 228) true]  -- PTH_PRIO
  else if i == 0x1503 then [fp 0 8 .rw (.num 10) true]  -- PTH_RETURN
  else if i == 0x1504 then [⟨0, 8, .rw, (.num 10), 1, 255, true, false⟩]  -- PTH_QUAL
  else if i == 0x1505 then [⟨0, 10, .rw, (.num 1000), 5, 1000, true, false⟩]  -- PTH_ILIM_POE
  else if i == 0x1506 then [⟨0, 10, .rw, (.num 200), 5, 1000, true, false⟩]  -- PTH_ILIM_AUX
  else if i == 0x1507 then [⟨0, 10, .rw, (.num 50), 5, 300, true, false⟩]  -- PTH_ILIM_C1
  else if i == 0x1508 then [⟨0, 10, .rw, (.num 50), 5, 300, true, false⟩]  -- PTH_ILIM_C2
  else if i == 0x1509 then [⟨0, 10, .rw, (.num 370), 300, 500, true, false⟩]  -- PTH_VFLOOR_POE
  else if i == 0x150a then [⟨0, 10, .rw, (.num 170), 160, 500, true, false⟩]  -- PTH_VFLOOR_AUX
  else if i == 0x150b then [⟨0, 10, .rw, (.num 44), 40, 200, true, false⟩]  -- PTH_VFLOOR_C1
  else if i == 0x150c then [⟨0, 10, .rw, (.num 44), 40, 200, true, false⟩]  -- PTH_VFLOOR_C2
  else if i == 0x150d then [⟨0, 11, .rw, .vsafeReset, 450, 1600, true, false⟩]  -- PTH_VSYS_MIN
  else if i == 0x150e then [⟨0, 6, .rw, (.num 10), 5, 50, true, false⟩]  -- PTH_VHEAD
  else if i == 0x150f then [fp 0 8 .rc (.num 0) false]  -- PTH_TAKEOVERS
  else []

/-- Bank 0x17: R371 09. -/
def bank17 (i : Nat) : List Field :=
  if at_ i 0x1700 0x200 2 then [fp 0 16 .ro (.num 0) false]  -- PDP_Cn_STAT
  else if at_ i 0x1701 0x200 2 then [fp 14 2 .rw (.num 0) true, fp 13 1 .rw (.num 0) true, fp 12 1 .rw (.num 0) true, fp 10 2 .rw (.num 3) true, fp 5 5 .rw (.num 31) true, ⟨3, 2, .rw, (.num 2), 0, 2, true, false⟩, ⟨1, 2, .rw, (.num 0), 0, 2, true, false⟩]  -- PDP_Cn_CFG
  else if at_ i 0x1702 0x200 2 then [fp 0 2 .rw (.num 0) true]  -- PDP_Cn_ROLE
  else if at_ i 0x1703 0x200 2 then [⟨8, 7, .rw, (.num 50), 30, 70, true, false⟩, ⟨0, 7, .rw, (.num 75), 50, 100, true, false⟩]  -- PDP_Cn_DRP
  else if at_ i 0x1704 0x200 2 then [⟨0, 6, .rw, (.num 60), 1, 60, true, false⟩]  -- PDP_Cn_SRC_I5
  else if at_ i 0x1705 0x200 2 then [⟨0, 6, .rw, (.num 60), 1, 60, true, false⟩]  -- PDP_Cn_SRC_I9
  else if at_ i 0x1706 0x200 2 then [⟨0, 6, .rw, (.num 60), 1, 60, true, false⟩]  -- PDP_Cn_SRC_I15
  else if at_ i 0x1707 0x200 2 then [⟨0, 6, .rw, (.num 60), 1, 60, true, false⟩]  -- PDP_Cn_SRC_I20
  else if at_ i 0x1708 0x200 2 then [⟨0, 6, .rw, (.num 60), 1, 60, true, false⟩]  -- PDP_Cn_SRC_IPPS
  else if at_ i 0x1709 0x200 2 then [⟨0, 8, .rw, (.num 33), 33, 210, true, false⟩]  -- PDP_Cn_PPS_VMIN
  else if at_ i 0x170a 0x200 2 then [⟨0, 8, .rw, (.num 210), 33, 210, true, false⟩]  -- PDP_Cn_PPS_VMAX
  else if at_ i 0x170b 0x200 2 then [⟨0, 8, .rw, (.num 50), 50, 210, true, false⟩]  -- PDP_Cn_SNK_VMIN
  else if at_ i 0x170c 0x200 2 then [⟨0, 8, .rw, (.num 200), 50, 210, true, false⟩]  -- PDP_Cn_SNK_VMAX
  else if at_ i 0x170d 0x200 2 then [⟨0, 9, .rw, (.num 300), 5, 300, true, false⟩]  -- PDP_Cn_SNK_I
  else if at_ i 0x170e 0x200 2 then [⟨0, 11, .rw, (.num 500), 165, 1050, true, false⟩]  -- PDP_Cn_SNK_PPS_V
  else if at_ i 0x170f 0x200 2 then [⟨0, 6, .rw, (.num 60), 1, 60, true, false⟩]  -- PDP_Cn_SNK_PPS_I
  else if at_ i 0x1710 0x200 2 then [⟨0, 4, .rw, (.num 8), 2, 9, true, false⟩]  -- PDP_Cn_KEEPALIVE
  else if at_ i 0x1711 0x200 2 then [⟨0, 7, .rw, (.num 10), 5, 100, true, false⟩]  -- PDP_Cn_WAIT_RETRY
  else if at_ i 0x1712 0x200 2 then [fp 12 4 .ro (.num 0) false, fp 0 8 .wo (.num 0) false]  -- PDP_Cn_CTL
  else if at_ i 0x1713 0x200 2 then [fp 0 11 .ro (.num 0) false]  -- PDP_Cn_CON_V
  else if at_ i 0x1714 0x200 2 then [fp 0 9 .ro (.num 0) false]  -- PDP_Cn_CON_I
  else if at_ i 0x1715 0x200 2 then [fp 0 10 .ro (.num 0) false]  -- PDP_Cn_BUDGET
  else if at_ i 0x1716 0x200 2 then [fp 0 2 .ro (.num 0) false]  -- PDP_Cn_FRS_I
  else if at_ i 0x1717 0x200 2 then [fp 0 8 .rc (.num 0) false]  -- PDP_Cn_HRESETS
  else []

/-- Bank 0x18: R371 09. -/
def bank18 (i : Nat) : List Field :=
  if at_ i 0x1800 0x200 2 then [fp 0 16 .rw (.num 0) true]  -- PDP_Cn_VID
  else if at_ i 0x1801 0x200 2 then [fp 0 16 .rw (.num 0) true]  -- PDP_Cn_PID
  else []

/-- Bank 0x19: R371 09. -/
def bank19 (i : Nat) : List Field :=
  if at_ i 0x1700 0x200 2 then [fp 0 16 .ro (.num 0) false]  -- PDP_Cn_STAT
  else if at_ i 0x1701 0x200 2 then [fp 14 2 .rw (.num 0) true, fp 13 1 .rw (.num 0) true, fp 12 1 .rw (.num 0) true, fp 10 2 .rw (.num 3) true, fp 5 5 .rw (.num 31) true, ⟨3, 2, .rw, (.num 2), 0, 2, true, false⟩, ⟨1, 2, .rw, (.num 0), 0, 2, true, false⟩]  -- PDP_Cn_CFG
  else if at_ i 0x1702 0x200 2 then [fp 0 2 .rw (.num 0) true]  -- PDP_Cn_ROLE
  else if at_ i 0x1703 0x200 2 then [⟨8, 7, .rw, (.num 50), 30, 70, true, false⟩, ⟨0, 7, .rw, (.num 75), 50, 100, true, false⟩]  -- PDP_Cn_DRP
  else if at_ i 0x1704 0x200 2 then [⟨0, 6, .rw, (.num 60), 1, 60, true, false⟩]  -- PDP_Cn_SRC_I5
  else if at_ i 0x1705 0x200 2 then [⟨0, 6, .rw, (.num 60), 1, 60, true, false⟩]  -- PDP_Cn_SRC_I9
  else if at_ i 0x1706 0x200 2 then [⟨0, 6, .rw, (.num 60), 1, 60, true, false⟩]  -- PDP_Cn_SRC_I15
  else if at_ i 0x1707 0x200 2 then [⟨0, 6, .rw, (.num 60), 1, 60, true, false⟩]  -- PDP_Cn_SRC_I20
  else if at_ i 0x1708 0x200 2 then [⟨0, 6, .rw, (.num 60), 1, 60, true, false⟩]  -- PDP_Cn_SRC_IPPS
  else if at_ i 0x1709 0x200 2 then [⟨0, 8, .rw, (.num 33), 33, 210, true, false⟩]  -- PDP_Cn_PPS_VMIN
  else if at_ i 0x170a 0x200 2 then [⟨0, 8, .rw, (.num 210), 33, 210, true, false⟩]  -- PDP_Cn_PPS_VMAX
  else if at_ i 0x170b 0x200 2 then [⟨0, 8, .rw, (.num 50), 50, 210, true, false⟩]  -- PDP_Cn_SNK_VMIN
  else if at_ i 0x170c 0x200 2 then [⟨0, 8, .rw, (.num 200), 50, 210, true, false⟩]  -- PDP_Cn_SNK_VMAX
  else if at_ i 0x170d 0x200 2 then [⟨0, 9, .rw, (.num 300), 5, 300, true, false⟩]  -- PDP_Cn_SNK_I
  else if at_ i 0x170e 0x200 2 then [⟨0, 11, .rw, (.num 500), 165, 1050, true, false⟩]  -- PDP_Cn_SNK_PPS_V
  else if at_ i 0x170f 0x200 2 then [⟨0, 6, .rw, (.num 60), 1, 60, true, false⟩]  -- PDP_Cn_SNK_PPS_I
  else if at_ i 0x1710 0x200 2 then [⟨0, 4, .rw, (.num 8), 2, 9, true, false⟩]  -- PDP_Cn_KEEPALIVE
  else if at_ i 0x1711 0x200 2 then [⟨0, 7, .rw, (.num 10), 5, 100, true, false⟩]  -- PDP_Cn_WAIT_RETRY
  else if at_ i 0x1712 0x200 2 then [fp 12 4 .ro (.num 0) false, fp 0 8 .wo (.num 0) false]  -- PDP_Cn_CTL
  else if at_ i 0x1713 0x200 2 then [fp 0 11 .ro (.num 0) false]  -- PDP_Cn_CON_V
  else if at_ i 0x1714 0x200 2 then [fp 0 9 .ro (.num 0) false]  -- PDP_Cn_CON_I
  else if at_ i 0x1715 0x200 2 then [fp 0 10 .ro (.num 0) false]  -- PDP_Cn_BUDGET
  else if at_ i 0x1716 0x200 2 then [fp 0 2 .ro (.num 0) false]  -- PDP_Cn_FRS_I
  else if at_ i 0x1717 0x200 2 then [fp 0 8 .rc (.num 0) false]  -- PDP_Cn_HRESETS
  else []

/-- Bank 0x1A: R371 09. -/
def bank1A (i : Nat) : List Field :=
  if at_ i 0x1800 0x200 2 then [fp 0 16 .rw (.num 0) true]  -- PDP_Cn_VID
  else if at_ i 0x1801 0x200 2 then [fp 0 16 .rw (.num 0) true]  -- PDP_Cn_PID
  else []

/-- Bank 0x1B: R156 04. -/
def bank1B (i : Nat) : List Field :=
  if i == 0x1b00 then [fp 1 14 .ro (.num 0) false]  -- POE_STAT
  else if i == 0x1b01 then [⟨0, 10, .rw, (.num 0), 0, 999, false, false⟩]  -- POE_DLL_ALLOC
  else if i == 0x1b02 then [fp 0 10 .ro (.num 0) false]  -- POE_ALLOC
  else if i == 0x1b03 then [fp 0 10 .ro (.num 0) false]  -- POE_ILIM
  else if i == 0x1b04 then [fp 4 1 .rw (.num 1) true, fp 0 3 .rw (.num 3) true]  -- POE_CFG
  else []

/-- Bank 0x1C: R404 10. -/
def bank1C (i : Nat) : List Field :=
  if i == 0x1c00 then [fp 9 6 .ro (.num 0) false, fp 4 5 .ro (.num 0) false, fp 0 3 .ro (.num 0) false]  -- LNK_STAT
  else if i == 0x1c01 then [fp 8 3 .rw (.num 3) true, fp 4 4 .rw (.num 8) true, fp 1 1 .rw (.num 1) true, fp 0 1 .rw (.num 1) true]  -- LNK_CFG
  else if 0x1c02 ≤ i && i ≤ 0x1c04 then [fp 0 16 .ro (.num 0) false]  -- LNK_LEAD0-2
  else if i == 0x1c05 then [fp 0 8 .ro (.num 0) false]  -- LNK_BC
  else if i == 0x1c06 then [fp 8 5 .wo (.num 0) false, fp 0 8 .wo (.num 0) false]  -- LNK_DB_SEND
  else if i == 0x1c07 then [fp 0 4 .ro (.num 0) false]  -- LNK_TX_STAT
  else if i == 0x1c08 then [fp 0 8 .ro (.num 0) false]  -- LNK_RSSI
  else if i == 0x1c10 then [fp 0 16 .rc (.num 0) false]  -- LNK_CAPTURED
  else if i == 0x1c11 then [fp 0 16 .rc (.num 0) false]  -- LNK_CRC_ERR
  else if i == 0x1c12 then [fp 0 16 .rc (.num 0) false]  -- LNK_NOACK
  else if i == 0x1c13 then [fp 0 16 .rc (.num 0) false]  -- LNK_DB_DENIED
  else if i == 0x1c14 then [fp 0 16 .rc (.num 0) false]  -- LNK_BEACON_MISS
  else []

/-- Bank 0x1D: R404 10. -/
def bank1D (i : Nat) : List Field :=
  if 0x1d00 ≤ i && i ≤ 0x1d7f then [fp 0 16 .ro (.num 0) false]  -- LNK_Ma_ID0-2,INFO
  else []

/-- Bank 0x1E: R404 10. -/
def bank1E (i : Nat) : List Field :=
  if i == 0x1e00 then [fp 8 6 .ro (.num 63) false, fp 3 1 .ro (.num 0) false, fp 2 1 .ro (.num 0) false, fp 1 1 .ro (.num 0) false, fp 0 1 .ro (.num 0) false]  -- GTH_STAT
  else if i == 0x1e01 then [fp 2 1 .rw (.num 1) true, fp 1 1 .rw (.num 1) true, fp 0 1 .rw (.num 0) true]  -- GTH_CFG
  else if i == 0x1e02 then [⟨0, 6, .rw, (.num 20), 0, 60, true, false⟩]  -- GTH_OFFER_MAX
  else if i == 0x1e03 then [⟨0, 7, .rw, (.num 70), 0, 100, true, false⟩]  -- GTH_OFFER_SOC
  else if i == 0x1e04 then [⟨0, 7, .rw, (.num 10), 1, 100, true, false⟩]  -- GTH_DEMAND
  else if i == 0x1e05 then [fp 0 10 .rw (.num 90) true]  -- GTH_NEED_MIN
  else if i == 0x1e06 then [⟨0, 7, .rw, (.num 60), 1, 127, true, false⟩]  -- GTH_ZONE_MAX
  else if i == 0x1e07 then [fp 0 8 .ro (.num 0) false]  -- GTH_GRANT
  else if i == 0x1e08 then [fp 0 16 .ro (.num 0) false]  -- GTH_REPORT
  else []

/-- Bank 0x1F: R591 15. -/
def bank1F (i : Nat) : List Field :=
  if i == 0x1f00 then [fp 0 1 .rw (.num 1) false]  -- TLM_CTL
  else if 0x1f01 ≤ i && i ≤ 0x1f04 then [fp 0 16 .w1c (.num 0) false]  -- TLM_LIMIT_STAT0-3
  else if i == 0x1f05 then [fp 0 16 .rc (.num 0) false]  -- TLM_LATE_CNT
  else if i == 0x1f06 then [fp 0 14 .ro (.num 32) false]  -- TLM_LOAD
  else if i == 0x1f07 then [⟨8, 8, .rw, (.num 50), 10, 255, true, false⟩, ⟨0, 8, .rw, (.num 50), 10, 255, true, false⟩]  -- TLM_RCS
  else if i == 0x1f08 then [⟨0, 6, .rw, (.num 5), 1, 60, true, false⟩]  -- TLM_HIST_INTERVAL
  else if i == 0x1f09 then [fp 0 16 .ro (.num 0) false]  -- TLM_HIST_COUNT
  else if at_ i 0x1f10 0x4 4 then [fp 15 1 .wo (.num 0) false, fp 8 3 .rw (.num 0) false, fp 0 6 .rw (.num 0) false]  -- TLM_OSn_CTL
  else if at_ i 0x1f11 0x4 4 then [fp 4 4 .ro (.num 0) false, fp 1 1 .w1c (.num 0) false, fp 0 1 .ro (.num 0) false]  -- TLM_OSn_STAT
  else if at_ i 0x1f12 0x4 4 then [fp 0 16 .ro (.num 0) false]  -- TLM_OSn_RESULT
  else if at_ i 0x1f13 0x4 4 then [fp 0 16 .ro (.num 0) false]  -- TLM_OSn_SPREAD
  else []

/-- Bank 0x20: R591 15. -/
def bank20 (i : Nat) : List Field :=
  if 0x2000 ≤ i && i ≤ 0x2015 then [fp 15 1 .ro (.num 1) false, fp 12 3 .ro (.num 0) false, ⟨8, 4, .rw, (.num 0), 0, 8, false, false⟩, fp 7 1 .rw (.num 0) false, fp 6 1 .rw (.num 0) false, fp 0 6 .ro .fixedChannel false]  -- TLM_CFG_0-21
  else if 0x2016 ≤ i && i ≤ 0x203f then [fp 15 1 .rw (.num 0) false, fp 12 3 .rw (.num 0) false, ⟨8, 4, .rw, (.num 0), 0, 8, false, false⟩, fp 7 1 .rw (.num 0) false, fp 6 1 .rw (.num 0) false, fp 0 6 .rw (.num 0) false]  -- TLM_CFG_22-63
  else if 0x2040 ≤ i && i ≤ 0x2055 then [fp 0 12 .ro .fixedPeriod false]  -- TLM_PERIOD_0-21
  else if 0x2056 ≤ i && i ≤ 0x207f then [⟨0, 12, .rw, (.num 4), 1, 4095, false, false⟩]  -- TLM_PERIOD_22-63
  else if 0x2080 ≤ i && i ≤ 0x20bf then [fp 0 16 .rw (.num 0) false]  -- TLM_LIMHI_e
  else if 0x20c0 ≤ i && i ≤ 0x20ff then [fp 0 16 .rw (.num 0) false]  -- TLM_LIMLO_e
  else []

/-- Bank 0x21: R591 15. -/
def bank21 (i : Nat) : List Field :=
  if 0x2100 ≤ i && i ≤ 0x213f then [fp 0 16 .ro (.num 0) false]  -- TLM_LAST_e
  else []

/-- Bank 0x22: R591 15. -/
def bank22 (i : Nat) : List Field :=
  if i == 0x2200 then [fp 0 1 .wo (.num 0) false]  -- CAL_CTL
  else if i == 0x2201 then [fp 8 8 .ro (.num 0) false, fp 3 1 .ro (.num 0) false, fp 2 1 .ro (.num 0) false, fp 1 1 .ro (.num 1) false, fp 0 1 .ro (.num 0) false]  -- CAL_STAT
  else if i == 0x2202 then [⟨0, 6, .rw, (.num 10), 1, 60, true, false⟩]  -- CAL_PERIOD
  else if i == 0x2203 then [⟨0, 5, .rw, (.num 5), 1, 20, true, false⟩]  -- CAL_DTEMP
  else if i == 0x2204 then [⟨0, 8, .rw, (.num 24), 1, 168, true, false⟩]  -- CAL_OFS_MAX
  else if 0x2205 ≤ i && i ≤ 0x2206 then [fp 0 16 .ro (.num 0) false]  -- CAL_LAST0-1
  else if i == 0x2207 then [fp 0 16 .rc (.num 0) false]  -- CAL_PASSES
  else if i == 0x2208 then [fp 0 8 .ro (.num 0) false]  -- CAL_CLOCK_ERR
  else if 0x2210 ≤ i && i ≤ 0x2217 then [fp 0 16 .ro (.num 0) false]  -- CAL_OFS_s
  else if 0x2218 ≤ i && i ≤ 0x221f then [fp 0 16 .ro (.num 65535) false]  -- CAL_OFS_AGE_s
  else if 0x2220 ≤ i && i ≤ 0x2227 then [fp 0 16 .ro .fusedCal false]  -- CAL_GAIN_r,CAL_OFF_r
  else []

/-- Bank 0x24: R488 12. -/
def bank24 (i : Nat) : List Field :=
  if at_ i 0x2400 0x200 4 then [fp 0 16 .ro (.num 0) false]  -- AGTn_CLAIM
  else if at_ i 0x2401 0x200 4 then [fp 0 16 .ro (.num 0) false]  -- AGTn_CLAIM_INFO
  else if at_ i 0x2402 0x200 4 then [fp 0 16 .ro (.num 0) false]  -- AGTn_CLAIM_SEQ0
  else if at_ i 0x2403 0x200 4 then [fp 0 16 .ro (.num 0) false]  -- AGTn_CLAIM_SEQ1
  else if at_ i 0x2404 0x200 4 then [fp 0 16 .ro (.num 0) false]  -- AGTn_CLAIM_SEC0
  else if at_ i 0x2405 0x200 4 then [fp 0 16 .ro (.num 0) false]  -- AGTn_CLAIM_SEC1
  else if at_ i 0x2406 0x200 4 then [fp 0 16 .ro (.num 0) false]  -- AGTn_CLAIM_SUB
  else if at_ i 0x2408 0x200 4 then [fp 0 9 .wo (.num 0) false]  -- AGTn_COMPLETE
  else if at_ i 0x2409 0x200 4 then [fp 8 4 .rw (.num 0) false, fp 4 4 .rw (.num 15) false, fp 0 1 .rw (.num 1) false]  -- AGTn_CTL
  else if at_ i 0x240a 0x200 4 then [fp 0 4 .ro (.num 0) false]  -- AGTn_DEPTH
  else if at_ i 0x240b 0x200 4 then [fp 0 16 .rc (.num 0) false]  -- AGTn_FAULTS
  else []

/-- Bank 0x25: R488 12. -/
def bank25 (i : Nat) : List Field :=
  if 0x2500 ≤ i && i ≤ 0x2507 then [fp 0 16 .ro (.num 0) false]  -- AGT0_STACK_0-7
  else []

/-- Bank 0x26: R488 12. -/
def bank26 (i : Nat) : List Field :=
  if at_ i 0x2400 0x200 4 then [fp 0 16 .ro (.num 0) false]  -- AGTn_CLAIM
  else if at_ i 0x2401 0x200 4 then [fp 0 16 .ro (.num 0) false]  -- AGTn_CLAIM_INFO
  else if at_ i 0x2402 0x200 4 then [fp 0 16 .ro (.num 0) false]  -- AGTn_CLAIM_SEQ0
  else if at_ i 0x2403 0x200 4 then [fp 0 16 .ro (.num 0) false]  -- AGTn_CLAIM_SEQ1
  else if at_ i 0x2404 0x200 4 then [fp 0 16 .ro (.num 0) false]  -- AGTn_CLAIM_SEC0
  else if at_ i 0x2405 0x200 4 then [fp 0 16 .ro (.num 0) false]  -- AGTn_CLAIM_SEC1
  else if at_ i 0x2406 0x200 4 then [fp 0 16 .ro (.num 0) false]  -- AGTn_CLAIM_SUB
  else if at_ i 0x2408 0x200 4 then [fp 0 9 .wo (.num 0) false]  -- AGTn_COMPLETE
  else if at_ i 0x2409 0x200 4 then [fp 8 4 .rw (.num 0) false, fp 4 4 .rw (.num 15) false, fp 0 1 .rw (.num 1) false]  -- AGTn_CTL
  else if at_ i 0x240a 0x200 4 then [fp 0 4 .ro (.num 0) false]  -- AGTn_DEPTH
  else if at_ i 0x240b 0x200 4 then [fp 0 16 .rc (.num 0) false]  -- AGTn_FAULTS
  else []

/-- Bank 0x27: R488 12. -/
def bank27 (i : Nat) : List Field :=
  if 0x2700 ≤ i && i ≤ 0x2707 then [fp 0 16 .ro (.num 0) false]  -- AGT1_STACK_0-7
  else []

/-- Bank 0x28: R488 12. -/
def bank28 (i : Nat) : List Field :=
  if at_ i 0x2400 0x200 4 then [fp 0 16 .ro (.num 0) false]  -- AGTn_CLAIM
  else if at_ i 0x2401 0x200 4 then [fp 0 16 .ro (.num 0) false]  -- AGTn_CLAIM_INFO
  else if at_ i 0x2402 0x200 4 then [fp 0 16 .ro (.num 0) false]  -- AGTn_CLAIM_SEQ0
  else if at_ i 0x2403 0x200 4 then [fp 0 16 .ro (.num 0) false]  -- AGTn_CLAIM_SEQ1
  else if at_ i 0x2404 0x200 4 then [fp 0 16 .ro (.num 0) false]  -- AGTn_CLAIM_SEC0
  else if at_ i 0x2405 0x200 4 then [fp 0 16 .ro (.num 0) false]  -- AGTn_CLAIM_SEC1
  else if at_ i 0x2406 0x200 4 then [fp 0 16 .ro (.num 0) false]  -- AGTn_CLAIM_SUB
  else if at_ i 0x2408 0x200 4 then [fp 0 9 .wo (.num 0) false]  -- AGTn_COMPLETE
  else if at_ i 0x2409 0x200 4 then [fp 8 4 .rw (.num 0) false, fp 4 4 .rw (.num 15) false, fp 0 1 .rw (.num 1) false]  -- AGTn_CTL
  else if at_ i 0x240a 0x200 4 then [fp 0 4 .ro (.num 0) false]  -- AGTn_DEPTH
  else if at_ i 0x240b 0x200 4 then [fp 0 16 .rc (.num 0) false]  -- AGTn_FAULTS
  else []

/-- Bank 0x29: R488 12. -/
def bank29 (i : Nat) : List Field :=
  if 0x2900 ≤ i && i ≤ 0x2907 then [fp 0 16 .ro (.num 0) false]  -- AGT2_STACK_0-7
  else []

/-- Bank 0x2A: R488 12. -/
def bank2A (i : Nat) : List Field :=
  if at_ i 0x2400 0x200 4 then [fp 0 16 .ro (.num 0) false]  -- AGTn_CLAIM
  else if at_ i 0x2401 0x200 4 then [fp 0 16 .ro (.num 0) false]  -- AGTn_CLAIM_INFO
  else if at_ i 0x2402 0x200 4 then [fp 0 16 .ro (.num 0) false]  -- AGTn_CLAIM_SEQ0
  else if at_ i 0x2403 0x200 4 then [fp 0 16 .ro (.num 0) false]  -- AGTn_CLAIM_SEQ1
  else if at_ i 0x2404 0x200 4 then [fp 0 16 .ro (.num 0) false]  -- AGTn_CLAIM_SEC0
  else if at_ i 0x2405 0x200 4 then [fp 0 16 .ro (.num 0) false]  -- AGTn_CLAIM_SEC1
  else if at_ i 0x2406 0x200 4 then [fp 0 16 .ro (.num 0) false]  -- AGTn_CLAIM_SUB
  else if at_ i 0x2408 0x200 4 then [fp 0 9 .wo (.num 0) false]  -- AGTn_COMPLETE
  else if at_ i 0x2409 0x200 4 then [fp 8 4 .rw (.num 0) false, fp 4 4 .rw (.num 15) false, fp 0 1 .rw (.num 1) false]  -- AGTn_CTL
  else if at_ i 0x240a 0x200 4 then [fp 0 4 .ro (.num 0) false]  -- AGTn_DEPTH
  else if at_ i 0x240b 0x200 4 then [fp 0 16 .rc (.num 0) false]  -- AGTn_FAULTS
  else []

/-- Bank 0x2B: R488 12. -/
def bank2B (i : Nat) : List Field :=
  if 0x2b00 ≤ i && i ≤ 0x2b07 then [fp 0 16 .ro (.num 0) false]  -- AGT3_STACK_0-7
  else []

/-- The fields of the register at index i; none where no register is implemented (R11, R594). -/
def fieldsOf (i : Nat) : List Field :=
  match i / 256 with
  | 0 => bank00 i
  | 1 => bank01 i
  | 2 => bank02 i
  | 3 => bank03 i
  | 4 => bank04 i
  | 5 => bank05 i
  | 6 => bank06 i
  | 7 => bank07 i
  | 8 => bank08 i
  | 9 => bank09 i
  | 10 => bank0A i
  | 11 => bank0B i
  | 12 => bank0C i
  | 13 => bank0D i
  | 14 => bank0E i
  | 15 => bank0F i
  | 17 => bank11 i
  | 18 => bank12 i
  | 19 => bank13 i
  | 20 => bank14 i
  | 21 => bank15 i
  | 23 => bank17 i
  | 24 => bank18 i
  | 25 => bank19 i
  | 26 => bank1A i
  | 27 => bank1B i
  | 28 => bank1C i
  | 29 => bank1D i
  | 30 => bank1E i
  | 31 => bank1F i
  | 32 => bank20 i
  | 33 => bank21 i
  | 34 => bank22 i
  | 36 => bank24 i
  | 37 => bank25 i
  | 38 => bank26 i
  | 39 => bank27 i
  | 40 => bank28 i
  | 41 => bank29 i
  | 42 => bank2A i
  | 43 => bank2B i
  | _ => []

/-- An implemented register (R594). -/
def implemented (i : Nat) : Bool := !(fieldsOf i).isEmpty

/-- SYS_ID.PART (R44). -/
def Variant.partId : Variant → Nat
  | .qd6480 => 0x6480
  | .qd6472 => 0x6472
  | .qd6464 => 0x6464
  | .qd6440 => 0x6440

/-- SYS_UNITS (00, Variants). -/
def Variant.units : Variant → Nat
  | .qd6480 => 0x00FF
  | .qd6472 => 0x00F7
  | .qd6464 => 0x00F3
  | .qd6440 => 0x0031

def Variant.hasPort (v : Variant) : Port → Bool
  | .c1 => bit v.units 1
  | .c2 => bit v.units 2

def Variant.hasLink (v : Variant) : Bool := bit v.units 3

def Variant.hasChk (v : Variant) (u : UnitId) : Bool := bit v.units (4 + u.val)

/-- Cells of a CHEM code (R66). -/
def chemCells : Nat → Nat
  | 1 => 3 | 2 => 4 | 3 => 5 | 4 => 6 | 5 => 4 | 6 => 5 | 7 => 6 | 8 => 7 | 9 => 8 | _ => 0

/-- Chemistry type of a CHEM code: 0 none, 1 Li-ion, 2 LiFePO4 (R66, R251). -/
def chemType (c : Nat) : Nat := if c == 0 then 0 else if c ≤ 4 then 1 else 2

/-- VSYS target of a VSAFE code, in 20 mV units (R66, R156). -/
def vsafeTarget : Nat → Nat
  | 1 => 700 | 2 => 800 | 3 => 900 | 4 => 1000 | 5 => 1200 | 6 => 1400 | 7 => 1500 | _ => 600

/-- CHG_VCHG default in 10 mV units (06, Chemistry defaults). -/
def vchgDefault (typ cells : Nat) : Nat := if typ == 1 then cells * 420 else if typ == 2 then cells * 360 else 0

/-- The per-cell defaults of a chemistry (06, 07): precharge, recovery, recharge, warning, cutoff, test floor. -/
def vpreDefault (typ : Nat) : Nat := if typ == 2 then 280 else 300
def vrecovDefault (typ : Nat) : Nat := if typ == 2 then 200 else 250
def vrechgDefault (typ : Nat) : Nat := if typ == 2 then 30 else 10
def emgWarnDefault (typ : Nat) : Nat := if typ == 2 then 295 else 340
def emgCutDefault (typ : Nat) : Nat := if typ == 2 then 260 else 310
def emgAbortDefault (typ : Nat) : Nat := if typ == 2 then 285 else 330

/-- The channel of fixed schedule entry e (15, Fixed entries). -/
def fixedChannel (e : Nat) : Nat :=
  match e with
  | 0 => 0 | 1 => 1 | 2 => 2 | 3 => 3 | 4 => 7 | 5 => 4 | 6 => 6 | 7 => 8 | 8 => 13 | 9 => 14 | 10 => 15
  | 19 => 26 | 20 => 5 | 21 => 27 | e => e + 5

/-- The period of fixed entry e in 0.25 ms. -/
def fixedPeriod (e : Nat) : Nat := if e == 0 then 4 else if e == 19 || e == 20 then 400 else 40

/-- SYS_STRAPS (R69). -/
def strapsWord (st : Straps) : Nat := b2n st.bad * 2 ^ 15 + st.chem * 2 ^ 8 + st.vsafe * 2 ^ 4 + st.adr

/-- The value a reset source gives the register at index i. -/
def srcValue (p : Part) (st : Straps) (i : Nat) : Src → Nat
  | .num n => n
  | .partId => p.variant.partId
  | .unitsWord => p.variant.units
  | .strapWord => strapsWord st
  | .uidWord => bits p.uid.toNat (16 * (i - 4)) 16
  | .vsafeReset => vsafeTarget st.vsafe
  | .chgEnReset => if st.chem == 0 then 0 else 1
  | .chemTypeReset => chemType st.chem
  | .chemCellsReset => chemCells st.chem
  | .vchgReset => vchgDefault (chemType st.chem) (chemCells st.chem)
  | .vrecovReset => vrecovDefault (chemType st.chem)
  | .vpreReset => vpreDefault (chemType st.chem)
  | .vrechgReset => vrechgDefault (chemType st.chem)
  | .emgWarnReset => emgWarnDefault (chemType st.chem)
  | .emgCutReset => emgCutDefault (chemType st.chem)
  | .emgAbortReset => emgAbortDefault (chemType st.chem)
  | .fixedChannel => fixedChannel (i - 0x2000)
  | .fixedPeriod => fixedPeriod (i - 0x2040)
  | .fusedCal =>
    let r : Fin 4 := if i < 0x2222 then 0 else if i < 0x2224 then 1 else if i < 0x2226 then 2 else 3
    if i % 2 == 0 then (p.calGain.get r).toNat else (p.calOff.get r).toNat

/-- The reset value of SER_AGTn_NOTIFY and the rest: fields summed at their places (R595). Routes 40 to 43 read their
fixed values (R467); CHK_u_STAT and RING registers read through views. -/
def resetNat (p : Part) (st : Straps) (i : Nat) : Nat :=
  if 0x228 ≤ i && i ≤ 0x22B then 0x81F0 + 2 ^ (i - 0x228)
  else ((fieldsOf i).map fun f => srcValue p st i f.reset % 2 ^ f.width * 2 ^ f.lsb).sum

def resetWord (p : Part) (st : Straps) (i : Nat) : Word := BitVec.ofNat 16 (resetNat p st i)

/-- The register belongs to a unit the variant lacks (R36, R128; 01, What an absent unit takes with it). -/
def absentReg (v : Variant) (i : Nat) : Bool :=
  (!v.hasPort .c1 && (0x1700 ≤ i && i < 0x1900 || 0x1100 ≤ i && i < 0x1180 || i == 0x1507 || i == 0x150B))
  || (!v.hasPort .c2 && (0x1900 ≤ i && i < 0x1B00 || 0x1180 ≤ i && i < 0x1200 || i == 0x1508 || i == 0x150C))
  || (!v.hasLink && 0x1C00 ≤ i && i < 0x1F00)
  || (!v.hasChk 2 && 0x860 ≤ i && i < 0x890)
  || (!v.hasChk 3 && 0x890 ≤ i && i < 0x8C0)

/-- The bits of a PTH register that belong to an absent port (R128). -/
def absentBits (v : Variant) (i : Nat) : Nat :=
  if i == 0x1501 then b2n (!v.hasPort .c1) * 4 + b2n (!v.hasPort .c2) * 8
  else if i == 0x1502 then b2n (!v.hasPort .c1) * 0x30 + b2n (!v.hasPort .c2) * 0xC0
  else 0

/-- w without the bits of mask m. -/
def clearBits (w m : Nat) : Nat := w - (w &&& m)

/-- The field's value in word w. -/
def Field.get (f : Field) (w : Nat) : Nat := bits w f.lsb f.width

/-- w with the field's bits replaced by v. -/
def putBits (w lsb width v : Nat) : Nat := w - bits w lsb width * 2 ^ lsb + v % 2 ^ width * 2 ^ lsb

/-- A two's-complement reading of the low `width` bits. -/
def signedOf (v width : Nat) : Int := if v % 2 ^ width ≥ 2 ^ (width - 1) then (v % 2 ^ width : Nat) - (2 ^ width : Nat) else (v % 2 ^ width : Nat)

/-- A number as `width` two's-complement bits. -/
def bitsOf (v : Int) (width : Nat) : Nat := (v % (2 ^ width : Nat)).toNat

/-- R12: the nearest end of the range lo to hi. -/
def clampTo (lo hi v : Int) : Int := if v < lo then lo else if hi < v then hi else v

/-- What a write of v to the field stores, narrowed by a hard limit when there is one (R12, R111). -/
def Field.clamp (f : Field) (v : Nat) : Nat :=
  let x : Int := if f.signed then signedOf v f.width else (v % 2 ^ f.width : Nat)
  bitsOf (clampTo f.lo f.hi x) f.width

/-- R6: what a write of v makes of the stored word, field by field. -/
def storeFields (fs : List Field) (old v : Nat) : Nat :=
  fs.foldl (fun w f =>
    match f.kind with
    | .rw => putBits w f.lsb f.width (f.clamp (f.get v))
    | .w1c => putBits w f.lsb f.width (clearBits (f.get w) (f.get v))
    | _ => w) old

/-- The same for a pair of the configuration bank: only RW fields, and only those `keep` admits (R545, R596). -/
def storeBoot (fs : List Field) (keep : Field → Bool) (old v : Nat) : Nat :=
  fs.foldl (fun w f => if f.kind == .rw && keep f then putBits w f.lsb f.width (f.clamp (f.get v)) else w) old

/-- R8: at a boot a field keeps its value only when retained. -/
def bootFields (fs : List Field) (rst old : Nat) : Nat :=
  fs.foldl (fun w f => if f.retained then putBits w f.lsb f.width (f.get old) else w) rst

/-! Names of the window indexes the meanings use. -/
namespace Reg
abbrev sysId : Nat := 0x0
abbrev sysRev : Nat := 0x1
abbrev sysUnits : Nat := 0x2
abbrev sysStraps : Nat := 0x3
abbrev sysUid : Nat := 0x4
abbrev sysPower : Nat := 0x8
abbrev sysBoot : Nat := 0x9
abbrev sysRights : Nat := 0x40
abbrev sysPecreq : Nat := 0x60
abbrev sysLimChgv : Nat := 0x64
abbrev sysLimChgi : Nat := 0x65
abbrev sysLimVsyslo : Nat := 0x66
abbrev sysLimVsyshi : Nat := 0x67
abbrev sysLimMisc : Nat := 0x68
abbrev sysLimPort : Nat := 0x69
abbrev sysDballow : Nat := 0x6a
abbrev kprWakeCause : Nat := 0x80
abbrev kprWakeFails : Nat := 0x81
abbrev kprCfg : Nat := 0x82
abbrev kprStat : Nat := 0x83
abbrev kprRtc : Nat := 0x84
abbrev kprAlarm : Nat := 0x86
abbrev kprRet : Nat := 0x88
abbrev kprWatch : Nat := 0x90
abbrev kprWatchHit : Nat := 0xb0
abbrev serCfg : Nat := 0x100
abbrev serRepeat : Nat := 0x101
abbrev serPending : Nat := 0x102
abbrev serTimeouts : Nat := 0x103
abbrev serBusErrs : Nat := 0x104
abbrev serAgtCfg (n : Nat) : Nat := 0x110 + 0x10 * n
abbrev serAgtNotify (n : Nat) : Nat := 0x111 + 0x10 * n
abbrev serAgtAttn (n : Nat) : Nat := 0x112 + 0x10 * n
abbrev serAgtStat (n : Nat) : Nat := 0x113 + 0x10 * n
abbrev serAgtDenyIdx (n : Nat) : Nat := 0x114 + 0x10 * n
abbrev serAgtPecerrs (n : Nat) : Nat := 0x115 + 0x10 * n
abbrev serAgtPtr (n : Nat) : Nat := 0x116 + 0x10 * n
abbrev serAgtSummary (n : Nat) : Nat := 0x117 + 0x10 * n
abbrev evtRouteX : Nat := 0x200
abbrev evtDoorbell : Nat := 0x400
abbrev evtSeq : Nat := 0x402
abbrev evtUnrouted : Nat := 0x404
abbrev evtMerged : Nat := 0x405
abbrev evtOpen : Nat := 0x408
abbrev coalCount (g : Nat) : Nat := 0x500 + 2 * g
abbrev coalTime (g : Nat) : Nat := 0x501 + 2 * g
abbrev ringSel : Nat := 0x600
abbrev ringAddr : Nat := 0x601
abbrev ringResult : Nat := 0x602
abbrev ringCfg : Nat := 0x603
abbrev ringBase : Nat := 0x604
abbrev ringMode : Nat := 0x605
abbrev ringWmark : Nat := 0x606
abbrev ringCount : Nat := 0x607
abbrev ringDrops : Nat := 0x608
abbrev ringData : Nat := 0x610
abbrev ringNonempty : Nat := 0x620
abbrev ringOvf : Nat := 0x630
abbrev ringEccCorr : Nat := 0x640
abbrev ringEccUncorr : Nat := 0x641
abbrev ringEccAddr : Nat := 0x642
abbrev ringXCount : Nat := 0x700
abbrev chkStat (n : Nat) : Nat := 0x800 + 0x30 * n
abbrev chkAcc0 (n : Nat) : Nat := 0x802 + 0x30 * n
abbrev chkAcc1 (n : Nat) : Nat := 0x803 + 0x30 * n
abbrev chkJobs (n : Nat) : Nat := 0x804 + 0x30 * n
abbrev chkRepeats (n : Nat) : Nat := 0x805 + 0x30 * n
abbrev chk0CtxSH : Nat := 0x810
abbrev chk1CtxSH : Nat := 0x840
abbrev chk2CtxSH : Nat := 0x870
abbrev chk3CtxSH : Nat := 0x8a0
abbrev chkPsetCfg (n : Nat) : Nat := 0x8c0 + 0x8 * n
abbrev chkPsetPoly0 (n : Nat) : Nat := 0x8c1 + 0x8 * n
abbrev chkPsetPoly1 (n : Nat) : Nat := 0x8c2 + 0x8 * n
abbrev chkPsetInit0 (n : Nat) : Nat := 0x8c3 + 0x8 * n
abbrev chkPsetInit1 (n : Nat) : Nat := 0x8c4 + 0x8 * n
abbrev chkPsetXor0 (n : Nat) : Nat := 0x8c5 + 0x8 * n
abbrev chkPsetXor1 (n : Nat) : Nat := 0x8c6 + 0x8 * n
abbrev tkrStat : Nat := 0x900
abbrev tkrSpare : Nat := 0x901
abbrev tkrRetired : Nat := 0x902
abbrev tkrJrnSerial : Nat := 0x903
abbrev tkrSealNo : Nat := 0x905
abbrev tkrQueue : Nat := 0x907
abbrev tkrEccCorr : Nat := 0x908
abbrev tkrEccUncorr : Nat := 0x909
abbrev tkrUncorrAddr : Nat := 0x90a
abbrev tkrScrub : Nat := 0x90c
abbrev tkrImg : Nat := 0x90d
abbrev tkrBlkSel : Nat := 0xa00
abbrev tkrBlkMap : Nat := 0xa01
abbrev tkrBlkErases : Nat := 0xa02
abbrev wdgCfg : Nat := 0xb00
abbrev wdgStat : Nat := 0xb01
abbrev bgFloorA : Nat := 0xb10
abbrev bgLate : Nat := 0xb18
abbrev bgProgA : Nat := 0xb20
abbrev seqStat : Nat := 0xc00
abbrev seqCtl : Nat := 0xc01
abbrev seqCfg : Nat := 0xc02
abbrev seqEn : Nat := 0xc03
abbrev seqPg : Nat := 0xc04
abbrev seqDisch : Nat := 0xc05
abbrev railStart (n : Nat) : Nat := 0xd00 + 0x10 * n
abbrev railRise (n : Nat) : Nat := 0xd01 + 0x10 * n
abbrev railDisMax (n : Nat) : Nat := 0xd02 + 0x10 * n
abbrev railDgl (n : Nat) : Nat := 0xd03 + 0x10 * n
abbrev railFaultHi (n : Nat) : Nat := 0xd04 + 0x10 * n
abbrev railWarnHi (n : Nat) : Nat := 0xd05 + 0x10 * n
abbrev railWarnLo (n : Nat) : Nat := 0xd06 + 0x10 * n
abbrev railFaultLo (n : Nat) : Nat := 0xd07 + 0x10 * n
abbrev railDisch (n : Nat) : Nat := 0xd08 + 0x10 * n
abbrev railSns (n : Nat) : Nat := 0xd09 + 0x10 * n
abbrev railStat (n : Nat) : Nat := 0xd0a + 0x10 * n
abbrev cnvStat : Nat := 0xe00
abbrev cnvCtl : Nat := 0xe01
abbrev cnvCfg : Nat := 0xe02
abbrev cnvComp : Nat := 0xe03
abbrev cnvIlim : Nat := 0xe04
abbrev cnvIlimEff : Nat := 0xe05
abbrev cnvSlew : Nat := 0xe06
abbrev cnvVsysTgt : Nat := 0xe07
abbrev cnvShedDwell : Nat := 0xe08
abbrev cnvShedAdd1 : Nat := 0xe09
abbrev cnvShedAdd2 : Nat := 0xe0a
abbrev cnvShedAdd3 : Nat := 0xe0b
abbrev cnvShedDrop2 : Nat := 0xe0c
abbrev cnvShedDrop3 : Nat := 0xe0d
abbrev cnvShedDrop4 : Nat := 0xe0e
abbrev cnvSkip : Nat := 0xe0f
abbrev cnvRevImax : Nat := 0xe10
abbrev cnvRevVmax : Nat := 0xe11
abbrev cnvRevI : Nat := 0xe12
abbrev cnvPCinch (n : Nat) : Nat := 0xf00 + 0x10 * n
abbrev cnvPStat (n : Nat) : Nat := 0xf01 + 0x10 * n
abbrev cnvPCinchCnt (n : Nat) : Nat := 0xf02 + 0x10 * n
abbrev cnvXStat (n : Nat) : Nat := 0x1100 + 0x80 * n
abbrev cnvXCfg (n : Nat) : Nat := 0x1101 + 0x80 * n
abbrev cnvXCinch (n : Nat) : Nat := 0x1102 + 0x80 * n
abbrev cnvXComp (n : Nat) : Nat := 0x1103 + 0x80 * n
abbrev cnvXVtgt (n : Nat) : Nat := 0x1104 + 0x80 * n
abbrev cnvXIlim (n : Nat) : Nat := 0x1105 + 0x80 * n
abbrev cnvXCtl (n : Nat) : Nat := 0x1106 + 0x80 * n
abbrev cnvXCinchCnt (n : Nat) : Nat := 0x1107 + 0x80 * n
abbrev chgStat : Nat := 0x1200
abbrev chgCtl : Nat := 0x1201
abbrev chgChem : Nat := 0x1202
abbrev chgVchg : Nat := 0x1203
abbrev chgIchg : Nat := 0x1204
abbrev chgIpre : Nat := 0x1205
abbrev chgIrecov : Nat := 0x1206
abbrev chgIterm : Nat := 0x1207
abbrev chgVrecov : Nat := 0x1208
abbrev chgVpre : Nat := 0x1209
abbrev chgVrechg : Nat := 0x120a
abbrev chgTterm : Nat := 0x120b
abbrev chgTpre : Nat := 0x120c
abbrev chgTrecov : Nat := 0x120d
abbrev chgTsafe : Nat := 0x120e
abbrev chgPlin : Nat := 0x120f
abbrev chgFault : Nat := 0x1210
abbrev chgNtc : Nat := 0x1220
abbrev chgTCold : Nat := 0x1221
abbrev chgTCool : Nat := 0x1222
abbrev chgTWarm : Nat := 0x1223
abbrev chgTHot : Nat := 0x1224
abbrev chgTboard : Nat := 0x1225
abbrev chgZoneCool : Nat := 0x1226
abbrev chgZoneNormal : Nat := 0x1227
abbrev chgZoneWarm : Nat := 0x1228
abbrev chgTemp : Nat := 0x1229
abbrev chgQacc : Nat := 0x1300
abbrev chgQrem : Nat := 0x1302
abbrev chgCapL : Nat := 0x1303
abbrev chgCapNom : Nat := 0x1304
abbrev chgSoc : Nat := 0x1305
abbrev chgReserveMin : Nat := 0x1306
abbrev chgIref : Nat := 0x1307
abbrev chgReserveWarn : Nat := 0x1308
abbrev chgIbat : Nat := 0x1309
abbrev chgVbat : Nat := 0x130a
abbrev emgStat : Nat := 0x1400
abbrev emgCtl : Nat := 0x1401
abbrev emgWarn : Nat := 0x1402
abbrev emgCutoff : Nat := 0x1403
abbrev emgTestAbort : Nat := 0x1404
abbrev emgFnLen : Nat := 0x1405
abbrev emgDurLen : Nat := 0x1406
abbrev emgFnNext : Nat := 0x1408
abbrev emgDurNext : Nat := 0x140a
abbrev emgFnPeriod : Nat := 0x140c
abbrev emgDurPeriod : Nat := 0x140d
abbrev emgDeferMax : Nat := 0x140e
abbrev emgRetry : Nat := 0x140f
abbrev emgElapsed : Nat := 0x1410
abbrev emgSerial : Nat := 0x1411
abbrev pthStat : Nat := 0x1500
abbrev pthEn : Nat := 0x1501
abbrev pthPrio : Nat := 0x1502
abbrev pthReturn : Nat := 0x1503
abbrev pthQual : Nat := 0x1504
abbrev pthIlimPoe : Nat := 0x1505
abbrev pthIlimAux : Nat := 0x1506
abbrev pthIlimC1 : Nat := 0x1507
abbrev pthIlimC2 : Nat := 0x1508
abbrev pthVfloorPoe : Nat := 0x1509
abbrev pthVfloorAux : Nat := 0x150a
abbrev pthVfloorC1 : Nat := 0x150b
abbrev pthVfloorC2 : Nat := 0x150c
abbrev pthVsysMin : Nat := 0x150d
abbrev pthVhead : Nat := 0x150e
abbrev pthTakeovers : Nat := 0x150f
abbrev pdpStat (n : Nat) : Nat := 0x1700 + 0x200 * n
abbrev pdpCfg (n : Nat) : Nat := 0x1701 + 0x200 * n
abbrev pdpRole (n : Nat) : Nat := 0x1702 + 0x200 * n
abbrev pdpDrp (n : Nat) : Nat := 0x1703 + 0x200 * n
abbrev pdpSrcI5 (n : Nat) : Nat := 0x1704 + 0x200 * n
abbrev pdpSrcI9 (n : Nat) : Nat := 0x1705 + 0x200 * n
abbrev pdpSrcI15 (n : Nat) : Nat := 0x1706 + 0x200 * n
abbrev pdpSrcI20 (n : Nat) : Nat := 0x1707 + 0x200 * n
abbrev pdpSrcIpps (n : Nat) : Nat := 0x1708 + 0x200 * n
abbrev pdpPpsVmin (n : Nat) : Nat := 0x1709 + 0x200 * n
abbrev pdpPpsVmax (n : Nat) : Nat := 0x170a + 0x200 * n
abbrev pdpSnkVmin (n : Nat) : Nat := 0x170b + 0x200 * n
abbrev pdpSnkVmax (n : Nat) : Nat := 0x170c + 0x200 * n
abbrev pdpSnkI (n : Nat) : Nat := 0x170d + 0x200 * n
abbrev pdpSnkPpsV (n : Nat) : Nat := 0x170e + 0x200 * n
abbrev pdpSnkPpsI (n : Nat) : Nat := 0x170f + 0x200 * n
abbrev pdpKeepalive (n : Nat) : Nat := 0x1710 + 0x200 * n
abbrev pdpWaitRetry (n : Nat) : Nat := 0x1711 + 0x200 * n
abbrev pdpCtl (n : Nat) : Nat := 0x1712 + 0x200 * n
abbrev pdpConV (n : Nat) : Nat := 0x1713 + 0x200 * n
abbrev pdpConI (n : Nat) : Nat := 0x1714 + 0x200 * n
abbrev pdpBudget (n : Nat) : Nat := 0x1715 + 0x200 * n
abbrev pdpFrsI (n : Nat) : Nat := 0x1716 + 0x200 * n
abbrev pdpHresets (n : Nat) : Nat := 0x1717 + 0x200 * n
abbrev pdpVid (n : Nat) : Nat := 0x1800 + 0x200 * n
abbrev pdpPid (n : Nat) : Nat := 0x1801 + 0x200 * n
abbrev poeStat : Nat := 0x1b00
abbrev poeDllAlloc : Nat := 0x1b01
abbrev poeAlloc : Nat := 0x1b02
abbrev poeIlim : Nat := 0x1b03
abbrev poeCfg : Nat := 0x1b04
abbrev lnkStat : Nat := 0x1c00
abbrev lnkCfg : Nat := 0x1c01
abbrev lnkLead : Nat := 0x1c02
abbrev lnkBc : Nat := 0x1c05
abbrev lnkDbSend : Nat := 0x1c06
abbrev lnkTxStat : Nat := 0x1c07
abbrev lnkRssi : Nat := 0x1c08
abbrev lnkCaptured : Nat := 0x1c10
abbrev lnkCrcErr : Nat := 0x1c11
abbrev lnkNoack : Nat := 0x1c12
abbrev lnkDbDenied : Nat := 0x1c13
abbrev lnkBeaconMiss : Nat := 0x1c14
abbrev lnkMember : Nat := 0x1d00
abbrev gthStat : Nat := 0x1e00
abbrev gthCfg : Nat := 0x1e01
abbrev gthOfferMax : Nat := 0x1e02
abbrev gthOfferSoc : Nat := 0x1e03
abbrev gthDemand : Nat := 0x1e04
abbrev gthNeedMin : Nat := 0x1e05
abbrev gthZoneMax : Nat := 0x1e06
abbrev gthGrant : Nat := 0x1e07
abbrev gthReport : Nat := 0x1e08
abbrev tlmCtl : Nat := 0x1f00
abbrev tlmLimitStat : Nat := 0x1f01
abbrev tlmLateCnt : Nat := 0x1f05
abbrev tlmLoad : Nat := 0x1f06
abbrev tlmRcs : Nat := 0x1f07
abbrev tlmHistInterval : Nat := 0x1f08
abbrev tlmHistCount : Nat := 0x1f09
abbrev tlmOsCtl (n : Nat) : Nat := 0x1f10 + 0x4 * n
abbrev tlmOsStat (n : Nat) : Nat := 0x1f11 + 0x4 * n
abbrev tlmOsResult (n : Nat) : Nat := 0x1f12 + 0x4 * n
abbrev tlmOsSpread (n : Nat) : Nat := 0x1f13 + 0x4 * n
abbrev tlmCfg : Nat := 0x2000
abbrev tlmPeriod : Nat := 0x2040
abbrev tlmLimhiE : Nat := 0x2080
abbrev tlmLimloE : Nat := 0x20c0
abbrev tlmLastE : Nat := 0x2100
abbrev calCtl : Nat := 0x2200
abbrev calStat : Nat := 0x2201
abbrev calPeriod : Nat := 0x2202
abbrev calDtemp : Nat := 0x2203
abbrev calOfsMax : Nat := 0x2204
abbrev calLast : Nat := 0x2205
abbrev calPasses : Nat := 0x2207
abbrev calClockErr : Nat := 0x2208
abbrev calOfsS : Nat := 0x2210
abbrev calOfsAgeS : Nat := 0x2218
abbrev calCoef : Nat := 0x2220
abbrev agtClaim (n : Nat) : Nat := 0x2400 + 0x200 * n
abbrev agtClaimInfo (n : Nat) : Nat := 0x2401 + 0x200 * n
abbrev agtClaimSeq0 (n : Nat) : Nat := 0x2402 + 0x200 * n
abbrev agtClaimSeq1 (n : Nat) : Nat := 0x2403 + 0x200 * n
abbrev agtClaimSec0 (n : Nat) : Nat := 0x2404 + 0x200 * n
abbrev agtClaimSec1 (n : Nat) : Nat := 0x2405 + 0x200 * n
abbrev agtClaimSub (n : Nat) : Nat := 0x2406 + 0x200 * n
abbrev agtComplete (n : Nat) : Nat := 0x2408 + 0x200 * n
abbrev agtCtl (n : Nat) : Nat := 0x2409 + 0x200 * n
abbrev agtDepth (n : Nat) : Nat := 0x240a + 0x200 * n
abbrev agtFaults (n : Nat) : Nat := 0x240b + 0x200 * n
abbrev agt0Stack : Nat := 0x2500
abbrev agt1Stack : Nat := 0x2700
abbrev agt2Stack : Nat := 0x2900
abbrev agt3Stack : Nat := 0x2b00
abbrev evtRoute (x : Nat) : Nat := 0x200 + x
abbrev sysRightsOf (a w : Nat) : Nat := 0x40 + 8 * a + w
abbrev chkCtx (u s : Nat) : Nat := 0x810 + 0x30 * u + 2 * s
end Reg

end Sys2Proof.Machine
end

