-- ==== Sys2Proof/Machine/Ops.lean ====
section
/-! DEFINITION. Sparse tables, registers and their fields, little-endian bytes, and the queries every unit makes of the
state. -/

namespace Sys2Proof.Machine

/-! Sparse tables in canonical form. -/

/-- What key k reads as, with d for keys not listed. -/
def SMap.get {α : Type} (d : Nat → α) : SMap α → Nat → α
  | [], k => d k
  | (j, v) :: m, k => if k = j then v else SMap.get d m k

/-- (k, v) at its place in a rising table. -/
def SMap.place {α : Type} : SMap α → Nat → α → SMap α
  | [], k, v => [(k, v)]
  | (j, w) :: m, k, v => if k < j then (k, v) :: (j, w) :: m else (j, w) :: SMap.place m k v

/-- k written with v: what was at k goes, and v is listed where it differs from what an unlisted key reads as. -/
def SMap.set {α : Type} [DecidableEq α] (d : Nat → α) (m : SMap α) (k : Nat) (v : α) : SMap α :=
  let rest := m.filter (·.1 != k)
  if v = d k then rest else SMap.place rest k v

/-- Keys above `lo` rising, no default entry: the tail form of the canonical form. -/
def SMap.wfFrom {α : Type} [DecidableEq α] (d : Nat → α) : Option Nat → SMap α → Bool
  | _, [] => true
  | lo, (k, v) :: m => (match lo with | none => true | some l => decide (l < k)) && decide (v ≠ d k) && SMap.wfFrom d (some k) m

/-- The canonical form: keys strictly rising, no entry equal to what an unlisted key reads as. -/
def SMap.wf {α : Type} [DecidableEq α] (d : Nat → α) (m : SMap α) : Bool := SMap.wfFrom d none m

/-- What a byte of ring SRAM that nothing has written reads as (log 5). -/
def sramDefault (_ : Nat) : Byte := 0

/-- An erased byte of the store (log 6). -/
def eraseByte (_ : Nat) : Byte := 0xFF

/-- The two addressed memories, each a table of bytes. -/
def Memory.wf (d : Nat → Byte) (m : SMap Byte) : Bool := SMap.wf d m

/-- n bytes written from address a. -/
def Memory.write (d : Nat → Byte) (m : SMap Byte) (a : Nat) : List Byte → SMap Byte
  | [] => m
  | b :: bs => Memory.write d (SMap.set d m a b) (a + 1) bs

/-- n bytes read from address a. -/
def Memory.read (d : Nat → Byte) (m : SMap Byte) (a n : Nat) : List Byte := (List.range n).map fun i => SMap.get d m (a + i)

/-! Little-endian bytes (R639). -/

/-- The n low bytes of v, least significant first. -/
def leBytes (n v : Nat) : List Byte := (List.range n).map fun i => BitVec.ofNat 8 (v / 256 ^ i)

/-- The number a little-endian byte string spells. -/
def leNat : List Byte → Nat
  | [] => 0
  | b :: bs => b.toNat + 256 * leNat bs

/-- The number a most-significant-first byte string spells. -/
def beNat (bs : List Byte) : Nat := leNat bs.reverse

/-- n bytes of xs from offset a, short where xs ends. -/
def slice (xs : List Byte) (a n : Nat) : List Byte := (xs.drop a).take n

/-- xs cut or zero-filled to n bytes. -/
def padTo (n : Nat) (xs : List Byte) : List Byte := (xs ++ List.replicate n 0).take n

/-- v + n, saturating at cap. -/
def satAdd (cap v n : Nat) : Nat := min cap (v + n)

/-! Members of the small families. -/

end Sys2Proof.Machine

namespace Sys2Proof

def InputId.ix : InputId → Fin 4
  | .poe => 0
  | .aux => 1
  | .c1 => 2
  | .c2 => 3

def InputId.all : List InputId := [.poe, .aux, .c1, .c2]

def Port.ix : Port → Nat
  | .c1 => 0
  | .c2 => 1

def Port.input : Port → InputId
  | .c1 => .c1
  | .c2 => .c2

def Port.other : Port → Port
  | .c1 => .c2
  | .c2 => .c1

def Two.get {α : Type} (t : Two α) : Port → α
  | .c1 => t.p1
  | .c2 => t.p2

def Two.set {α : Type} (t : Two α) (p : Port) (v : α) : Two α :=
  match p with
  | .c1 => { t with p1 := v }
  | .c2 => { t with p2 := v }

def fin4 : List (Fin 4) := [0, 1, 2, 3]
def fin8 : List (Fin 8) := [0, 1, 2, 3, 4, 5, 6, 7]

/-- An Eight of Bools as bits, rail 1 in bit 0. -/
def Eight.toNat (e : Eight Bool) : Nat := (fin8.map fun k => b2n (e.get k) * 2 ^ k.val).sum

def Four.toNat (f : Four Bool) : Nat := (fin4.map fun k => b2n (f.get k) * 2 ^ k.val).sum

def Eight.ofNat (n : Nat) : Eight Bool := ⟨bit n 0, bit n 1, bit n 2, bit n 3, bit n 4, bit n 5, bit n 6, bit n 7⟩

end Sys2Proof

namespace Sys2Proof.Machine

/-! Registers. -/

/-- The stored value of the register at index i. -/
def State.reg (s : State) (i : Nat) : Nat := (SMap.get (resetWord s.part s.straps) s.regs i).toNat

/-- The register at index i stored. -/
def State.setReg (s : State) (i v : Nat) : State :=
  { s with regs := SMap.set (resetWord s.part s.straps) s.regs i (BitVec.ofNat 16 v) }

/-- Bits [lsb + w - 1 : lsb] of the register at index i. -/
def State.fld (s : State) (i lsb w : Nat) : Nat := bits (s.reg i) lsb w

/-- The same bits stored. -/
def State.setFld (s : State) (i lsb w v : Nat) : State := s.setReg i (putBits (s.reg i) lsb w v)

def State.flag (s : State) (i b : Nat) : Bool := bit (s.reg i) b

def State.setFlag (s : State) (i b : Nat) (v : Bool) : State := s.setFld i b 1 (b2n v)

/-- A 32-bit pair, low half at i (R598). -/
def State.reg32 (s : State) (i : Nat) : Nat := s.reg i + 65536 * s.reg (i + 1)

def State.setReg32 (s : State) (i v : Nat) : State := (s.setReg i v).setReg (i + 1) (v / 65536)

/-- A saturating counter. -/
def State.bump (s : State) (i n : Nat) : State := s.setReg i (satAdd 65535 (s.reg i) n)

/-- An 8-bit saturating counter. -/
def State.bump8 (s : State) (i : Nat) : State := s.setReg i (satAdd 255 (s.reg i) 1)

/-- Apply f when c holds. -/
def State.when (s : State) (c : Bool) (f : State → State) : State := if c then f s else s

/-! Questions about the whole node. -/

def State.active (s : State) : Bool := s.mode == .active

/-- The real-time-clock seconds. -/
def State.rtc (s : State) : Nat := s.reg32 Reg.kprRtc

/-- The RTC seconds a record carries: 0 while TIME_VALID is 0. -/
def State.rtcValid (s : State) : Bool := s.flag Reg.kprStat 1

/-- Protection fallback in force (SYS_BOOT.PROT is 0). -/
def State.fallback (s : State) : Bool := s.fld Reg.sysBoot 0 2 == 0

/-- Cells n and chemistry of CHG_CHEM. -/
def State.cells (s : State) : Nat := s.fld Reg.chgChem 0 4
def State.chem (s : State) : Nat := s.fld Reg.chgChem 4 4

/-- The strapped cutoff in mV (R66); 0 with CHEM code 0. -/
def State.cutoffMv (s : State) : Nat :=
  chemCells s.straps.chem * (if chemType s.straps.chem == 1 then 3000 else 2500)

/-- Whether an input is valid. -/
def State.isValid (s : State) (i : InputId) : Bool := s.pp.valid.get i.ix

def State.anyValid (s : State) : Bool := InputId.all.any s.isValid

/-- EMERGENCY in force, or a test running. -/
def State.testing (s : State) : Bool := s.emg.run.isSome

/-- The pack is present (R215). -/
def State.packPresent (s : State) : Bool := !s.chg.absent

/-- The battery can carry VSYS: VBAT, as the analog path sees it, lies above the strapped cutoff (R142, R146, R147). -/
def State.batteryCan (s : State) : Bool :=
  s.straps.chem != 0 && s.packPresent && decide (s.cutoffMv < s.pp.vbat)

/-- The last VBAT measurement in mV (CHG_VBAT). -/
def State.vbatMv (s : State) : Nat := s.reg Reg.chgVbat * 10

/-- The analog comparators see VBAT at mv. -/
def State.seeVbat (s : State) (mv : Nat) : State := { s with pp := { s.pp with vbat := mv } }

/-- The next number for a free value. -/
def State.nextFree (s : State) : State := { s with free := s.free + 1 }

end Sys2Proof.Machine
end

