-- ==== Sys2Proof/Machine/Crypto.lean ====
section
/-! DEFINITION. CRC and sum algorithms (13, R514; R375, R428), SHA-256, and ECDSA P-256 signing and verification (R108,
R112, R639) over plain numbers. -/

namespace Sys2Proof.Machine

/-! Checksums. -/

/-- The low w bits of x in reverse order. -/
def reflect (w x : Nat) : Nat := ((List.range w).map fun i => bits x i 1 * 2 ^ (w - 1 - i)).sum

/-- Eight steps of a most-significant-first CRC register of width w ≥ 8. -/
def crcShift (w poly : Nat) : Nat → Nat → Nat
  | 0, r => r
  | n + 1, r => crcShift w poly n (if bit r (w - 1) then ((2 * r) % 2 ^ w) ^^^ poly else (2 * r) % 2 ^ w)

/-- One data byte into the raw running value of algorithm parameters (R514). -/
def crcByte (a : Alg) (r : Nat) (b : Byte) : Nat :=
  let x := if a.refIn then reflect 8 b.toNat else b.toNat
  crcShift a.width a.poly 8 (r ^^^ (x * 2 ^ (a.width - 8)))

/-- One 16-bit word into a Fletcher-32 value, sum2 in the high half. -/
def fletcherWord (r w : Nat) : Nat :=
  let s1 := (r % 65536 + w) % 65535
  let s2 := (r / 65536 + s1) % 65535
  s2 * 65536 + s1

/-- Data taken g bytes at a time as little-endian words, the last padded with zeros (R513). -/
def wordsOf (g : Nat) : Nat → List Byte → List Nat
  | 0, _ => []
  | _, [] => []
  | n + 1, bs => leNat (bs.take g) :: wordsOf g n (bs.drop g)

/-- The raw running value after the data of a job (R513, R514). -/
def Alg.run (a : Alg) (start : Nat) (data : List Byte) : Nat :=
  if a.code == 4 then (wordsOf 2 data.length data).foldl fletcherWord start
  else if a.code == 5 then (wordsOf 4 data.length data).foldl (fun r w => (r + w) % 2 ^ 32) start
  else data.foldl (crcByte a) start

/-- The finished value of a raw one (R515). -/
def Alg.finish (a : Alg) (raw : Nat) : Nat :=
  if a.code == 4 || a.code == 5 then raw
  else ((if a.refOut then reflect a.width raw else raw) ^^^ a.xorOut) % 2 ^ a.width

def algCrc8 : Alg := ⟨0, 8, 0x07, 0, false, false, 0⟩
def algCcitt : Alg := ⟨1, 16, 0x1021, 0xFFFF, false, false, 0⟩
def algCrc32 : Alg := ⟨2, 32, 0x04C11DB7, 0xFFFFFFFF, true, true, 0xFFFFFFFF⟩
def algCrc32c : Alg := ⟨3, 32, 0x1EDC6F41, 0xFFFFFFFF, true, true, 0xFFFFFFFF⟩
def algFletcher : Alg := ⟨4, 32, 0, 0, false, false, 0⟩
def algSum : Alg := ⟨5, 32, 0, 0, false, false, 0⟩

def Alg.value (a : Alg) (data : List Byte) : Nat := a.finish (a.run a.init data)

/-- PEC (R428). -/
def pec (bs : List Byte) : Byte := BitVec.ofNat 8 (algCrc8.value bs)

/-! SHA-256 (FIPS 180-4). -/

def rotr32 (n x : Nat) : Nat := (x / 2 ^ n) + (x % 2 ^ n) * 2 ^ (32 - n)

def shaK : List Nat :=
  [0x428a2f98, 0x71374491, 0xb5c0fbcf, 0xe9b5dba5, 0x3956c25b, 0x59f111f1, 0x923f82a4, 0xab1c5ed5] ++
  [0xd807aa98, 0x12835b01, 0x243185be, 0x550c7dc3, 0x72be5d74, 0x80deb1fe, 0x9bdc06a7, 0xc19bf174] ++
  [0xe49b69c1, 0xefbe4786, 0x0fc19dc6, 0x240ca1cc, 0x2de92c6f, 0x4a7484aa, 0x5cb0a9dc, 0x76f988da] ++
  [0x983e5152, 0xa831c66d, 0xb00327c8, 0xbf597fc7, 0xc6e00bf3, 0xd5a79147, 0x06ca6351, 0x14292967] ++
  [0x27b70a85, 0x2e1b2138, 0x4d2c6dfc, 0x53380d13, 0x650a7354, 0x766a0abb, 0x81c2c92e, 0x92722c85] ++
  [0xa2bfe8a1, 0xa81a664b, 0xc24b8b70, 0xc76c51a3, 0xd192e819, 0xd6990624, 0xf40e3585, 0x106aa070] ++
  [0x19a4c116, 0x1e376c08, 0x2748774c, 0x34b0bcb5, 0x391c0cb3, 0x4ed8aa4a, 0x5b9cca4f, 0x682e6ff3] ++
  [0x748f82ee, 0x78a5636f, 0x84c87814, 0x8cc70208, 0x90befffa, 0xa4506ceb, 0xbef9a3f7, 0xc67178f2]

def shaInit : List Nat :=
  [0x6a09e667, 0xbb67ae85, 0x3c6ef372, 0xa54ff53a, 0x510e527f, 0x9b05688c, 0x1f83d9ab, 0x5be0cd19]

/-- The message schedule, newest word first, n further words. -/
def shaExpand : Nat → List Nat → List Nat
  | 0, ws => ws
  | n + 1, ws =>
    let w := fun i => ws.getD i 0
    let x := w 14
    let y := w 1
    let s0 := rotr32 7 x ^^^ rotr32 18 x ^^^ (x / 8)
    let s1 := rotr32 17 y ^^^ rotr32 19 y ^^^ (y / 1024)
    shaExpand n (((s1 + w 6 + s0 + w 15) % 2 ^ 32) :: ws)

def shaRound (h : List Nat) (kw : Nat) : List Nat :=
  match h with
  | [a, b, c, d, e, f, g, i] =>
    let s1 := rotr32 6 e ^^^ rotr32 11 e ^^^ rotr32 25 e
    let ch := (e &&& f) ^^^ ((2 ^ 32 - 1 - e) &&& g)
    let t1 := i + s1 + ch + kw
    let s0 := rotr32 2 a ^^^ rotr32 13 a ^^^ rotr32 22 a
    let mj := (a &&& b) ^^^ (a &&& c) ^^^ (b &&& c)
    [(t1 + s0 + mj) % 2 ^ 32, a, b, c, (d + t1) % 2 ^ 32, e, f, g]
  | h => h

def shaBlock (h : List Nat) (block : List Byte) : List Nat :=
  let w16 := (List.range 16).map fun i => beNat (slice block (4 * i) 4)
  let w := (shaExpand 48 w16.reverse).reverse
  let r := (List.zipWith (· + ·) shaK w).foldl shaRound h
  List.zipWith (fun x y => (x + y) % 2 ^ 32) h r

def shaBlocks : Nat → List Nat → List Byte → List Nat
  | 0, h, _ => h
  | n + 1, h, bs => if bs.isEmpty then h else shaBlocks n (shaBlock h (bs.take 64)) (bs.drop 64)

/-- The digest as 32 bytes, most significant first (R639). -/
def sha256 (msg : List Byte) : List Byte :=
  let n := msg.length
  let z := (119 - n % 64) % 64
  let padded := msg ++ [0x80] ++ List.replicate z 0 ++ (leBytes 8 (8 * n)).reverse
  (shaBlocks (n / 64 + 2) shaInit padded).flatMap fun w => (leBytes 4 w).reverse

/-! ECDSA over P-256. -/

def p256p : Nat := 0xffffffff00000001000000000000000000000000ffffffffffffffffffffffff
def p256n : Nat := 0xffffffff00000000ffffffffffffffffbce6faada7179e84f3b9cac2fc632551
def p256b : Nat := 0x5ac635d8aa3a93e7b3ebbd55769886bc651d06b0cc53b0f63bce3c3e27d2604b
def p256gx : Nat := 0x6b17d1f2e12c4247f8bce6e563a440f277037d812deb33a0f4a13945d898c296
def p256gy : Nat := 0x4fe342e2fe1a7f9b8ee7eb4a7c0f9e162bce33576b315ececbb6406837bf51f5

/-- b ^ e mod m over the low `fuel` bits of e. -/
def powMod (m : Nat) : Nat → Nat → Nat → Nat
  | 0, _, _ => 1 % m
  | n + 1, b, e => let r := powMod m n (b * b % m) (e / 2); if e % 2 == 1 then r * b % m else r

def invMod (m a : Nat) : Nat := powMod m 256 (a % m) (m - 2)

/-- a - b mod p. -/
def subP (a b : Nat) : Nat := (a + p256p - b % p256p) % p256p

/-- A point in Jacobian coordinates; z = 0 is the point at infinity. -/
structure JPoint where
  x : Nat
  y : Nat
  z : Nat
deriving DecidableEq, Repr

def JPoint.inf : JPoint := ⟨1, 1, 0⟩

def JPoint.dbl (a : JPoint) : JPoint :=
  if a.z == 0 || a.y == 0 then .inf
  else
    let d := a.z * a.z % p256p
    let g := a.y * a.y % p256p
    let b := a.x * g % p256p
    let al := 3 * (subP a.x d * (a.x + d) % p256p) % p256p
    let x3 := subP (al * al) (8 * b)
    let z3 := subP (subP ((a.y + a.z) * (a.y + a.z)) g) d
    ⟨x3, subP (al * subP (4 * b) x3) (8 * (g * g % p256p)), z3⟩

def JPoint.add (a b : JPoint) : JPoint :=
  if a.z == 0 then b else if b.z == 0 then a
  else
    let z1 := a.z * a.z % p256p
    let z2 := b.z * b.z % p256p
    let u1 := a.x * z2 % p256p
    let u2 := b.x * z1 % p256p
    let s1 := a.y * z2 % p256p * b.z % p256p
    let s2 := b.y * z1 % p256p * a.z % p256p
    if u1 == u2 then (if s1 == s2 then a.dbl else .inf)
    else
      let h := subP u2 u1
      let r := subP s2 s1
      let h2 := h * h % p256p
      let h3 := h * h2 % p256p
      let v := u1 * h2 % p256p
      let x3 := subP (subP (r * r) h3) (2 * v)
      ⟨x3, subP (r * subP v x3) (s1 * h3), a.z * b.z % p256p * h % p256p⟩

/-- k times a, over the low n bits of k. -/
def JPoint.mul : Nat → Nat → JPoint → JPoint
  | 0, _, _ => .inf
  | n + 1, k, a => let r := JPoint.mul n (k / 2) a.dbl; if k % 2 == 1 then r.add a else r

def onCurve (x y : Nat) : Bool :=
  decide (x < p256p) && decide (y < p256p) && (y * y % p256p == (subP (x * x % p256p * x) (3 * x) + p256b) % p256p)

/-- SIG, r then s, verifies over a digest under PUBKEY, x then y (R108, R639). -/
def ecdsaVerify (pub sig digest : List Byte) : Bool :=
  let x := beNat (slice pub 0 32)
  let y := beNat (slice pub 32 32)
  let r := beNat (slice sig 0 32)
  let s := beNat (slice sig 32 32)
  let e := beNat digest
  let w := invMod p256n s
  let q := (JPoint.mul 256 (e * w % p256n) ⟨p256gx, p256gy, 1⟩).add (JPoint.mul 256 (r * w % p256n) ⟨x, y, 1⟩)
  let zi := invMod p256p q.z
  onCurve x y && decide (0 < r) && decide (r < p256n) && decide (0 < s) && decide (s < p256n) && q.z != 0
    && (q.x * (zi * zi % p256p) % p256p) % p256n == r

/-- A number as 32 bytes, most significant first (R639). -/
def be32 (v : Nat) : List Byte := (leBytes 32 v).reverse

/-- k times the base point, as its affine coordinates. -/
def baseTimes (k : Nat) : Nat × Nat :=
  let q := JPoint.mul 256 k ⟨p256gx, p256gy, 1⟩
  let zi := invMod p256p q.z
  let zz := zi * zi % p256p
  (q.x * zz % p256p, q.y * (zz * zi % p256p) % p256p)

/-- The public key of private key d, x then y. -/
def ecdsaPublic (d : Nat) : List Byte := be32 (baseTimes d).1 ++ be32 (baseTimes d).2

/-- The signature of private key d with nonce k over a digest, r then s. -/
def ecdsaSign (d k : Nat) (digest : List Byte) : List Byte :=
  let r := (baseTimes k).1 % p256n
  be32 r ++ be32 (invMod p256n k * (beNat digest + r * d) % p256n)

/-- The device-unique private key, 1 to n - 1 (R112). -/
def deviceKey : Nat := Config.deviceKeyRaw % (p256n - 1) + 1

/-- The device-unique key's signature over a digest (R112). -/
def deviceSign (digest : List Byte) : List Byte := ecdsaSign deviceKey (Config.nonceRaw digest % (p256n - 1) + 1) digest

end Sys2Proof.Machine
end

