-- ==== Sys2Proof/Machine/Fabric.lean ====
section
/-! DEFINITION. Rings in ring SRAM, and the event arbiter: posting, coalescing, binding, delivery, claim and completion
(12, 13). A posting changes the fabric alone. -/

namespace Sys2Proof.Machine

/-! Rings. -/

/-- The reset allocation (R493): SIZE code and base in 256-byte units. -/
def resetRing (k : Nat) : Ring :=
  let a : Nat × Nat :=
    if k < 8 then (5, 16 * k) else if k < 16 then (7, 128 + 64 * (k - 8)) else if k < 20 then (5, 640 + 16 * (k - 16))
    else if k < 24 then (5, 704 + 16 * (k - 20)) else if k < 32 then (0, 0) else if k < 64 then (3, 768 + 4 * (k - 32)) else (0, 0)
  ⟨a.1, a.2, 0, [], 0, 0, true, 0xF, 0, false, false⟩

/-- Rings of an absent unit (R39; 01, What an absent unit takes with it). -/
def absentRing (v : Variant) (k : Nat) : Bool :=
  (!v.hasPort .c1 && (k == 16 || k == 17)) || (!v.hasPort .c2 && (k == 18 || k == 19))
  || (!v.hasLink && 20 ≤ k && k < 24) || (!v.hasChk 2 && 48 ≤ k && k < 56) || (!v.hasChk 3 && 56 ≤ k && k < 64)

/-- RING_MODE.DIR (R494): 0 QD6480 to agents, 1 agents to QD6480, 2 agents to agents. Rings 24 to 31 have neither (log 23). -/
def ringDir (k : Nat) : Nat :=
  if k < 20 then 0 else if k < 24 then (if k % 2 == 0 then 0 else 1) else if k < 32 then 0
  else if k < 64 then (if k % 2 == 0 then 1 else 0) else 2

/-- RING_MODE.POLICY (R494, R499): 0 FULL, 1 HOLD, 2 OVERWRITE, 3 DROP_NEW. -/
def ringPolicy (k : Nat) : Nat :=
  if k < 8 then 1 else if k < 16 then 2 else if k < 20 then 3 else if k < 24 then (if k % 2 == 0 then 3 else 0)
  else if k < 32 then 0 else if k < 64 then (if k % 2 == 0 then 0 else 1) else 0

def Fabric.ring (f : Fabric) (k : Nat) : Ring := SMap.get resetRing f.rings k

def Fabric.setRing (f : Fabric) (k : Nat) (r : Ring) : Fabric := { f with rings := SMap.set resetRing f.rings k r }

/-- Entries a ring can hold (R491). -/
def Ring.cap (r : Ring) : Nat := if r.size == 0 then 0 else 2 ^ (r.size + 3)

/-- RING_COUNT. -/
def Ring.count (r : Ring) : Nat := r.items.sum

def Ring.room (r : Ring) : Nat := r.cap - r.count

/-- Word address of the entry i places from the head: the words of the extent in turn, from its base, wrapping (log 24). -/
def Ring.word (r : Ring) (i : Nat) : Nat := r.base * 16 + (if r.cap == 0 then 0 else (r.head + i) % r.cap)

/-- Re-arm the watermark once the count lies below half of it (R501). -/
def Ring.rearm (r : Ring) : Ring := if 2 * r.count < r.wmark then { r with wArmed := true } else r

/-- One SRAM word stored; a stored word is correct again. -/
def Fabric.putWord (f : Fabric) (w : Nat) (e : List Byte) : Fabric :=
  { f with sram := Memory.write sramDefault f.sram (16 * w) (padTo 16 e), bad := f.bad.filter (· != w) }

def Fabric.getWord (f : Fabric) (w : Nat) : List Byte := Memory.read sramDefault f.sram (16 * w) 16

/-- The entries stored behind the last one, in order. -/
def Fabric.putEntries (f : Fabric) (r : Ring) (n : Nat) : List (List Byte) → Fabric
  | [] => f
  | e :: es => Fabric.putEntries (f.putWord (r.word n) e) r (n + 1) es

/-- An item enters whole (R498). -/
def Fabric.append (f : Fabric) (k : Nat) (es : List (List Byte)) : Fabric :=
  let r := f.ring k
  (f.putEntries r r.count es).setRing k { r with items := r.items ++ [es.length] }

/-- Entries leave from the head, across items. -/
def takeItems : List Nat → Nat → List Nat
  | [], _ => []
  | n :: ns, k => if k < n then (n - k) :: ns else takeItems ns (k - n)

def Ring.advance (r : Ring) (n : Nat) : Ring :=
  ({ r with head := if r.cap == 0 then 0 else (r.head + n) % r.cap, items := takeItems r.items n }).rearm

/-- Discard the oldest whole items until there is room for n entries; answers how many entries went. -/
def overwriteFor : List Nat → Nat → Nat → Nat
  | [], _, _ => 0
  | i :: is, room, n => if n ≤ room then 0 else i + overwriteFor is (room + i) n

/-- What the QD6480 writes into a ring (R499): the fabric, the sources that follow, and whether the item went in. -/
def Fabric.hwPush (f : Fabric) (k : Nat) (es : List (List Byte)) : Fabric × List Nat × Bool :=
  let r := f.ring k
  let n := es.length
  let full := r.room < n
  let fits := n ≤ r.cap && (!full || ringPolicy k == 2)
  let lost := if ringPolicy k == 2 && fits then overwriteFor r.items r.room n else 0
  let r1 : Ring := if full then { r with ovf := true } else r
  let r2 : Ring :=
    if !full then r1
    else if ringPolicy k == 2 then { r1.advance lost with drops := satAdd 65535 r.drops (if fits then lost else n) }
    else if ringPolicy k == 3 then { r1 with drops := satAdd 65535 r.drops n } else r1
  let f1 := f.setRing k r2
  let f2 := if fits then f1.append k es else f1
  let r3 := f2.ring k
  let hit := fits && r3.wArmed && decide (r2.count < r3.wmark ∧ r3.wmark ≤ r3.count)
  let f3 := if hit then f2.setRing k { r3 with wArmed := false } else f2
  (f3, (if full && !r.ovf then [432] else []) ++ (if hit then [433] else []), fits)

/-! Entries and routes. -/

/-- Event sources of an absent unit never post (R37, R128, R640). -/
def absentSource (v : Variant) (x : Nat) : Bool :=
  (!v.hasPort .c1 && (160 ≤ x && x < 168 || 288 ≤ x && x < 320 || x == 74 || x == 78))
  || (!v.hasPort .c2 && (168 ≤ x && x < 176 || 320 ≤ x && x < 352 || x == 75 || x == 79))
  || (!v.hasLink && 352 ≤ x && x < 416) || (!v.hasChk 2 && x == 450) || (!v.hasChk 3 && x == 451)

/-- Numbers that never post (the event source tables of 03 to 15). -/
def neverPosts (x : Nat) : Bool :=
  x == 39 || (45 ≤ x && x < 64) || (85 ≤ x && x < 96) || (102 ≤ x && x < 128)
  || (128 ≤ x && x < 160 && 6 ≤ x % 8) || x == 167 || x == 175 || (185 ≤ x && x < 192) || (205 ≤ x && x < 224)
  || (235 ≤ x && x < 256) || x == 263 || (280 ≤ x && x < 288) || (305 ≤ x && x < 320) || (337 ≤ x && x < 352)
  || x == 366 || x == 367 || (374 ≤ x && x < 416) || x == 431 || (436 ≤ x && x < 448) || x == 454 || x == 455
  || x == 467 || 480 ≤ x

/-- The route of source x, decoded (R488). -/
structure Route where
  en : Bool
  ring : Bool
  group : Nat
  target : Bool
  prio : Nat
  mask : Nat
deriving DecidableEq, Repr

def State.route (s : State) (x : Nat) : Route :=
  let w := s.reg (Reg.evtRoute x)
  ⟨bit w 15, bit w 14, bits w 9 5, bit w 8, bits w 4 4, bits w 0 4⟩

def Route.live (r : Route) : Bool := r.en && r.mask != 0

def State.awake (s : State) (a : Agent) : Bool := s.flag (Reg.agtCtl a.val) 0

/-- The next agent of mask after the last bound one, awake agents first (R464, R465). -/
def State.nextBound (s : State) (f : Fabric) (x mask : Nat) : Agent :=
  let l := SMap.get (fun _ => 3) f.last x
  let order : List Agent := [Fin.ofNat 4 (l + 1), Fin.ofNat 4 (l + 2), Fin.ofNat 4 (l + 3), Fin.ofNat 4 (l + 4)]
  let inMask := order.filter fun a => bit mask a.val
  ((inMask.filter s.awake) ++ inMask).headD 0

def only (a : Agent) : Four Bool := (Four.all false).set a true

/-- Flag bits of a claim record's byte 2 (12). -/
def Entry.flagByte (e : Entry) : Nat :=
  e.prio + 16 * b2n e.redelivered + 32 * b2n e.coalesced + 64 * b2n e.overflow

/-- Bytes 0 to 7 of the claim record and of the event ring entry. -/
def Entry.record (e : Entry) : List Byte :=
  leBytes 2 (e.num + 4096 * e.origin) ++ leBytes 1 e.flagByte ++ leBytes 1 e.count ++ leBytes 4 e.seq.toNat

/-- The event ring entry. -/
def Entry.ringBytes (e : Entry) : List Byte := e.record ++ leBytes 4 e.sec.toNat ++ leBytes 2 e.sub.toNat ++ [0, 0]

/-- a comes before b in EVT_SEQ, by the signed difference (after R25). -/
def seqBefore (a b : Word32) : Bool := (a - b).toInt < 0

/-- Two entries of one source become one: counts add, the earlier posting's origin, number and timestamp stay (R462, R463, R476). -/
def Entry.merge (a b : Entry) : Entry :=
  let e := if seqBefore b.seq a.seq then b else a
  { a with origin := e.origin, seq := e.seq, sec := e.sec, sub := e.sub, count := satAdd 255 a.count b.count,
           redelivered := a.redelivered || b.redelivered }

/-- Apply g to the first entry that satisfies p. -/
def updateFirst (p : Entry → Bool) (g : Entry → Entry) : List Entry → List Entry
  | [] => []
  | e :: es => if p e then g e :: es else e :: updateFirst p g es

/-- The entry reaches one agent's event ring, or becomes its OVERFLOW copy (R469, R470). -/
def Fabric.toRing (f : Fabric) (e : Entry) (a : Agent) : Fabric × List Nat :=
  let (f1, more, ok) := f.hwPush (2 * a.val) [e.ringBytes]
  if ok then (f1, more)
  else
    let isCopy : Entry → Bool := fun c => c.overflow && c.num == e.num && c.bound.get a
    if f1.pend.any isCopy then ({ f1 with pend := updateFirst isCopy (·.merge e) f1.pend, merged := satAdd 65535 f1.merged 1 }, more)
    else ({ f1 with pend := f1.pend ++ [{ e with overflow := true, rr := false, bound := only a }] }, more)

def Fabric.toRings (f : Fabric) (e : Entry) : List Agent → Fabric × List Nat
  | [] => (f, [])
  | a :: as =>
    let (f1, m1) := f.toRing e a
    let (f2, m2) := f1.toRings e as
    (f2, m1 ++ m2)

/-- An entry becomes pending under the route in force (R464 to R470); answers the sources that follow. -/
def State.deliver (s : State) (f : Fabric) (e : Entry) : Fabric × List Nat :=
  let r := s.route e.num
  if !r.live then ({ f with unrouted := satAdd 65535 f.unrouted 1 }, [])
  else
    let e1 := { e with prio := r.prio, overflow := false, rr := !r.target }
    let a := s.nextBound f e.num r.mask
    let f1 := if r.target then f else { f with last := SMap.set (fun _ => 3) f.last e.num a.val }
    let targets := if r.target then fin4.filter fun n => bit r.mask n.val else [a]
    if r.ring then f1.toRings e1 targets
    else
      let b : Four Bool := ⟨targets.contains 0, targets.contains 1, targets.contains 2, targets.contains 3⟩
      ({ f1 with pend := f1.pend ++ [{ e1 with bound := b }] }, [])

def State.deliverAll (s : State) (f : Fabric) : List Entry → Fabric × List Nat
  | [] => (f, [])
  | e :: es =>
    let (f1, m1) := s.deliver f e
    let (f2, m2) := s.deliverAll f1 es
    (f2, m1 ++ m2)

/-- The open batch of group g, when there is one. -/
def Fabric.batch (f : Fabric) (g : Nat) : Option Batch := f.batches.find? (·.group == g)

def Fabric.setBatch (f : Fabric) (b : Batch) : Fabric := { f with batches := f.batches.filter (·.group != b.group) ++ [b] }

/-- The batch of group g closes: what it holds becomes pending, COALESCED (R481). -/
def State.closeBatch (s : State) (f : Fabric) (g : Nat) : Fabric × List Nat :=
  match f.batch g with
  | none => (f, [])
  | some b =>
    s.deliverAll { f with batches := f.batches.filter (·.group != g) } (b.held.map fun e => { e with coalesced := true })

/-- Source x has its open entry pending. -/
def openPend (x : Nat) (e : Entry) : Bool := e.num == x && !e.overflow

def Fabric.heldBy (f : Fabric) (x : Nat) : Option Batch := f.batches.find? fun b => b.held.any (·.num == x)

def Fabric.isOpen (f : Fabric) (x : Nat) : Bool := f.pend.any (openPend x) || (f.heldBy x).isSome

/-- The open entry of source x merged with e. -/
def Fabric.mergeOpen (f : Fabric) (x : Nat) (e : Entry) : Fabric :=
  if f.pend.any (openPend x) then { f with pend := updateFirst (openPend x) (·.merge e) f.pend }
  else match f.heldBy x with
    | none => f
    | some b => f.setBatch { b with held := updateFirst (·.num == x) (·.merge e) b.held }

/-- One posting through the arbiter (R21, R461 to R466, R481, R483). -/
def State.postOne (s : State) (f : Fabric) (x origin : Nat) : Fabric × List Nat :=
  let r := s.route x
  let e : Entry := ⟨x, origin, r.prio, 1, f.seq + 1, BitVec.ofNat 32 s.rtc, Config.subSecond f.stamp, false, false, false, false, Four.all false⟩
  let f1 := { f with seq := f.seq + 1, stamp := f.stamp + 1 }
  if !r.live then ({ f1 with unrouted := satAdd 65535 f1.unrouted 1 }, [])
  else
    let isOpen := f1.isOpen x
    let f2 := if isOpen then { f1.mergeOpen x e with merged := satAdd 65535 f1.merged 1 } else f1
    if r.group == 0 then (if isOpen then (f2, []) else s.deliver f2 e)
    else
      let b := (f2.batch r.group).getD ⟨r.group, 0, []⟩
      let b1 : Batch := ⟨r.group, b.received + 1, if isOpen then b.held else b.held ++ [e]⟩
      let f3 := f2.setBatch b1
      if s.fld (Reg.coalCount r.group) 0 8 ≤ b1.received then s.closeBatch f3 r.group else (f3, [])

/-- Postings in order, each followed by what it sets off. -/
def State.postAll (s : State) : Nat → List (Nat × Nat) → Fabric → Fabric
  | 0, _, f => f
  | _, [], f => f
  | n + 1, (x, o) :: rest, f =>
    let (f1, more) := s.postOne f x o
    s.postAll n (rest ++ more.map fun m => (m, 0)) f1

/-- How many postings one step may chain: each follow-up clears an armed flag of an event ring, so eight suffice. -/
def postFuel : Nat := 24

/-- The fabric after source x posts with an origin: outside ACTIVE the source is kept for the end of the boot (R79, R158). -/
def State.postFab (s : State) (x origin : Nat) : Fabric :=
  if absentSource s.part.variant x then s.fab
  else if s.active then s.postAll postFuel [(x, origin)] s.fab
  else if s.fab.absent.contains x then s.fab else { s.fab with absent := s.fab.absent ++ [x] }

/-- A posting with an origin code (R460). -/
def State.postAs (s : State) (x origin : Nat) : State := { s with fab := s.postFab x origin }

/-- A hardware posting. -/
def State.post (s : State) (x : Nat) : State := s.postAs x 0

def State.postIf (s : State) (c : Bool) (x : Nat) : State := { s with fab := if c then s.postFab x 0 else s.fab }

/-- Postings in order. -/
def State.posts (s : State) : List Nat → State
  | [] => s
  | x :: xs => (s.post x).posts xs

/-- Postings of one group in order, with what they set off after the last of them (R79). -/
def State.postGroup (s : State) (xs : List Nat) : State :=
  let ps := (xs.filter fun x => !absentSource s.part.variant x).map fun x => (x, 0)
  { s with fab := s.postAll (postFuel + ps.length) ps s.fab }

/-- Follow-up sources of a ring write made outside a posting. -/
def State.withFab (s : State) (r : Fabric × List Nat) : State := { s with fab := r.1 }.posts r.2

/-- The QD6480 writes an item into ring k, as its policy says. -/
def State.ringWrite (s : State) (k : Nat) (es : List (List Byte)) : State :=
  if absentRing s.part.variant k then s
  else
    let r := s.fab.hwPush k es
    s.withFab (r.1, r.2.1)

/-- Whether an item of n entries fits ring k now. -/
def State.ringFits (s : State) (k n : Nat) : Bool := decide (n ≤ (s.fab.ring k).room)

/-! Claim and completion. -/

/-- AGTn_CTL.THRESH and WAKE_PRIO. -/
def State.thresh (s : State) (a : Agent) : Nat := s.fld (Reg.agtCtl a.val) 8 4
def State.wakePrio (s : State) (a : Agent) : Nat := s.fld (Reg.agtCtl a.val) 4 4

/-- The claim floor of R472. -/
def State.claimFloor (s : State) (a : Agent) : Nat :=
  match s.fab.stack.get a with
  | [] => s.thresh a
  | t :: _ => max (s.thresh a) (t.prio + 1)

/-- Entries agent a can claim. -/
def State.claimable (s : State) (a : Agent) : List Entry :=
  if 8 ≤ (s.fab.stack.get a).length then []
  else s.fab.pend.filter fun e => e.bound.get a && decide (s.claimFloor a ≤ e.prio)

/-- Highest priority first; among equals, the earliest EVT_SEQ. -/
def better (a b : Entry) : Entry := if a.prio < b.prio || (a.prio == b.prio && seqBefore b.seq a.seq) then b else a

def best : List Entry → Option Entry
  | [] => none
  | e :: es => some (es.foldl better e)

/-- The latched record of an entry, or the spurious record (R474). -/
def claimRec : Option Entry → ClaimRec
  | none => ⟨511, 0, 0, 0, 0⟩
  | some e => ⟨BitVec.ofNat 16 (e.num + 4096 * e.origin), BitVec.ofNat 16 (e.flagByte + 256 * e.count), e.seq, e.sec, e.sub⟩

/-- The eight bytes a CLAIM returns. -/
def ClaimRec.bytes (c : ClaimRec) : List Byte := leBytes 2 c.w0.toNat ++ leBytes 2 c.w1.toNat ++ leBytes 4 c.seq.toNat

/-- A claim by agent a (R472 to R474, R477). -/
def State.claimBy (s : State) (a : Agent) : State :=
  let e := best (s.claimable a)
  let f := { s.fab with latch := s.fab.latch.set a (claimRec e) }
  { s with fab :=
      match e with
      | none => f
      | some e =>
        { f with pend := f.pend.erase e, stack := f.stack.set a (e :: f.stack.get a),
                 stackFlag := if e.num == 40 + a.val then f.stackFlag.set a false else f.stackFlag } }

/-- Return the entries of a faulty stack, bottom first, to pending (R476). -/
def State.giveBack (s : State) (f : Fabric) : List Entry → Fabric × List Nat
  | [] => (f, [])
  | e :: es =>
    let e1 := { e with redelivered := true, overflow := false }
    let (f1, m1) := if f.isOpen e.num then (f.mergeOpen e.num e1, []) else s.deliver f e1
    let (f2, m2) := s.giveBack f1 es
    (f2, m1 ++ m2)

/-- R475's mismatch: the stack empties and STACK_FAULT posts. -/
def State.stackFault (s : State) (a : Agent) (st : List Entry) : State :=
  let f := { s.fab with stack := s.fab.stack.set a [], faults := s.fab.faults.set a (satAdd 65535 (s.fab.faults.get a) 1),
                        stackFlag := s.fab.stackFlag.set a true }
  (s.withFab (s.giveBack f st.reverse)).post (40 + a.val)

/-- A completion by agent a (R475 to R477). -/
def State.completeBy (s : State) (a : Agent) (x : Nat) : State :=
  if x == 511 then s
  else
    match s.fab.stack.get a with
    | t :: ts =>
      if t.num == x then { s with fab := { s.fab with stack := s.fab.stack.set a ts } }
      else s.stackFault a (t :: ts)
    | [] => s.stackFault a []

/-- Round-robin entries pending for an agent that goes to sleep are bound afresh (R478). -/
def State.rebind (s : State) (a : Agent) : State :=
  let mine : Entry → Bool := fun e => e.rr && !e.overflow && e.bound.get a
  s.withFab (s.deliverAll { s.fab with pend := s.fab.pend.filter (!mine ·) } (s.fab.pend.filter mine))

/-- The pending summary (11, R441). -/
def State.summary (s : State) (a : Agent) : Nat :=
  let c := s.claimable a
  let evt := !c.isEmpty
  (if evt then 16 * (c.map (·.prio)).foldl max 0 else 0) + 8 * b2n (s.fab.stackFlag.get a)
    + 4 * b2n ((s.fab.ring (2 * a.val + 1)).count != 0) + 2 * b2n ((s.fab.ring (2 * a.val)).count != 0) + b2n evt

end Sys2Proof.Machine
end

