-- ==== Sys2Proof/Machine/Flags.lean ====
section
/-! DEFINITION. Status words: what a read of a register that only shows other state returns, and the levels of the
status balls. -/

namespace Sys2Proof.Machine

/-! Codes of the state machines, as the STAT registers show them. -/

def ChgState.code : ChgState → Nat
  | .idle => 0 | .qualify => 1 | .recover => 2 | .precharge => 3 | .cc => 4 | .cv => 5 | .done => 6 | .maintain => 7
  | .suspend => 8 | .fault => 9 | .isolated => 10 | .emergency => 11

def Zone.code : Zone → Nat
  | .cold => 0 | .cool => 1 | .normal => 2 | .warm => 3 | .hot => 4

def SeqState.code : SeqState → Nat
  | .off => 0 | .up => 1 | .on => 2 | .down => 3 | .stuck => 4 | .held => 5

def LnkState.code : LnkState → Nat
  | .off => 0 | .listen => 1 | .claiming => 2 | .joining => 3 | .member => 4 | .lead => 5

def PortRole.code : PortRole → Nat
  | .none => 0 | .source => 1 | .sink => 2

def testCode : TestKind → Nat
  | .function => 1
  | .duration => 2

/-! Converters. -/

def PhaseCell.healthy (c : PhaseCell) : Bool := c.st != .isolated

/-- The number of healthy main phases. -/
def Cnv.healthyCount (c : Cnv) : Nat := (c.phases.toList.filter PhaseCell.healthy).length

def Cnv.runCount (c : Cnv) : Nat := (c.phases.toList.filter (·.st == .run)).length

def Cnv.runs (c : Cnv) : Four Bool := c.phases.map (·.st == .run)

def Cnv.healthy (c : Cnv) : Four Bool := c.phases.map PhaseCell.healthy

/-- A running phase that stands at `iv` in its cycle. -/
def Cnv.anyAt (c : Cnv) (iv : Interval) : Bool := c.phases.toList.any fun p => p.st == .run && p.iv == iv

/-- The running phases spaced at 360° over their number, in ascending order (R172). -/
def spaced (ps : Four PhaseCell) : Four PhaseCell :=
  let n := (ps.toList.filter fun p => p.st == .run).length
  let at_ := fun (k : Nat) (p : PhaseCell) =>
    if p.st == .run then { p with angle := 360 / n * k, iv := if p.iv == .off then .sync else p.iv } else { p with angle := 0, iv := .off }
  let r := fun p : PhaseCell => b2n (p.st == .run)
  ⟨at_ 0 ps.a0, at_ (r ps.a0) ps.a1, at_ (r ps.a0 + r ps.a1) ps.a2, at_ (r ps.a0 + r ps.a1 + r ps.a2) ps.a3⟩

/-- CNV_STAT (R208). -/
def Cnv.stat (c : Cnv) : Nat :=
  c.runs.toNat + 16 * c.healthy.toNat + 256 * b2n (c.anyAt .idle) + 512 * b2n (c.anyAt .skip) + 1024 * b2n c.ilim + 2048 * b2n c.rev
    + 4096 * b2n c.rsInt + 8192 * b2n (c.healthyCount == 1) + 16384 * b2n c.ov + 32768 * b2n (c.healthyCount == 0)

/-- CNV_ILIM_EFF (R190), rounded down to its step of 100 mA: the manual names no rounding (DESIGN CHOICE, log 83). -/
def State.ilimEff (s : State) : Nat :=
  min (s.reg Reg.cnvIlim * s.cnv.healthyCount / 4) (120 * s.cnv.healthyCount / 4)

/-- CNV_Pp_STAT. -/
def PhaseCell.stat (c : PhaseCell) : Nat :=
  b2n (c.st == .run) + 2 * b2n (c.st == .shed) + 4 * b2n (c.st == .isolated) + 8 * b2n c.sense + 16 * b2n c.runaway + 32 * b2n c.ot

/-- CNV_Xn_STAT. -/
def XCell.stat (c : XCell) : Nat :=
  b2n c.run + 2 * b2n c.stopped + 4 * b2n c.sense + 8 * b2n c.runaway + 16 * b2n c.ot + 32 * b2n c.ilim + 64 * b2n c.ovp
    + 128 * b2n (c.run && c.iv == .idle) + 256 * b2n (c.run && c.iv == .skip)

/-- Every converter gate is held low (R609), or the main phases stopped (R168, R192). -/
def State.mainStopped (s : State) : Bool := s.cnv.vdrvLow || s.cnv.ov || s.cnv.healthyCount == 0

/-! Power path. -/

/-- `PTH_STAT` (R156). With no input connected NONE shows 1, at State.reset too; the table's Reset 0 is the choice not taken
(log 21). -/
def State.pthStat (s : State) : Nat :=
  let p := s.pp
  (match p.conn with | some i => i.ix.val | none => (Config.selWhileNone s.free).toNat) + 4 * b2n p.conn.isNone + 8 * b2n s.cnv.rev
    + 16 * p.valid.toNat + 256 * b2n p.ilim + 512 * b2n p.vfloor + 1024 * b2n p.supplement + 2048 * b2n p.linear + 4096 * b2n p.isolated

def Poe.demoted (p : Poe) : Bool := decide (p.assigned < p.requested)

/-- POE_STAT (R156); before any classification event the class fields read 0. -/
def Poe.stat (p : Poe) : Nat :=
  2 * (p.requested - 1) + 16 * (p.assigned - 1) + 128 * p.events + 1024 * b2n p.pg + 2048 * b2n p.demoted + 4096 * b2n p.mps
    + 8192 * b2n p.hsFault + 16384 * b2n p.clsBad

/-! Charger, emergency, sequencer. -/

def Chg.stat (c : Chg) : Nat :=
  c.st.code + 16 * c.zone.code + 128 * b2n c.absent + 256 * b2n c.ntcFault + 512 * b2n c.boardHot + 1024 * b2n c.limited
    + 2048 * b2n c.halfRate + 4096 * b2n c.float

def Emg.stat (e : Emg) : Nat :=
  b2n e.emergency + 2 * b2n e.warn + 4 * b2n e.cutoff + 8 * b2n e.run.isSome
    + 16 * (match e.run with | some r => testCode r.kind | none => 0) + 64 * b2n e.deferred + 128 * b2n e.waitSlot
    + 256 * b2n e.full + 4096 * e.outcome

/-- SEQ_STAT over its stored STATUS field. -/
def Seq.stat (q : Seq) (status : Nat) : Nat :=
  q.state.code + 8 * q.rail + 128 * q.dir + 512 * q.cause + 4096 * b2n q.latch + 8192 * status

def Seq.railStat (q : Seq) (k : Rail) : Nat :=
  b2n (q.en.get k) + 2 * b2n (q.pg.get k) + 4 * q.bits.get k + 256 * b2n (q.disch.get k)

/-! Ports and Link. -/

def PortSt.stat (p : PortSt) (armed : Bool) : Nat :=
  16 * b2n (p.cut != .none) + 32 * b2n p.discharging + 64 * p.role.code + 256 * b2n p.cc2 + 512 * p.rp + 2048 * p.rev
    + 8192 * b2n p.contract.isSome + 16384 * b2n (p.contract.any (·.pps)) + 32768 * b2n armed

def Lnk.stat (l : Lnk) : Nat := l.state.code + 16 * l.short + 512 * l.count

def Lnk.gthStat (l : Lnk) : Nat :=
  b2n (l.offer != 0) + 2 * b2n (l.demand != 0) + 4 * b2n (match l.grant with | some (true, _) => true | _ => false)
    + 8 * b2n (match l.grant with | some (false, _) => true | _ => false) + 256 * (l.holder.getD 0x3F)

/-- LNK_Ma_ID0 to INFO at offset o of the member table; 0 outside LEAD. -/
def Lnk.memberWord (l : Lnk) (o : Nat) : Nat :=
  if l.state != .lead then 0
  else match l.members.find? (·.short == o / 4) with
    | none => 0
    | some m => if o % 4 == 3 then m.flags.toNat + 256 * min 255 m.rounds else bits m.id.toNat (16 * (o % 4)) 16

/-! Check units. -/

def State.unitUsable (s : State) (u : UnitId) : Bool := s.part.variant.hasChk u && !(s.chk.units.get u).failed

/-- The unit that serves unit m's submit rings (R523). -/
def State.serving (s : State) (m : UnitId) : Option UnitId :=
  if s.unitUsable m then some m else fin4.find? s.unitUsable

def State.chkStat (s : State) (u : UnitId) : Nat :=
  let c := s.chk.units.get u
  let serves := fun m => s.part.variant.hasChk m && (s.serving m == some u)
  (if c.failed then 3 else if c.job.isSome then 1 else if s.chk.tests.get u then 2 else 0) + 4 * b2n c.kat + 16 * c.cause
    + 256 * (Four.toNat ⟨serves 0, serves 1, serves 2, serves 3⟩)

/-! Tack Room. -/

/-- The physical block that holds a logical one (R535). -/
def Tkr.phys (t : Tkr) (b : Nat) : Nat := SMap.get id t.map b

/-- The planes a request takes: those of the blocks it reads or writes (R532, R538). -/
def Tkr.planes (t : Tkr) (r : Req) : List Nat :=
  let arg := r.bytes.drop 2
  let written := match t.session with
    | some e => [(e.base + leNat (arg.take 3)) / 256, (e.base + leNat (arg.take 3) + leNat (slice arg 3 1) - 1) / 256]
    | none => []
  let closed := match t.session with
    | some e => (List.range (min (e.pages / 256 + 1) ((leNat (arg.take 4) + 65535) / 65536))).map (e.base / 256 + ·)
        ++ (if e.kind == 2 then [35, 36] else if e.kind == 1 && bit (leNat (slice arg 36 1)) 0 then [e.base / 256, 0, 16] else [])
    | none => []
  let blocks : List Nat := match (r.bytes.headD 0).toNat with
    | 0x01 => [leNat (arg.take 4) / 65536, (leNat (arg.take 4) + 256 * leNat (slice arg 4 1) - 1) / 65536]
    | 0x10 => [34]
    | 0x20 | 0x21 => [48 + t.jhead / 256]
    | 0x30 => if leNat (slice arg 0 1) == 2 then [35, 36] else []
    | 0x31 => written
    | 0x32 => closed
    | _ => []
  blocks.map fun b => t.phys b % 4

/-- Requests of agent a that have not ended: waiting, running, or with their reply still to enter (R537, R539). -/
def Tkr.held (t : Tkr) (a : Agent) : Nat := (t.queue.get a).length + (t.run.get a).toList.length + (t.replies.get a).length

/-- TKR_STAT.BUSY. -/
def State.tkrBusy (s : State) : Nat :=
  (List.range 4).foldl (fun w p => w + b2n (s.tkr.run.toList.any fun r => r.any fun q => (s.tkr.planes q).contains p) * 2 ^ p) 0

def State.tkrStat (s : State) : Nat :=
  (match s.tkr.session with | none => 0 | some e => e.kind + 1 + 4 * e.agent.val) + 16 * s.tkrBusy
    + 256 * b2n (decide (s.tkr.free.length ≤ 8)) + 512 * b2n s.tkr.scrubLate

def imgWord : Option Nat → Nat
  | none => 0
  | some p => 32768 + p

/-! Telemetry. -/

/-- Conversions per second in steps of 100 that the enabled entries ask for (TLM_LOAD): IOUT takes four (R564). -/
def State.tlmLoad (s : State) : Nat :=
  let one : Nat → Nat := fun e =>
    let c := s.reg (Reg.tlmCfg + e)
    let p := s.reg (Reg.tlmPeriod + e)
    if bit c 15 && (e < 22 || s.flag Reg.tlmCtl 0) && p != 0 then 2 ^ (bits c 12 3) * (if bits c 0 6 == 13 then 4 else 1) * 4000000 / p else 0
  min 16383 (((List.range 64).map one).sum / 100000)

def Cal.stat (c : Cal) : Nat :=
  b2n c.busy + 2 * b2n c.fuseOnly + 4 * b2n c.fail + 8 * b2n c.clock + 256 * c.stale.toNat

/-! Keeper watch. -/

/-- Eligible for the watch list in DORMANT; in SHIP (12). -/
def watchDormant (x : Nat) : Bool := x == 34 || (72 ≤ x && x ≤ 80) || x == 196 || x == 200 || x == 201 || x == 259
def watchShip (x : Nat) : Bool := x == 34 || x == 196 || x == 200 || x == 201

/-- Armed entries that name source x (R484). -/
def State.watching (s : State) (x : Nat) : List Nat :=
  (List.range 32).filter fun k => s.flag (Reg.kprWatch + k) 15 && s.fld (Reg.kprWatch + k) 0 9 == x

/-! Attention. -/

/-- Attention of agent a is due (R441). -/
def State.attnDue (s : State) (a : Agent) : Bool := s.active && ((s.summary a % 16) &&& (s.reg (Reg.serAgtAttn a.val))) != 0

/-- The QD6480 calls agent a: attention is due and the agent is awake (R441, R478). -/
def State.attnCall (s : State) (a : Agent) : Bool := s.attnDue a && s.awake a

def State.agtMode (s : State) (a : Agent) : Nat := s.fld (Reg.serAgtCfg a.val) 0 2

/-! Views. -/

/-- Bit j: source 16w + j has an open entry. -/
def State.openWord (s : State) (w : Nat) : Nat :=
  ((List.range 16).map fun j => b2n (s.fab.isOpen (16 * w + j)) * 2 ^ j).sum

def State.ringBits (s : State) (w : Nat) (p : Ring → Bool) : Nat :=
  ((List.range 16).map fun j => b2n (!absentRing s.part.variant (16 * w + j) && p (s.fab.ring (16 * w + j))) * 2 ^ j).sum

def ClaimRec.word (c : ClaimRec) : Nat → Nat
  | 0 => c.w0.toNat
  | 1 => c.w1.toNat
  | 2 => c.seq.toNat % 65536
  | 3 => c.seq.toNat / 65536
  | 4 => c.sec.toNat % 65536
  | 5 => c.sec.toNat / 65536
  | 6 => c.sub.toNat
  | _ => 0

/-- The selected ring of agent a's copy of RING_SEL. -/
def State.selRing (s : State) (a : Agent) : Nat := bits (s.ser.ag.get a).sel.toNat 0 8

/-- Bank 0x06 as agent a sees it (R503, R529). -/
def State.ringReg (s : State) (a : Agent) (i : Nat) : Nat :=
  let g := s.ser.ag.get a
  let k := s.selRing a
  let r := s.fab.ring k
  let dead := absentRing s.part.variant k
  if i == 0x600 then g.sel.toNat
  else if i == 0x601 then g.addr.toNat
  else if i == 0x602 then g.result
  else if i == 0x603 then (if dead then 0 else r.size)
  else if i == 0x604 then (if dead then 0 else r.base)
  else if i == 0x605 then
    (if dead then 0 else ringDir k + 4 * ringPolicy k + (if k < 64 then 0xF0 else 16 * r.pop + 256 * r.db + 8192 * b2n r.dbEn))
  else if i == 0x606 then (if dead then 0 else r.wmark)
  else if i == 0x607 then (if dead then 0 else r.count)
  else if i == 0x608 then (if dead then 0 else r.drops)
  else if i < 0x620 then (match (fin8.find? fun j => 0x610 + j.val == i) with | some j => (g.latch.get j).toNat | none => 0)
  else if i < 0x630 then s.ringBits (i - 0x620) fun r => r.count != 0
  else if i < 0x640 then s.ringBits (i - 0x630) (·.ovf)
  else if i == 0x640 then s.fab.eccCorr
  else if i == 0x641 then s.fab.eccUncorr
  else s.fab.eccAddr

/-- AGT banks (R488). -/
def State.agtReg (s : State) (a : Agent) (o : Nat) : Option Nat :=
  if o ≤ 6 then some ((s.fab.latch.get a).word o)
  else if o == 0x0A then some (s.fab.stack.get a).length
  else if o == 0x0B then some (s.fab.faults.get a)
  else if 0x100 ≤ o && o < 0x108 then
    some (match (s.fab.stack.get a).reverse[o - 0x100]? with | some e => e.num + 4096 * e.prio | none => 0)
  else none

/-- Bank 0x09 and 0x0A. -/
def State.tkrReg (s : State) (a : Agent) (i : Nat) : Option Nat :=
  let blk := (s.ser.ag.get a).blkSel
  let phys := SMap.get id s.tkr.map blk
  match i with
  | 0x900 => some s.tkrStat
  | 0x901 => some s.tkr.free.length
  | 0x902 => some s.tkr.retired
  | 0x903 => some (s.tkr.jserial % 65536)
  | 0x904 => some (s.tkr.jserial / 65536)
  | 0x905 => some (s.tkr.sealNo % 65536)
  | 0x906 => some (s.tkr.sealNo / 65536)
  | 0x907 => some ((fin4.map fun n => s.tkr.held n * 8 ^ n.val).sum)
  | 0x90D => some (imgWord s.tkr.img.p1)
  | 0x90E => some (imgWord s.tkr.img.p2)
  | 0xA00 => some blk
  | 0xA01 => some (phys + 4096 * (if s.tkr.dropped.contains blk then 2 else if phys == blk then 0 else 1))
  | 0xA02 => some (SMap.get (fun _ => 0) s.tkr.erases phys % 65536)
  | 0xA03 => some (SMap.get (fun _ => 0) s.tkr.erases phys / 65536)
  | _ => none

def PhaseAt (i : Nat) : Phase := Fin.ofNat 4 ((i - 0xF00) / 16)

def portAt (i base : Nat) (stride : Nat) : Port := if i < base + stride then .c1 else .c2

/-- Current of a PDP_Cn_FRS_I code in mA (R358, R372). -/
def frsMa : Nat → Nat
  | 1 => 500 | 2 => 1500 | 3 => 3000 | _ => 0

/-- The port is armed to receive a fast role swap (R344, R358). -/
def State.frsArmed (s : State) (p : Port) : Bool :=
  let c := s.pdp.get p
  c.role == .sink && bit c.cfgIn 12 && c.rev == 2 && c.frsI != 0 && decide (5 * frsMa c.frsI ≤ s.reg Reg.sysLimPort * 250)
    && decide (10 ≤ s.reg Reg.sysLimPort) && s.chem != 0 && decide (s.cells * s.reg Reg.emgWarn < s.pp.vbat)

def State.pdpReg (s : State) (p : Port) (i : Nat) : Option Nat :=
  let c := s.pdp.get p
  match i % 256 with
  | 0x00 => some (c.stat (s.frsArmed p))
  | 0x13 => some (match c.contract with | some k => k.mv / 20 | none => 0)
  | 0x14 => some (match c.contract with | some k => k.ma / 10 | none => 0)
  | 0x16 => some c.frsI
  | _ => none

/-- What a read of index i by agent a shows when the register shows other state; none for a stored register. KPR_WATCH_k.INELIG
of an entry that is all zero reads 0 (DEDUCED, log 88). -/
def State.live (s : State) (a : Agent) (i : Nat) : Option Nat :=
  match i / 256 with
  | 0x00 =>
    if i == Reg.kprStat then some (putBits (s.reg i) 0 1 (b2n s.life.lfoBackup))
    else if 0x90 ≤ i && i < 0xB0 then some (putBits (s.reg i) 14 1 (b2n (s.reg i != 0 && !watchDormant (s.fld i 0 9))))
    else none
  | 0x01 =>
    if i == Reg.serPending then some ((Four.toNat ⟨s.attnDue 0, s.attnDue 1, s.attnDue 2, s.attnDue 3⟩) + 256 * b2n s.ser.alert)
    else if i < 0x110 then none
    else
      let n : Agent := Fin.ofNat 4 ((i - 0x110) / 16)
      match i % 16 with
      | 3 => some (putBits (s.reg i) 7 1 (b2n (s.ser.ag.get n).fallback))
      | 6 => some (s.ser.ag.get n).ptr
      | 7 => some (s.summary n)
      | _ => none
  | 0x04 =>
    if i == 0x402 then some (s.fab.seq.toNat % 65536)
    else if i == 0x403 then some (s.fab.seq.toNat / 65536)
    else if i == Reg.evtUnrouted then some s.fab.unrouted
    else if i == Reg.evtMerged then some s.fab.merged
    else if 0x408 ≤ i then some (s.openWord (i - 0x408)) else none
  | 0x06 => some (s.ringReg a i)
  | 0x07 => some (if absentRing s.part.variant (i - 0x700) then 0 else (s.fab.ring (i - 0x700)).count)
  | 0x08 => if at_ i 0x800 0x30 4 then some (s.chkStat (Fin.ofNat 4 ((i - 0x800) / 0x30))) else none
  | 0x09 => s.tkrReg a i
  | 0x0A => s.tkrReg a i
  | 0x0B => if i == Reg.wdgStat then some (b2n s.life.sWarned + 2 * b2n s.life.eWarned) else none
  | 0x0C =>
    if i == Reg.seqStat then some (s.seq.stat (s.fld i 13 3))
    else if i == Reg.seqPg then some s.seq.pg.toNat
    else if i == Reg.seqDisch then some s.seq.disch.toNat else none
  | 0x0D => if i % 16 == 10 then some (s.seq.railStat (Fin.ofNat 8 ((i - 0xD00) / 16))) else none
  | 0x0E =>
    if i == Reg.cnvStat then some s.cnv.stat
    else if i == Reg.cnvIlimEff then some s.ilimEff
    else if i == Reg.cnvVsysTgt then some s.cnv.tgt
    else if i == Reg.cnvRevI then some s.cnv.revI else none
  | 0x0F => if i % 16 == 1 then some (s.cnv.phases.get (PhaseAt i)).stat else none
  | 0x11 =>
    let x := s.cnv.x.get (portAt i 0x1100 0x80)
    match i % 128 with
    | 0 => some x.stat
    | 4 => some (x.vtgt / 20)
    | 5 => some (x.iset / 50)
    | _ => none
  | 0x12 => if i == Reg.chgStat then some s.chg.stat else none
  | 0x13 =>
    if i == Reg.chgCapL then some s.chg.capL
    else if i == Reg.chgSoc then some (if s.chg.capL == 0 then bits (s.reg i) 0 15 else s.reg i) else none
  | 0x14 =>
    if i == Reg.emgStat then some s.emg.stat
    else if i == Reg.emgElapsed then some (min 65535 s.emg.elapsed)
    else if i == Reg.emgSerial then some (s.emg.serial % 65536) else none
  | 0x15 => if i == Reg.pthStat then some s.pthStat else none
  | 0x17 => s.pdpReg .c1 i
  | 0x19 => s.pdpReg .c2 i
  | 0x1B =>
    if i == Reg.poeStat then some s.pp.poe.stat
    else if i == Reg.poeAlloc then some s.pp.poe.alloc
    else if i == Reg.poeIlim then some s.pp.poe.lim else none
  | 0x1C =>
    if i == Reg.lnkStat then some s.lnk.stat
    else if 0x1C02 ≤ i && i ≤ 0x1C04 then some (bits s.lnk.lead.toNat (16 * (i - 0x1C02)) 16)
    else if i == Reg.lnkBc then some s.lnk.bc.toNat else none
  | 0x1D => some (s.lnk.memberWord (i - 0x1D00))
  | 0x1E =>
    if i == Reg.gthStat then some s.lnk.gthStat
    else if i == Reg.gthGrant then some (match s.lnk.grant with | none => 0 | some (sup, c) => 128 * b2n sup + c)
    else if i == Reg.gthReport then some (s.lnk.offer + 256 * s.lnk.demand) else none
  | 0x1F =>
    if i == Reg.tlmLoad then some s.tlmLoad
    else if i == Reg.tlmHistCount then some (s.tkr.hcount % 65536)
    else if 0x1F10 ≤ i && i % 4 == 1 then some (putBits (s.reg i) 0 1 (b2n (s.tlm.os.get (Fin.ofNat 4 ((i - 0x1F10) / 4))).busy))
    else none
  | 0x22 =>
    if i == Reg.calStat then some s.cal.stat
    else if 0x2220 ≤ i then
      let r : Fin 4 := Fin.ofNat 4 ((i - 0x2220) / 2)
      some (if i % 2 == 0 then (s.cal.coef.p1.get r).toNat else (s.cal.coef.p2.get r).toNat)
    else none
  | b =>
    if 0x24 ≤ b && b < 0x2C then s.agtReg (Fin.ofNat 4 ((b - 0x24) / 2)) (i - 0x2400 - 0x200 * ((b - 0x24) / 2)) else none

/-- A register that no agent's protection limits: its live view or its stored value; absent units read 0 (R11, R36, R128). -/
def State.peek (s : State) (a : Agent) (i : Nat) : Nat :=
  if !implemented i || absentReg s.part.variant i then 0
  else clearBits (((s.live a i).getD (s.reg i)) % 65536) (absentBits s.part.variant i)

/-! Status balls. -/

/-- FAULT_N low in ACTIVE (R56) and in HOLD (R54, R55). -/
def State.faultLow (s : State) : Bool :=
  match s.mode with
  | .hold => s.straps.bad || s.life.wakeFailed
  | .active =>
    s.straps.bad || s.fallback || s.chg.st == .fault || s.seq.latch || s.seq.state == .stuck || decide (s.cnv.healthyCount ≤ 1)
      || !(fin4.any s.unitUsable) || s.tkr.free.isEmpty
  | _ => false

/-- HOLD_N low (R54). -/
def State.holdLow (s : State) : Bool := s.mode == .hold

/-- WAKE_N driven low by the part. -/
def State.wakeLow (s : State) : Bool := s.life.pulse

/-- ALERT_N low (R54, R443). -/
def State.alertOut (s : State) : Bool := s.active && s.ser.alert

/-- The gate pair of an input on: only the connected input's is (R13, R15). -/
def State.gateOn (s : State) (i : InputId) : Bool := s.pp.conn == some i

/-- BATG drives the battery FET, fully or linear (R146, R149). -/
def State.batgOn (s : State) : Bool := s.pp.batfet != .off

/-- HSG drives the hot-swap MOSFET (R120). -/
def State.hsgOn (s : State) : Bool := s.pp.poe.hsg != .off

/-- DSCn high: VBUS is discharged (R365). -/
def State.dscHigh (s : State) (p : Port) : Bool := (s.pdp.get p).discharging

/-- An EN ball high (R54, R295). -/
def State.enHigh (s : State) (k : Rail) : Bool :=
  match s.mode with
  | .off | .ship => false
  | _ => s.seq.en.get k

end Sys2Proof.Machine
end

