-- ==== Sys2Proof/Machine/Store.lean ====
section
/-! DEFINITION. The Tack Room's pages, blocks and logs: reading, programming, erasing and retiring, the JOURNAL with its
seals, TESTS and HISTORY, slots and their markers (14). -/

namespace Sys2Proof.Machine

/-! Pages. A page number is a store byte address over 256. -/

/-- The identity page, block 39. -/
def identityPage : Nat := 39 * 256

/-- A byte of the identity page: MAGIC, UID, and what the manual names no value for. -/
def identityAt (p : Part) (o : Nat) : Byte :=
  if o < 4 then ([0x49, 0x44, 0x4E, 0x54] : List Byte).getD o 0
  else if 8 ≤ o && o < 14 then BitVec.ofNat 8 (bits p.uid.toNat (8 * (o - 8)) 8)
  else if 0x80 ≤ o && o < 0xC0 then (ecdsaPublic deviceKey).getD (o - 0x80) 0
  else Config.identityByte o

/-- 256 bytes of a page, erased bytes 0xFF. -/
def State.page (s : State) (pg : Nat) : List Byte :=
  if pg == identityPage then (List.range 256).map (identityAt s.part) else Memory.read eraseByte s.tkr.store (256 * pg) 256

/-- The page does not read erased (R641). -/
def Tkr.programmed (t : Tkr) (pg : Nat) : Bool := t.prog.contains pg || pg == identityPage

def Tkr.isBad (t : Tkr) (pg : Nat) : Bool := t.bad.contains pg

/-- A page programmed whole (R533). -/
def Tkr.program (t : Tkr) (pg : Nat) (bs : List Byte) : Tkr :=
  { t with store := Memory.write eraseByte t.store (256 * pg) (padTo 256 bs), prog := t.prog.filter (· != pg) ++ [pg] }

/-- Every page of block b from page lo on reads erased. -/
def Tkr.clear (t : Tkr) (b : Nat) : Tkr :=
  { t with store := t.store.filter fun c => c.1 / 65536 != b, prog := t.prog.filter fun p => p / 256 != b,
           bad := t.bad.filter fun p => p / 256 != b, weak := t.weak.erase b, worn := t.worn.erase b }

def eraseCount (t : Tkr) (phys : Nat) : Nat := SMap.get (fun _ => 0) t.erases phys

/-- The free spare of the lowest erase count, lowest block first among equals (after R559, log 8). -/
def bestSpare (t : Tkr) : Option Nat :=
  match t.free with
  | [] => none
  | b :: bs => some (bs.foldl (fun m x => if eraseCount t x < eraseCount t m then x else m) b)

/-- The ring partitions whose blocks R559 drops. -/
def ringBlock (b : Nat) : Bool := (48 ≤ b && b < 176) || (208 ≤ b && b < 784)

/-! The JOURNAL buffer. -/

/-- An entry arises (R549); its time is 0 while TIME_VALID is 0. -/
def State.journalAs (s : State) (typ origin : Nat) (data : List Byte) : State :=
  { s with tkr := { s.tkr with jbuf := s.tkr.jbuf ++ [⟨if s.rtcValid then s.rtc else 0, typ, origin, data⟩] } }

def State.journal (s : State) (typ : Nat) (data : List Byte) : State := s.journalAs typ 0 data

def JEntry.bytes (e : JEntry) (serial : Nat) : List Byte :=
  leBytes 4 serial ++ leBytes 4 e.sec ++ leBytes 2 e.typ ++ leBytes 1 e.origin ++ [0] ++ padTo 20 e.data

/-! Erasure and retirement. -/

/-- TKR_SPARE_LOW and TKR_SPARE_OUT as the free spares fall (R559). -/
def State.spareCheck (s : State) : State :=
  let n := s.tkr.free.length
  let s1 := s.postIf (n ≤ 8 && !s.tkr.spareLow) 460
  let s2 := s1.postIf (n == 0 && !s.tkr.spareOut) 461
  { s2 with tkr := { s2.tkr with spareLow := decide (n ≤ 8), spareOut := n == 0 } }

/-- Block b leaves use (R557, R559). Its content stays readable unless `keep` is false; a page found uncorrectable is
erased on the spare. -/
def State.retire (s : State) (b cause : Nat) (keep : Bool) : State :=
  match bestSpare s.tkr with
  | some sp =>
    let t := if keep then { s.tkr with store := s.tkr.store.filter (fun c => !(c.1 / 65536 == b && s.tkr.isBad (c.1 / 256))),
                                       prog := s.tkr.prog.filter (fun p => !(p / 256 == b && s.tkr.isBad p)),
                                       bad := s.tkr.bad.filter (fun p => p / 256 != b) } else s.tkr.clear b
    let t1 := { t with map := SMap.set id t.map b sp, free := t.free.erase sp, retired := t.retired + 1, weak := t.weak.erase b,
                       worn := t.worn.erase b }
    ((({ s with tkr := t1 }).journal 0x0040 (leBytes 2 b ++ leBytes 1 cause)).post 459).spareCheck
  | none =>
    if ringBlock b then
      let t := s.tkr.clear b
      (({ s with tkr := { t with dropped := t.dropped ++ [b], retired := t.retired + 1 } }).journal 0x0040 (leBytes 2 b ++ leBytes 1 cause)).post 459
    else s

/-- Block b erased; one that holds an uncorrectable page is retired in place of the erase (R557). -/
def State.eraseBlk (s : State) (b : Nat) : State :=
  if s.tkr.bad.any fun p => p / 256 == b then s.retire b 4 false
  else
    let t := s.tkr.clear b
    let phys := SMap.get id t.map b
    { s with tkr := { t with erases := SMap.set (fun _ => 0) t.erases phys (eraseCount t phys + 1) } }

/-- A program that failed verification twice: the block is retired and TKR_WRITE_FAIL posts (R541, R557, R562). -/
def State.writeFail (s : State) (b : Nat) : State := (s.retire b 2 true).post 466

def State.program (s : State) (pg : Nat) (bs : List Byte) : State := { s with tkr := s.tkr.program pg bs }

/-- A block holds a programmed page. -/
def Tkr.inUse (t : Tkr) (b : Nat) : Bool := t.prog.any fun p => p / 256 == b

/-! Log rings. A head is a page index inside its partition. -/

/-- The next head at or after h whose block is not dropped: at a block boundary a dropped block is skipped. -/
def skipDropped (t : Tkr) (first blocks : Nat) : Nat → Nat → Nat
  | 0, h => h
  | n + 1, h => if t.dropped.contains (first + h / 256) then skipDropped t first blocks n ((h / 256 + 1) % blocks * 256) else h

/-- The page at or after head h where the log that starts at block `first` goes on, after the ring erase of R551; a block
that its erase drops from the ring is passed over (R559). -/
def State.logFrom (s : State) (first blocks : Nat) : Nat → Nat → State × Nat
  | 0, h => (s, h)
  | n + 1, h0 =>
    let h := skipDropped s.tkr first blocks blocks h0
    let b := first + h / 256
    if h % 256 == 0 && s.tkr.inUse b then
      let s1 := s.eraseBlk b
      if s1.tkr.dropped.contains b then s1.logFrom first blocks n h else (s1, h)
    else (s, h)

def State.logPage (s : State) (first blocks head : Nat) : State × Nat := s.logFrom first blocks blocks head

/-! JOURNAL pages and seals (R549, R551, R552). -/

/-- Entries with their serials from n on. -/
def numbered (n : Nat) : List JEntry → List (List Byte)
  | [] => []
  | e :: es => e.bytes (n % 2 ^ 32) :: numbered (n + 1) es

/-- One JOURNAL page of the first eight buffered entries; unused slots have TYPE 0. -/
def State.journalPage (s : State) : State :=
  if s.tkr.jbuf.isEmpty then s
  else
    let es := s.tkr.jbuf.take 8
    let recs := numbered (s.tkr.jserial + 1) es
    let (s1, h) := s.logPage 48 128 s.tkr.jhead
    let t := s1.tkr.program (48 * 256 + h) (recs.flatten ++ List.replicate 256 0)
    { s1 with tkr := { t with jbuf := t.jbuf.drop es.length, jserial := t.jserial + es.length, jhead := (h + 1) % 32768,
                              jsince := t.jsince + es.length, chainFrom := t.chainFrom ++ recs.flatten } }

/-- Pages until the buffer is empty. -/
def State.journalFlush (s : State) : Nat → State
  | 0 => s
  | n + 1 => if s.tkr.jbuf.isEmpty then s else s.journalPage.journalFlush n

/-- The seal page (14, Seal page). -/
def State.sealBytes (s : State) (chain : List Byte) : List Byte :=
  let first := s.tkr.jserial + 1 - s.tkr.jsince
  let body := ([0x53, 0x45, 0x41, 0x4C, 0x01, 0x00, 0x00, 0x00] : List Byte) ++ leBytes 4 (s.tkr.sealNo + 1) ++ leBytes 6 s.part.uid.toNat
    ++ [0, 0] ++ leBytes 4 first ++ leBytes 4 s.tkr.jserial ++ leBytes 4 s.rtc ++ s.tkr.chain ++ chain ++ List.replicate 96 0
  body ++ deviceSign (sha256 body)

/-- A seal: the buffered entries are programmed first, then the seal page; TKR_SEALED posts (R549, R552). -/
def State.sealNow (s : State) : State :=
  let s1 := s.journalFlush (s.tkr.jbuf.length + 1)
  let chain := sha256 (s1.tkr.chain ++ s1.tkr.chainFrom)
  let bs := s1.sealBytes chain
  let (s2, h) := s1.logPage 48 128 s1.tkr.jhead
  let t := s2.tkr.program (48 * 256 + h) bs
  { s2 with tkr := { t with jhead := (h + 1) % 32768, sealNo := t.sealNo + 1, chain := chain, chainFrom := [], jsince := 0 } }.post 462

/-- A JOURNAL page, and the seal that every 256 entries bring. -/
def State.journalProgram (s : State) : State :=
  let s1 := s.journalPage
  if 256 ≤ s1.tkr.jsince then s1.sealNow else s1

/-! TESTS. -/

def testsPage (i : Nat) : Nat := 176 * 256 + i

/-- Readable test records, in page order: page and content. -/
def State.testRecords (s : State) : List (Nat × List Byte) :=
  ((s.tkr.prog.filter fun p => 176 * 256 ≤ p && p < 208 * 256 && !s.tkr.isBad p).map fun p => (p, s.page p)).filter
    fun r => r.2.take 4 == [0x54, 0x45, 0x53, 0x54]

def recKind (r : List Byte) : Nat := leNat (slice r 6 1)
def recType (r : List Byte) : Nat := leNat (slice r 7 1)
def recSerial (r : List Byte) : Nat := leNat (slice r 8 4)
def recOutcome (r : List Byte) : Nat := leNat (slice r 0x2C 1)

/-- A record that produced a learned capacity: the CLOSE of a DURATION test that ran to an outcome (R249, R250). -/
def carriesCap (r : List Byte) : Bool := recKind r == 2 && recType r == 2 && 1 ≤ recOutcome r && recOutcome r ≤ 6

/-- The latest by serial of the records that satisfy p. -/
def State.latestRecord (s : State) (p : List Byte → Bool) : Option (Nat × List Byte) :=
  (s.testRecords.filter fun r => p r.2).foldl (fun m r => match m with
    | none => some r
    | some q => if recSerial q.2 ≤ recSerial r.2 then some r else some q) none

/-- C_L at a boot (R250). -/
def State.storedCap (s : State) : Nat :=
  match s.latestRecord carriesCap with
  | none => s.reg Reg.chgCapNom
  | some r => leNat (slice r.2 0x3E 2)

/-- A START record without a CLOSE record (R288). -/
def State.openRecord (s : State) : Option (List Byte) :=
  match s.latestRecord (fun r => recKind r == 1) with
  | none => none
  | some r => if s.testRecords.any fun q => recKind q.2 == 2 && recSerial q.2 == recSerial r.2 then none else some r.2

/-- The TESTS page, from 0, of the next record: never in the block that holds the latest CAP_AFTER (R553). -/
def State.testHead (s : State) : Nat :=
  let keep := (s.latestRecord carriesCap).map fun r => r.1 / 256
  let h0 := s.tkr.thead
  if h0 % 256 == 0 && keep == some (176 + h0 / 256) then (h0 + 256) % 8192 else h0

/-- No record can be committed: the block that must be erased for it holds an uncorrectable page and no spare can take its
place, so that it stays in use (R533, R557, R559). -/
def State.testsStuck (s : State) : Bool :=
  let b := 176 + s.testHead / 256
  s.testHead % 256 == 0 && s.tkr.inUse b && (s.eraseBlk b).tkr.inUse b

/-- A test record goes to the next TESTS page; a block with records is erased first (R553). -/
def State.testProgram (s : State) (bs : List Byte) : State :=
  let h := s.testHead
  let b := 176 + h / 256
  let wrap := h % 256 == 0 && s.tkr.inUse b
  let s1 := if wrap then (s.eraseBlk b).post 464 else s
  { s1 with tkr := { s1.tkr.program (testsPage h) bs with thead := (h + 1) % 8192 } }

/-! HISTORY. -/

/-- A page of the first eight buffered summaries; TLM_HISTORY posts. -/
def State.historyPage (s : State) : State :=
  if s.tkr.hbuf.isEmpty then s
  else
    let (s1, h) := s.logPage 208 576 s.tkr.hhead
    let t := s1.tkr.program (208 * 256 + h) ((s1.tkr.hbuf.take 8).flatten ++ List.replicate 256 0)
    { s1 with tkr := { t with hbuf := t.hbuf.drop 8, hhead := (h + 1) % 147456 } }.post 470

def State.historyFlush (s : State) : Nat → State
  | 0 => s
  | n + 1 => if s.tkr.hbuf.isEmpty then s else s.historyPage.historyFlush n

/-! Slots and markers (R542, R543). -/

/-- The generation of the marker of the slot that starts at block b. -/
def State.marker (s : State) (b : Nat) : Option Nat :=
  let pg := b * 256 + 255
  let m := s.page pg
  if s.tkr.programmed pg && !s.tkr.isBad pg && m.take 4 == [0x41, 0x43, 0x54, 0x56] then some (leNat (slice m 4 4)) else none

/-- The marker that activates slot b against slot other. -/
def State.activate (s : State) (b other : Nat) : State :=
  let g := match s.marker other with | some g => g + 1 | none => 1
  s.program (b * 256 + 255) (([0x41, 0x43, 0x54, 0x56] : List Byte) ++ leBytes 4 g ++ List.replicate 8 0 ++ List.replicate 240 0xFF)

/-- Of two slots, the active one: valid and of the higher generation; A where they tie. -/
def pickSlot (a b : Option Nat) : Option Bool :=
  match a, b with
  | none, none => none
  | some _, none => some true
  | none, some _ => some false
  | some x, some y => some (decide (y ≤ x))

/-- A record's limits lie in range (R107). -/
def limitsOk (r : List Byte) : Bool :=
  let w := fun o => leNat (slice r o 2)
  800 ≤ w 0x58 && w 0x58 ≤ 3000 && 2 ≤ w 0x5A && w 0x5A ≤ 320 && 450 ≤ w 0x5C && w 0x5C ≤ 1600 && 450 ≤ w 0x5E && w 0x5E ≤ 1600
    && w 0x5C ≤ w 0x5E && w 0x62 ≤ 240 && leNat (slice r 0x68 1) ≤ 8 && leNat (slice r 0x69 1) ≤ 6

/-- No RIGHTS code is 0b11. -/
def rightsOk (r : List Byte) : Bool := (slice r 0x10 64).all fun b => (List.range 4).all fun j => bits b.toNat (2 * j) 2 != 3

/-- BIND matches the part (R107, R108). -/
def bindOk (p : Part) (r : List Byte) : Bool :=
  slice r 8 8 == List.replicate 8 0xFF || slice r 8 8 == leBytes 6 p.uid.toNat ++ [0, 0]

/-- The checks STAGE makes (R544). -/
def stageOk (p : Part) (r : List Byte) : Bool :=
  r.take 6 == [0x50, 0x52, 0x4F, 0x54, 0x01, 0x00] && bindOk p r && sha256 (slice r 0x80 64) == p.keyHash
    && ecdsaVerify (slice r 0x80 64) (slice r 0xC0 64) (sha256 (r.take 0xC0))

/-- R108 in full. -/
def recordOk (p : Part) (r : List Byte) : Bool :=
  r.length == 256 && slice r 7 1 == [0] && leNat (slice r 0x60 1) < 16 && leNat (slice r 0x61 1) < 2
    && slice r 0x6A 22 == List.replicate 22 0 && rightsOk r && limitsOk r && stageOk p r

/-- VERSION of a record. -/
def recVersion (r : List Byte) : Nat := leNat (slice r 6 1)

/-- The record in page 0 of block b, when it is readable and valid and not below the fuse floor (R108, R109). -/
def State.slotRecord (s : State) (b : Nat) : Option (List Byte) :=
  let pg := b * 256
  if s.tkr.programmed pg && !s.tkr.isBad pg && recordOk s.part (s.page pg) && s.life.fuseFloor ≤ recVersion (s.page pg)
  then some (s.page pg) else none

/-- Protection slot b is valid, with its generation. -/
def State.protGen (s : State) (b : Nat) : Option Nat := if (s.slotRecord b).isSome then s.marker b else none

/-- n bytes of the store from byte address a. -/
def State.storeBytes (s : State) (a n : Nat) : List Byte := (List.range n).map fun i => (s.page ((a + i) / 256)).getD ((a + i) % 256) 0xFF

/-- n bytes from a, page by page (for a multiple of 256). -/
def State.storePages (s : State) (pg : Nat) : Nat → List Byte
  | 0 => []
  | n + 1 => s.page pg ++ s.storePages (pg + 1) n

/-- A bank's format (R545): its pair count when MAGIC, FORMAT, P and CRC-32 are right. -/
def State.bankPairs (s : State) (b : Nat) : Option Nat :=
  let h := s.page (b * 256)
  let p := leNat (slice h 6 2)
  let n := (4 * p + 255) / 256
  if h.take 6 == [0x43, 0x4F, 0x4E, 0x46, 0x01, 0x00] && 1 ≤ p && p ≤ 16256
      && (slice h 0x0C 244) == List.replicate 244 0
      && !(List.range (n + 1)).any (fun i => s.tkr.isBad (b * 256 + i))
      && leNat (slice h 8 4) == algCrc32.value ((s.storePages (b * 256 + 1) n).take (4 * p))
  then some p else none

def State.bankGen (s : State) (b : Nat) : Option Nat := if (s.bankPairs b).isSome then s.marker b else none

/-- The active configuration bank's block. -/
def State.activeBank (s : State) : Option Nat := (pickSlot (s.bankGen 35) (s.bankGen 36)).map fun a => if a then 35 else 36

/-- The active protection slot's block. -/
def State.activeProt (s : State) : Option Nat := (pickSlot (s.protGen 32) (s.protGen 33)).map fun a => if a then 32 else 33

/-- A patch header is sound (R547): MAGIC, FORMAT, body length, body hash, PUBKEY and SIG. -/
def State.patchOk (s : State) (pg : Nat) : Bool :=
  let h := s.page pg
  let n := leNat (slice h 8 4)
  h.take 6 == [0x50, 0x54, 0x43, 0x48, 0x01, 0x00] && n ≤ 32768 && sha256 ((s.storePages (pg + 1) ((n + 255) / 256)).take n) == slice h 0x10 32
    && sha256 (slice h 0x80 64) == s.part.keyHash && ecdsaVerify (slice h 0x80 64) (slice h 0xC0 64) (sha256 (h.take 0xC0))

/-- VERSION of the patch whose header is page pg. -/
def State.patchVersion (s : State) (pg : Nat) : Nat := leNat (slice (s.page pg) 6 2)

/-- The generation of a sound patch slot. -/
def State.patchGen (s : State) (b : Nat) : Option Nat := if (s.marker b).isSome && s.patchOk (b * 256) then s.marker b else none

/-- The active patch slot's first block. -/
def State.activePatch (s : State) : Option Nat := (pickSlot (s.patchGen 0) (s.patchGen 16)).map fun a => if a then 0 else 16

end Sys2Proof.Machine
end

