-- ==== Sys2Proof/Machine/Formula.lean ====
section
/-! DEFINITION. The quantities the manual computes from settings and measurements: charge targets, limits, budgets,
advertised currents, the reserve, the Girth grants. -/

namespace Sys2Proof.Machine

/-! Charger; voltages in 10 mV, currents in mA. -/

/-- The voltage drop and current fraction of a zone (06, Temperature registers). -/
def State.zoneDrop (s : State) (z : Zone) : Nat :=
  match z with
  | .cool => s.fld Reg.chgZoneCool 0 5
  | .normal => s.fld Reg.chgZoneNormal 0 5
  | .warm => s.fld Reg.chgZoneWarm 0 5
  | _ => 0

def State.zoneFrac (s : State) (z : Zone) : Nat :=
  match z with
  | .cool => s.fld Reg.chgZoneCool 8 4
  | .normal => s.fld Reg.chgZoneNormal 8 4
  | .warm => s.fld Reg.chgZoneWarm 8 4
  | _ => 0

/-- A limit register that reads 0 applies no limit (R111, R602). -/
def limited (v lim : Nat) : Nat := if lim == 0 then v else min v lim

/-- VCHG_eff (06). -/
def State.vchgEff (s : State) : Nat := limited (s.reg Reg.chgVchg) (s.reg Reg.sysLimChgv) - s.cells * s.zoneDrop s.chg.zone

/-- ICHG_eff in mA. -/
def State.ichgEff (s : State) : Nat := limited (s.reg Reg.chgIchg) (s.reg Reg.sysLimChgi) * 25 * s.zoneFrac s.chg.zone / 8

/-- n × VRECOV, n × VPRE, and VCHG_eff − n × VRECHG. -/
def State.vRecov (s : State) : Nat := s.cells * s.reg Reg.chgVrecov
def State.vPre (s : State) : Nat := s.cells * s.reg Reg.chgVpre
def State.vRechg (s : State) : Nat := s.vchgEff - s.cells * s.reg Reg.chgVrechg

/-- The charge current R219 allows through a linear battery FET, in mA; voltages in mV. -/
def State.plinLimit (s : State) (vsys vbat : Nat) : Nat := s.reg Reg.chgPlin * 250000 / (vsys - vbat)

/-- n × a per-cell threshold in mV. -/
def State.packMv (s : State) (perCell : Nat) : Nat := s.cells * perCell * 10

/-- CHG_RESERVE_MIN (R247); I_ref in mA. -/
def reserveMin (qrem iref : Nat) : Nat := if iref == 0 then 65535 else min 65535 (qrem * 60 / iref)

/-- I_ref (R247). -/
def State.iRef (s : State) (avgDis : Nat) : Nat :=
  let r := s.reg Reg.chgIref * 25
  if s.emg.emergency then max r avgDis else r

/-! PoE. -/

/-- PD power of a class in 0.1 W (R116), and the default limit in 10 mA. -/
def classPower : Nat → Nat
  | 1 => 38 | 2 => 64 | 3 => 130 | 4 => 255 | 5 => 400 | 6 => 510 | 7 => 620 | 8 => 713 | _ => 0

def classPowerMw : Nat → Nat
  | 1 => 3840 | 2 => 6490 | 3 => 13000 | 4 => 25500 | 5 => 40000 | 6 => 51000 | 7 => 62000 | 8 => 71300 | _ => 0

def classLimit : Nat → Nat
  | 1 => 9 | 2 => 15 | 3 => 30 | 4 => 60 | 5 => 94 | 6 => 120 | 7 => 145 | 8 => 167 | _ => 0

/-- The class a CLS resistor requests, in ohms (R116): none where it lies in no window. -/
def clsOf (ohm : Nat) : Option Nat :=
  let inWin : Nat → Bool := fun nom => nom * 97 ≤ ohm * 100 && ohm * 100 ≤ nom * 103
  let rows : List (Nat × Nat) := [(15000, 1), (24900, 2), (34800, 3), (45300, 4), (54900, 5), (64900, 6), (75000, 7), (84500, 8)]
  (rows.find? fun r => inWin r.1).map (·.2)

/-- The assigned class (R117). -/
def assignedClass (events requested : Nat) : Nat :=
  if events ≤ 1 then min requested 3 else if events ≤ 3 then min requested 4 else if events == 4 then min requested 6 else requested

/-- The class signature a requested class shows in event n (R116). -/
def classSignature (requested n : Nat) : Nat := if n ≤ 2 then min requested 4 else if requested ≤ 4 then requested else requested - 5

/-- P_alloc in mW (R124); POE_ALLOC shows it in whole 0.1 W. -/
def State.pAlloc (s : State) : Nat :=
  let p := classPowerMw s.pp.poe.assigned
  if s.reg Reg.poeDllAlloc == 0 then p else min p (s.reg Reg.poeDllAlloc * 100)

/-- The PoE limit in 10 mA at VPP in mV (R125). -/
def State.poeLimit (s : State) (mv : Nat) : Nat := if mv == 0 then s.reg Reg.pthIlimPoe else min (s.reg Reg.pthIlimPoe) (s.pAlloc * 100 / mv)

/-! Straps. -/

/-- A VSAFE or CHEM resistance in ohms reads code c within 3 % of 10c + 5 kilohms (R61). -/
def strapCode (ohm : Option Nat) : Option Nat :=
  match ohm with
  | none => none
  | some r => (List.range 10).find? fun c => (10 * c + 5) * 1000 * 97 ≤ r * 100 && r * 100 ≤ (10 * c + 5) * 1000 * 103

/-- The level that R57 gives a connection of an ADR ball; none where R57 does not describe it. -/
def adrRead : AdrTie → Option Level
  | .agnd r => if r ≤ 1000 then some .l else none
  | .vdda r => if r ≤ 1000 then some .h else none
  | .opened leak => if leak < 1000 then some .m else none

/-- The level an ADR ball reads: R57's, and a free one under any other connection. -/
def adrLevel (n : Nat) (t : AdrTie) : Level := (adrRead t).getD (Config.adrLevel n t)

def levelOf : Level → Nat
  | .l => 0
  | .m => 1
  | .h => 2

/-- The base address B (R59). -/
def State.base (s : State) : Nat := 0x40 + 4 * s.straps.adr

/-! Converters. -/

/-- R160: by the ratio of the phase's input to its output. -/
def cycleMode (vin vout : Nat) : CycleMode :=
  if 115 * vout ≤ 100 * vin then .buck else if 100 * vin ≤ 87 * vout then .boost else .fourSwitch

/-- Se in mV per microsecond (R165). -/
def slopeRamp (code : Nat) : Nat := 5 * (code + 1)

/-- The peak command of V_COMP in mV, at the sense input in uV (R164). -/
def peakUv (vcomp : Nat) : Int := ((vcomp : Int) - 500) * 100

/-- R164, R165: at `ns` into the cycle CSP - CSN and the slope ramp, which started with the cycle, reach the peak command. -/
def onEnds (slope vcomp : Nat) (at_ : Nat × Int) : Bool := decide (peakUv vcomp ≤ at_.2 + ((slopeRamp slope * at_.1 : Nat) : Int))

/-- The phase after the instants of its cycle: on until R164 ends the on-interval, then its synchronous switch until, with
diode emulation, its current reaches zero (R175). -/
def intervalOf (de : Bool) (slope vcomp : Nat) : Interval → List (Nat × Int) → Interval
  | iv, [] => iv
  | .on, x :: xs => intervalOf de slope vcomp (if onEnds slope vcomp x then .sync else .on) xs
  | .sync, x :: xs => intervalOf de slope vcomp (if de && decide (x.2 ≤ 0) then .idle else .sync) xs
  | iv, _ :: _ => iv

/-- A whole cycle, skipped when its peak command lies below `floor` mV (R176). -/
def cycleRun (c : Cycle) (skip de : Bool) (floor slope : Nat) : Interval :=
  if skip && decide (peakUv c.vcomp < (floor : Int) * 1000) then .skip else intervalOf de slope c.vcomp .on c.samples

/-- A switching frequency code in kHz (R171, R208). -/
def fswKHz : Nat → Nat
  | 0 => 250 | 1 => 300 | 2 => 400 | 3 => 500 | 4 => 600 | 5 => 750 | _ => 1000

/-- The main converter's input current limit in 10 mA at its input voltage (R161). -/
def lowInputLimit (mv lim : Nat) : Nat := if mv < 9000 then min lim 320 else lim

/-- The effective current limit of a port converter in mA at a target in mV (R202). -/
def State.xLimit (s : State) (iset mv : Nat) : Nat :=
  if mv == 0 then iset else min iset (min (60000000 / mv) (s.reg Reg.sysLimPort * 250000 / mv))

/-! Ports. -/

/-- The current advertised for a field of 50 mA steps at a voltage in mV, in mA, rounded down to 50 mA (R343). -/
def State.advertised (s : State) (fieldI mv : Nat) : Nat :=
  min (fieldI * 50) (min (60000000 / mv) (s.reg Reg.sysLimPort * 250000 / mv)) / 50 * 50

/-- PORT_SRC_MAX admits the source role (R344): at least 2.5 W. -/
def State.mayBeSource (s : State) : Bool := decide (10 ≤ s.reg Reg.sysLimPort)

/-- Current of a RP_SEEN code in 10 mA (R339). -/
def rpLim : Nat → Nat
  | 1 => 50 | 2 => 150 | 3 => 300 | _ => 0

/-- Contract power in mW. -/
def Contract.mw (c : Contract) : Nat := c.mv * c.ma / 1000

/-- Shares floors (R32) as a denominator. -/
def floorDen : Nat → Nat
  | 0 => 64 | 1 => 32 | 2 => 16 | 3 => 8 | _ => 4

/-- The floors that act on one unit, as numerators over 64, scaled so that together they come to at most 1/2 (R33):
numerator and denominator of each. -/
def scaledFloors (codes : List Nat) : List (Nat × Nat) :=
  let ns := codes.map fun c => 64 / floorDen c
  let t := ns.sum
  ns.map fun n => if t ≤ 32 then (n, 64) else (n * 32, t * 64)

/-! Girth (R395). -/

/-- A report as the grant computation uses it. -/
structure Report where
  short : Nat
  id : BitVec 48
  offer : Nat
  demand : Nat
  soc : Nat
  reserve : Nat
deriving DecidableEq, Repr

/-- Insertion into a list ordered by `le`. -/
def insertBy (le : Report → Report → Bool) (r : Report) : List Report → List Report
  | [] => [r]
  | x :: xs => if le r x then r :: x :: xs else x :: insertBy le r xs

def sortBy (le : Report → Report → Bool) (rs : List Report) : List Report := rs.foldr (insertBy le) []

/-- Ascending reserve, then ascending node ID. -/
def byReserve (a b : Report) : Bool := a.reserve < b.reserve || (a.reserve == b.reserve && a.id ≤ b.id)

/-- Descending SOC, then ascending node ID; an SOC that is not valid ranks as 0. -/
def bySoc (a b : Report) : Bool :=
  let f := fun r : Report => if r.soc == 0xFF then 0 else r.soc
  f b < f a || (f a == f b && a.id ≤ b.id)

/-- Imports to demanders in order, out of a budget in 100 mA. -/
def imports (cap : Nat) : List Report → List (Nat × Nat)
  | [] => []
  | r :: rs => let g := min r.demand cap; (r.short, g) :: imports (cap - g) rs

/-- Supplies from suppliers in order until the total is met. -/
def supplies (total : Nat) : List Report → List (Nat × Nat)
  | [] => []
  | r :: rs => let g := min r.offer total; (r.short, g) :: supplies (total - g) rs

/-- The grants of a round and whether the imports fall short of the demand (R395). -/
def computeGrants (zoneMax : Nat) (rs : List Report) : List GrantEntry × Bool :=
  let dem := sortBy byReserve (rs.filter fun r => r.demand != 0)
  let sup := sortBy bySoc (rs.filter fun r => r.offer != 0)
  let budget := min ((sup.map (·.offer)).sum) zoneMax
  let im := imports (budget * 100 / 105) dem
  let got := (im.map (·.2)).sum
  let su := supplies ((got * 105 + 99) / 100) sup
  (((im.filter fun g => g.2 != 0).map fun g => ⟨g.1, false, g.2⟩) ++ ((su.filter fun g => g.2 != 0).map fun g => ⟨g.1, true, g.2⟩),
   decide (got < (dem.map (·.demand)).sum))

end Sys2Proof.Machine
end

