-- ==== Sys2Proof/Machine/Arbiter.lean ====
section
/-! DEFINITION. The two-class arbiters of the shared units: who is granted a unit, and the share floors of the background
activities that wait (01, R26 to R33). -/

namespace Sys2Proof.Machine

/-! Share floors. -/

/-- The floors of the activities that share a unit: activity, numerator, denominator (R32, R33, R588). -/
def State.floors (s : State) (acts : List Nat) : List (Nat × Nat × Nat) :=
  acts.zip (scaledFloors (acts.map fun a => s.fld (Reg.bgFloorA + a) 0 3))

/-- After one more grant of other work an activity that has waited k grants and has n atoms to go still finds its share (R31). -/
def floorKept (num den n k : Nat) : Bool := decide ((k + 1) * num ≤ n * (den - num))

/-- The next grant belongs to an activity that has waited k grants (R31). -/
def floorDue (num den k : Nat) : Bool := decide (den ≤ (k + 1) * num)

/-! One arbiter. -/

/-- Activity a waits on the unit. -/
def Arb.await (x : Arb) (a : Nat) : Arb := if x.waits.any (·.1 == a) then x else { x with waits := x.waits ++ [(a, 0)] }

/-- A grant, to activity a or to the foreground; `more` tells that a foreground request waits as it ends. -/
def Arb.grant (x : Arb) (a : Option Nat) (more : Bool) : Arb :=
  { past := more, waits := (x.waits.filter fun w => some w.1 != a).map fun w => (w.1, w.2 + 1) }

/-- The unit may be granted to a, or to the foreground where a is none: no other activity's floor stands in the way (R31);
`need` gives the atoms that an activity has to go. -/
def Arb.free (x : Arb) (fl : List (Nat × Nat × Nat)) (need : Nat → Nat) (a : Option Nat) : Bool :=
  x.waits.all fun w => some w.1 == a || match fl.find? (·.1 == w.1) with
    | none => true
    | some f => floorKept f.2.1 f.2.2 (need w.1) w.2

/-- The floor of activity a calls for the next grant. -/
def Arb.due (x : Arb) (fl : List (Nat × Nat × Nat)) (a : Nat) : Bool :=
  match fl.find? (·.1 == a), x.waits.find? (·.1 == a) with
  | some f, some w => floorDue f.2.1 f.2.2 w.2
  | _, _ => false

/-- A background atom of activity a may be granted, or is the one in progress: no foreground request waits, none has waited
since before the last atom boundary (R26, R27), or the floor calls for it (R31). -/
def Arb.mayRun (x : Arb) (fl : List (Nat × Nat × Nat)) (need : Nat → Nat) (fg : Bool) (a : Nat) : Bool :=
  x.free fl need (some a) && (!fg || !x.past || x.due fl a)

/-! The measurement ADC: telemetry is activity 0, calibration activity 1. -/

def State.setAdc (s : State) (x : Arb) : State := { s with arb := { s.arb with adc := x } }

/-- Conversions of an instance: 2^AVG, four times as many for IOUT (15, ADC channels). -/
def conversions (cfg : Nat) : Nat := 2 ^ bits cfg 12 3 * (if bits cfg 0 6 == 13 then 4 else 1)

/-- Conversions to go: those of the lowest-numbered instance that is due; 128 for a calibration pass (15). -/
def State.adcNeed (s : State) (a : Nat) : Nat :=
  if a == 0 then match s.tlm.flight with
    | [] => 1
    | f :: fs => conversions (fs.foldl (fun m x => if x.1 < m.1 then x else m) f).2
  else 128

/-- A one-shot waits on the ADC. -/
def State.adcFg (s : State) : Bool := !s.tlm.order.isEmpty

/-- An atom boundary of the ADC: what is due now is served in ascending order from here on (R571). -/
def State.adcBoundary (s : State) : State := { s with tlm := { s.tlm with queued := s.tlm.flight.map (·.1) } }

/-- A foreground job of the ADC, run once no floor stands in the way (R26, R31); `more` tells that another waits. -/
def State.adcJob (s : State) (more : Bool) (f : State → State) : State :=
  if s.arb.adc.free (s.floors [0, 1]) s.adcNeed none then f (s.adcBoundary.setAdc (s.arb.adc.grant none more)) else s

/-- Background work of activity a on the ADC (R26, R27, R31). -/
def State.adcAtom (s : State) (a : Nat) (f : State → State) : State :=
  if s.arb.adc.mayRun (s.floors [0, 1]) s.adcNeed s.adcFg a then f (s.adcBoundary.setAdc (s.arb.adc.grant (some a) s.adcFg))
  else s.setAdc (s.arb.adc.await a)

/-- A conversion of an NTC is queued (R566): a one-shot of channel 24 or 25, or an instance that is due. -/
def State.ntcWanted (s : State) : Bool :=
  let ntc := fun c : Nat => c == 24 || c == 25
  s.tlm.os.toList.any (fun o => o.busy && ntc o.ch) || s.tlm.flight.any fun f => ntc (bits f.2 0 6)

/-- NTCB is on from the moment such a conversion is queued until the last of them is over (R566, log 90). -/
def State.driveNtcb (s : State) : State := { s with tlm := { s.tlm with ntcb := s.ntcWanted } }

/-! The Check units: the self-test is activity 2. -/

def State.setUnit (s : State) (u : UnitId) (c : ChkUnit) : State := { s with chk := { s.chk with units := s.chk.units.set u c } }

def State.setChkArb (s : State) (u : UnitId) (x : Arb) : State := { s with arb := { s.arb with chk := s.arb.chk.set u x } }

/-! The planes of the Tack Room: scrub is activity 3, store upkeep activity 4. -/

def State.setPlane (s : State) (p : Fin 4) (x : Arb) : State := { s with arb := { s.arb with plane := s.arb.plane.set p x } }

/-- The plane of logical block b (R532, R535). -/
def State.planeOf (s : State) (b : Nat) : Fin 4 := Fin.ofNat 4 (s.tkr.phys b)

/-- A running request holds plane p (R538). -/
def State.planeHeld (s : State) (p : Fin 4) : Bool :=
  s.tkr.run.toList.any fun r => r.any fun q => (s.tkr.planes q).contains p.val

/-- An earlier-admitted request of another agent holds or awaits one of these planes (R538). -/
def State.planeTaken (s : State) (a : Agent) (r : Req) : Bool :=
  let mine := s.tkr.planes r
  fin4.any fun b => b != a &&
    (((s.tkr.run.get b).toList.any fun q => (s.tkr.planes q).any mine.contains)
      || ((s.tkr.queue.get b).any fun q => decide (q.no < r.no) && (s.tkr.planes q).any mine.contains))

/-- The request that agent a may start now, but for the background work on its planes (R500, R538). -/
def State.nextRequest (s : State) (a : Agent) : Option Req :=
  match s.tkr.queue.get a with
  | [] => none
  | r :: _ =>
    if (s.tkr.run.get a).isNone && (s.tkr.replies.get a).isEmpty && s.ringFits (2 * a.val + 1) 1 && !s.planeTaken a r
    then some r else none

/-- A foreground request, other than agent a's, waits on plane p. -/
def State.planeFg (s : State) (p : Fin 4) (but : Option Agent) : Bool :=
  fin4.any fun a => some a != but && (s.nextRequest a).any fun r => (s.tkr.planes r).contains p.val

/-- No floor keeps a foreground request from plane p (R31). -/
def State.planeFree (s : State) (p : Fin 4) : Bool := (s.arb.plane.get p).free (s.floors [3, 4]) (fun _ => 1) none

/-- The planes of a request of agent a are granted. -/
def State.grantPlanes (s : State) (a : Agent) (ps : List Nat) : State :=
  (fin4.filter fun p => ps.contains p.val).foldl (fun t p => t.setPlane p ((s.arb.plane.get p).grant none (s.planeFg p (some a)))) s

/-- One page read of the scrub (R26, R27, R555). -/
def State.scrubAtom (s : State) (p : Fin 4) (f : State → State) : State :=
  let x := s.arb.plane.get p
  if !s.planeHeld p && x.mayRun (s.floors [3, 4]) (fun _ => 1) (s.planeFg p none) 3 then f (s.setPlane p (x.grant (some 3) (s.planeFg p none)))
  else s.setPlane p (x.await 3)

def State.setSusp (s : State) (p : Fin 4) (o : Option TkrOp) : State := { s with arb := { s.arb with susp := s.arb.susp.set p o } }

/-- Store upkeep on plane p (R26, R27): a page program or block erase on which a foreground request waits is suspended; it is
resumed, and ends, once none waits or its floor calls for it (log 89). -/
def State.upkeep (s : State) (p : Fin 4) (op : TkrOp) (f : State → State) : State :=
  let x := s.arb.plane.get p
  let fg := s.planeFg p none
  if s.planeHeld p || !x.mayRun (s.floors [3, 4]) (fun _ => 1) fg 4 then s.setPlane p (x.await 4)
  else
    let t := s.setPlane p (x.grant (some 4) fg)
    if fg && !x.due (s.floors [3, 4]) 4 then (t.setPlane p ((x.grant (some 4) fg).await 4)).setSusp p (some op) else f (t.setSusp p none)

end Sys2Proof.Machine
end

