-- ==== Sys2Proof/Machine/Shared.lean ====
section
/-! DEFINITION. What commands of several families do: the rail shutdown, the selector, reverse, the charger's table, the
Link's queue and grants, the close of a test, the end of EMERGENCY. -/

namespace Sys2Proof.Machine

/-- What a step answers. -/
abbrev Out := Host.Outcome State Fault Refusal

/-- A signed value as a 16-bit register. -/
def State.setSigned (s : State) (i : Nat) (v : Int) : State := s.setReg i (bitsOf v 16)

def State.signed (s : State) (i : Nat) : Int := signedOf (s.reg i) 16

/-- CHG_QACC, in 0.01 mAh. -/
def State.qacc (s : State) : Int := signedOf (s.reg32 Reg.chgQacc) 32

/-- The last value of schedule entry e. -/
def State.lastOf (s : State) (e : Nat) : Nat := s.reg (Reg.tlmLastE + e)

/-- A condition of byte 19 of the HISTORY summary holds (R579). -/
def State.histMark (s : State) (b : Nat) : State :=
  { s with tlm := { s.tlm with hist := { s.tlm.hist with flags := s.tlm.hist.flags ||| 2 ^ b } } }

/-- The connected input counts for byte 18 of the summary. -/
def Tlm.sees (t : Tlm) (c : Option InputId) : Tlm :=
  match c with
  | none => t
  | some i => { t with hist := { t.hist with inputs := t.hist.inputs ||| 2 ^ i.ix.val } }

/-! Rail sequencer (08). -/

def highest (e : Eight Bool) : Option Rail := fin8.reverse.find? e.get

def State.railEn (s : State) (k : Rail) : Bool := s.flag Reg.seqEn k.val

/-- Every enabled rail is discharged (R303). -/
def State.allDischarged (s : State) : Bool := fin8.all fun k => !s.railEn k || s.seq.disch.get k

def State.allGood (s : State) : Bool := fin8.all fun k => !s.railEn k || s.seq.pg.get k

/-- Bit b + 2 of SEQ_k_STAT; it holds until CLEAR. -/
def Seq.mark (q : Seq) (k : Rail) (b : Nat) : Seq := { q with bits := q.bits.set k (q.bits.get k ||| 2 ^ b) }

/-- The sequencer enters a state; SEQ_STATE posts when it changes (R331). -/
def State.seqGo (s : State) (st : SeqState) : State :=
  ({ s with seq := { s.seq with state := st } } : State).postIf (s.seq.state != st) 256

/-- Port presentations that lasted until EMERGENCY ended return to normal (R363). -/
def State.releaseCuts (s : State) : State :=
  let f : PortSt → PortSt := fun p => { p with cut := if p.cut == .emergency then .none else p.cut }
  { s with pdp := ⟨f s.pdp.p1, f s.pdp.p2⟩ }

/-- EMERGENCY ends without a posting (R262, R263). -/
def State.emergencyOver (s : State) : State :=
  ({ s with emg := { s.emg with emergency := false, cutoff := false, emgSecs := 0 } } : State).releaseCuts

/-! The selector (04). -/

/-- The setpoints that govern now: the registers in ACTIVE, what the analog path holds otherwise (R154, R155). -/
def State.setpoints (s : State) : Setpoints :=
  if s.active then
    { en := s.reg Reg.pthEn &&& s.fld Reg.sysLimMisc 0 4, prio := s.reg Reg.pthPrio,
      lim := ⟨s.pp.poe.lim, s.reg Reg.pthIlimAux, s.reg Reg.pthIlimC1, s.reg Reg.pthIlimC2⟩,
      floor := ⟨s.reg Reg.pthVfloorPoe, s.reg Reg.pthVfloorAux, s.reg Reg.pthVfloorC1, s.reg Reg.pthVfloorC2⟩,
      vsysMin := s.reg Reg.pthVsysMin, vhead := s.reg Reg.pthVhead, tgt := s.cnv.tgt }
  else s.pp.held

/-- The import in force, in 100 mA. -/
def State.importG (s : State) : Nat := match s.lnk.grant with | some (false, g) => g | _ => 0

/-- R398's rule on AUX: with IMPORT_ONLY it takes an import grant. -/
def State.auxAllowed (s : State) : Bool := !s.active || !s.part.variant.hasLink || !s.flag Reg.gthCfg 0 || s.importG != 0

/-- The Hold defaults of R155 govern the power path; they do from OFF too, where nothing was held before (log 41). -/
def State.underDefaults (s : State) : Bool := s.mode == .hold && (s.life.defaults || s.life.kind == .powerOn && !s.life.booted)

/-- A port input is drawn on only while its port is attached as sink (R127); under the Hold defaults every present input is
eligible, but for the input of a port that sources (R155, log 41). -/
def State.portSinks (s : State) (p : Port) : Bool :=
  s.part.variant.hasPort p
    && (if s.underDefaults then (s.pdp.get p).role != .source else (s.pdp.get p).role == .sink && (s.pdp.get p).swapTo != .source)

/-- An input is eligible (R127, R130, R398). -/
def State.eligible (s : State) (i : InputId) : Bool :=
  bit s.setpoints.en i.ix.val &&
    (match i with
     | .poe => true
     | .aux => s.auxAllowed
     | .c1 => s.portSinks .c1
     | .c2 => s.portSinks .c2)

/-- Rank and fixed order of an input as one number, lowest first (04, Selection and takeover). -/
def State.rankKey (s : State) (i : InputId) : Nat := 4 * bits s.setpoints.prio (2 * i.ix.val) 2 + i.ix.val

/-- The highest-ranked input that is valid and eligible. -/
def State.bestInput (s : State) : Option InputId :=
  (InputId.all.filter fun i => s.isValid i && s.eligible i).foldl
    (fun m i => match m with | none => some i | some j => if s.rankKey i < s.rankKey j then some i else some j) none

/-! The battery FET and the VSYS target (04, VSYS and the battery). -/

/-- States in which charge current flows. -/
def ChgState.charging (st : ChgState) : Bool :=
  st == .recover || st == .precharge || st == .cc || st == .cv || st == .maintain

/-- The charger draws on an input: current flows from VSYS into the battery. -/
def State.chgFlows (s : State) : Bool := s.chg.st.charging && !s.chg.dormantStop && s.pp.conn.isSome && !s.cnv.rev

/-- The VBAT below which a charging FET runs linear, in mV (R149). -/
def State.linearBelow (s : State) : Nat := s.setpoints.vsysMin * 20 - s.setpoints.vhead * 20

/-- A charging FET runs linear: below R149's level, or as R151 keeps VSYS up; the ideal diode of R146 comes first. -/
def State.fetLinear (s : State) : Bool :=
  s.chgFlows && (decide (s.pp.vbat < s.linearBelow) || s.pp.sag) && !(s.pp.supplement && s.batteryCan)

/-- The battery FET: as the charger needs it (R149, R150), else an ideal diode from a battery above the strapped cutoff to a
VSYS that no input carries or that it supplements (R15, R135, R146, R147); the Hold defaults look at VBAT alone (R67, R95). -/
def State.fetWanted (s : State) : BatFet :=
  if s.mode == .hold && s.life.defaults then (if s.straps.chem != 0 && s.cutoffMv < s.pp.vbat then .on else .off)
  else if s.fetLinear then .linear
  else if s.chgFlows || ((s.pp.conn.isNone || s.cnv.rev || s.pp.supplement) && s.batteryCan) then .on
  else .off

/-- The target the VSYS loop regulates to, in 20 mV: VSYS_MIN while the FET runs linear, else the higher of VSYS_MIN and
VBAT + VHEAD (R148, R149, R162; log 49). -/
def State.vsysTarget (s : State) : Nat :=
  let m := s.reg Reg.pthVsysMin
  if s.pp.linear then m else max 450 (min 1600 (max m (s.pp.vbat / 20 + s.reg Reg.pthVhead)))

/-- In ACTIVE the target follows the registers and VBAT; the target in force ramps to it (R154, R167). -/
def State.retarget (s : State) : State := if s.active then { s with cnv := { s.cnv with goal := s.vsysTarget } } else s

/-- The battery FET and the VSYS target follow the charger, the selector and VBAT; PTH_LINEAR posts when LINEAR becomes 1. -/
def State.refet (s : State) : State :=
  (({ s with pp := { s.pp with linear := s.fetLinear, batfet := s.fetWanted } } : State).postIf (s.fetLinear && !s.pp.linear) 71).retarget

/-- VSYS is seen at mv: with the battery taking it below 98 % of VSYS_MIN, conduction into the battery is limited (R151). -/
def State.seeVsys (s : State) (mv : Nat) : State :=
  ({ s with pp := { s.pp with sag := s.chgFlows && decide (mv * 5 < s.setpoints.vsysMin * 98) } } : State).refet

/-- The charge current the state asks for, in mA (R219, R220, R225). -/
def State.chgTarget (s : State) : Nat :=
  match s.chg.st with
  | .recover => s.reg Reg.chgIrecov * 25
  | .precharge => s.reg Reg.chgIpre * 25
  | .cc | .cv | .maintain => s.ichgEff
  | _ => 0

/-- R219 holds the current of a linear battery FET below its target. -/
def State.plinHolds (s : State) : Bool :=
  let vsys := s.cnv.tgt * 20
  s.pp.linear && decide (s.pp.vbat < vsys) && decide (s.plinLimit vsys s.pp.vbat < s.chgTarget)

/-- `CHG_STAT.LIMITED` (R222). -/
def State.reLimit (s : State) : State :=
  let l := s.chgFlows && (s.pp.ilim || s.pp.vfloor || s.plinHolds)
  { s with chg := { s.chg with limited := l, halfRate := l && s.chg.halfRate } }

/-- The connected input becomes c: PTH_SEL_CHANGE, and PTH_NO_INPUT when NONE becomes 1 (R140, R157); what limited the
old input no longer does (log 42), and with no input the battery FET carries VSYS where it may (R135, R146, R147). -/
def State.connectTo (s : State) (c : Option InputId) : State :=
  let ch := c != s.pp.conn
  let s1 : State := { s with pp := { s.pp with conn := c, ilim := !ch && s.pp.ilim, vfloor := !ch && s.pp.vfloor,
                                               inelig := !ch && s.pp.inelig },
                               tlm := s.tlm.sees c }
  (((s1.when ch State.reLimit).postIf ch 64).postIf (ch && c.isNone) 66).when ch State.refet

/-- With no input connected, the highest-ranked valid input is connected at once (R137). -/
def State.connectBest (s : State) : State :=
  if s.pp.conn.isNone && !s.pp.isolated && !s.cnv.rev then s.connectTo s.bestInput else s

/-- The connected input has ceased to be eligible: a planned move, or the input is kept (R141, R142). -/
def State.leaveIneligible (s : State) : State :=
  match s.pp.conn with
  | none => s.connectBest
  | some i =>
    if s.eligible i then { s with pp := { s.pp with inelig := false } }
    else if s.pp.isolated || s.cnv.rev then s
    else if s.bestInput.isSome || s.batteryCan then s.connectTo s.bestInput
    else ({ s with pp := { s.pp with inelig := true } } : State).postIf (!s.pp.inelig) 84

/-- An ineligible input that is kept is left once the battery can carry VSYS (R142). -/
def State.leaveHeld (s : State) : State := if s.pp.inelig then s.leaveIneligible else s

/-- An input's validity changes: PTH_VALID_x posts (R157). -/
def State.setValid (s : State) (i : InputId) (v : Bool) : State :=
  ({ s with pp := { s.pp with valid := s.pp.valid.set i.ix v } } : State).postIf (s.isValid i != v) (72 + i.ix.val)

/-- The takeover of R135: to the best of the inputs still valid, or to the battery. -/
def State.takeOver (s : State) : State :=
  if s.pp.isolated then s
  else (if s.active then (s.bump8 Reg.pthTakeovers).post 65 else s.post 65).connectTo s.bestInput

/-- The converter leaves reverse (R199). -/
def State.leaveReverse (s : State) : State :=
  if s.cnv.rev then
    ({ s with cnv := { s.cnv with rev := false, deadBus := false, revOut := 0, revCeil := false } } : State).post 183
  else s

/-- Reverse ends, and the highest-ranked valid input is connected (R137, R199). -/
def State.stopReverse (s : State) : State :=
  if s.cnv.rev then s.leaveReverse.connectTo s.leaveReverse.bestInput else s

/-- R197: in reverse the current into AUX is regulated to the lower of `CNV_REV_I` and `CNV_REV_IMAX`. -/
def State.regulateRev (s : State) : State :=
  if s.cnv.rev then { s with cnv := { s.cnv with revOut := min s.cnv.revI (s.reg Reg.cnvRevImax) } } else s

/-- VAUX is seen at mv: at `CNV_REV_VMAX` reverse raises it no further (R197). -/
def State.seeVaux (s : State) (mv : Nat) : State :=
  if s.cnv.rev then { s with cnv := { s.cnv with revCeil := decide (s.reg Reg.cnvRevVmax * 100 ≤ mv) } } else s

/-- The limit in force for an input, in 10 mA (R125, R127, R155, R398). -/
def State.inputLimit (s : State) (i : InputId) : Nat :=
  match i with
  | .poe => s.setpoints.lim.a0
  | .aux =>
    let g := s.importG
    if g == 0 then s.setpoints.lim.a1 else if s.flag Reg.gthCfg 0 then 10 * g else min 1000 (s.setpoints.lim.a1 + 10 * g)
  | .c1 => if s.underDefaults then s.setpoints.lim.a2 else min s.setpoints.lim.a2 s.pp.portLim.p1
  | .c2 => if s.underDefaults then s.setpoints.lim.a3 else min s.setpoints.lim.a3 s.pp.portLim.p2

/-! The charger (06). -/

/-- What a running test notes of a VBAT it sees (R283, R289). -/
def State.noteRun (s : State) (vbat : Nat) : State :=
  let atWarn := s.chem != 0 && decide (vbat ≤ s.packMv (s.reg Reg.emgWarn))
  { s with emg := { s.emg with run := s.emg.run.map fun r =>
      { r with vbatMin := min r.vbatMin (vbat / 10), qWarn := if atWarn && r.qWarn.isNone then some s.qacc else r.qWarn } } }

/-- VBAT is seen at `vbat`: CHG_PRE_DONE as it rises through n × VPRE, CHG_RECHARGE as it falls below the recharge threshold in
DONE (R253), what a running test notes, and the battery FET. The first VBAT of all is no rise. -/
def State.vbatSeen (s : State) (vbat : Nat) : State :=
  let old := s.pp.vbat
  let pre := s.vPre * 10
  let re := s.vRechg * 10
  let s1 := ((s.seeVbat vbat).noteRun vbat).postIf (old != 0 && decide (old < pre) && decide (pre ≤ vbat)) 201
  (s1.postIf (s.chg.st == .done && decide (vbat < re) && decide (re ≤ old)) 200).refet

/-- The safety timer counts in CC, CV and a MAINTAIN top-off (R235). -/
def Chg.safetyCounts (c : Chg) : Bool := c.st == .cc || c.st == .cv || (c.st == .maintain && !c.float)

/-- The safety timer's half rate: it counts, and a limit holds the current `ma` below half of ICHG_eff (R237). -/
def State.halfRate (s : State) (ma : Int) : State :=
  let h := s.chg.limited && s.chg.safetyCounts && decide (2 * ma < s.ichgEff)
  ({ s with chg := { s.chg with halfRate := h } } : State).postIf (h && !s.chg.halfRate) 204

/-- Charging is permitted (R214). -/
def State.chgPermitted (s : State) : Bool :=
  s.flag Reg.chgCtl 0 && s.chem != 0 && !s.fallback && s.packPresent && s.pp.conn.isSome && !s.pp.isolated && !s.cnv.rev
    && (s.mode == .active || s.mode == .dormant || (s.mode == .hold && s.life.kind == .dormant && !s.life.defaults))

/-- QUALIFY to MAINTAIN of the table. -/
def ChgState.inRun (st : ChgState) : Bool := st.charging || st == .qualify || st == .done

/-- The charger enters a state: timers of R236, FULL of R272, the postings of R253. -/
def State.chgGo (s : State) (st : ChgState) : State :=
  let c := s.chg
  let fresh := st == .done || (st == .qualify && (c.st == .emergency || c.st == .isolated))
  let c1 := { c with st := st, tRecov := if st == .precharge then 0 else c.tRecov, tPre := if st == .cc then 0 else c.tPre,
                     tSafe := if fresh then 0 else c.tSafe, float := st == .maintain && c.float,
                     limited := st.charging && c.limited, halfRate := st.charging && c.halfRate }
  let s1 : State := { s with chg := c1, emg := { s.emg with full := s.emg.full && !(st == .emergency || st == .isolated) } }
  let ch := c.st != st
  (((s1.postIf ch 192).postIf (ch && st == .done) 193).postIf (ch && st == .fault) 194).postIf (ch && st == .suspend) 195

/-- FAULT with a cause (R217, R218). -/
def State.chgFault (s : State) (cause : Nat) : State :=
  let s1 := (s.setReg Reg.chgFault cause).journal 0x0010
    (leBytes 1 cause ++ leBytes 1 s.chg.st.code ++ leBytes 2 (s.reg Reg.chgVbat) ++ leBytes 2 (s.reg Reg.chgTemp))
  (s1.chgGo .fault).refet

/-- Where a row of the charge table leads. -/
inductive ChgMove where
  | go (st : ChgState)
  | fault (cause : Nat)
deriving DecidableEq, Repr

/-- The first row of R216 that applies, in its order; with chemistry none the charger stays in IDLE (R211). `ov` and `own` are the rows that the command itself qualifies. -/
def State.chgRow (s : State) (ov : Bool) (own : Option ChgMove) : Option ChgMove :=
  let st := s.chg.st
  let bad := s.chg.zone == .cold || s.chg.zone == .hot || s.chg.ntcFault || s.chg.boardHot
  if s.chem == 0 then (if st == .idle then none else some (.go .idle))
  else if s.emg.emergency && st != .isolated && st != .emergency then some (.go .emergency)
  else if st != .isolated && st != .emergency && !s.chgPermitted then (if st == .idle then none else some (.go .idle))
  else if ov && st.inRun then some (.fault 4)
  else if st == .idle || st == .isolated || (st == .emergency && !s.emg.emergency) then
    (if !s.chgPermitted then none
     else if s.reg Reg.chgFault == 0 then some (.go .qualify) else some (.fault (s.reg Reg.chgFault)))
  else if st.inRun && bad then some (.go .suspend)
  else if st == .suspend && !bad && s.chg.measured then some (.go .qualify)
  else own

/-- The charger makes the move of the first row that applies. -/
def State.chgEval (s : State) (ov : Bool) (own : Option ChgMove) : State :=
  match s.chgRow ov own with
  | none => s
  | some (.go st) => ((s.chgGo st).refet).reLimit
  | some (.fault c) => s.chgFault c

/-! The self-tests of the Check units (R521). -/

/-- `BG_PROG_2`: the share of the usable units whose self-test of the pass is over (R526). -/
def State.testProgress (s : State) : State :=
  let n := (fin4.filter s.unitUsable).length
  let k := (fin4.filter fun u => s.unitUsable u && !s.chk.tests.get u).length
  s.setReg (Reg.bgProgA + 2) (if n == 0 then 100 else 100 * k / n)

/-- The self-test of unit u is over. -/
def State.testOver (s : State) (u : UnitId) : State :=
  State.testProgress (({ s with chk := { s.chk with tests := s.chk.tests.set u false, units := s.chk.units.set u { s.chk.units.get u with begun := false, held := false } } } : State).setChkArb u Arb.init)

/-! The Link (10). -/

/-- The Link state changes: LNK_STATE, and LNK_JOINED on MEMBER or LEAD (R405). -/
def State.lnkGo (s : State) (st : LnkState) : State :=
  let ch := s.lnk.state != st
  (({ s with lnk := { s.lnk with state := st } } : State).postIf ch 352).postIf (ch && (st == .member || st == .lead)) 354

/-- MEMBER or LEAD: the node has a short address. -/
def Lnk.joined (l : Lnk) : Bool := l.state == .member || l.state == .lead

/-- SRC of this node's frames (R375). -/
def Lnk.src (l : Lnk) : Nat := if l.joined then l.short else 0xFE

/-- A frame of this node waits for the channel; its sequence number steps (R375). -/
def State.lnkQueue (s : State) (typ dst : Nat) (ack prio : Bool) (payload : List Byte) : State :=
  let f : Frame := ⟨typ, ack, prio, s.lnk.seq, s.lnk.src, dst, none, payload⟩
  { s with lnk := { s.lnk with txq := s.lnk.txq ++ [f], seq := (s.lnk.seq + 1) % 4 } }

/-- A frame goes on the bus in this step. -/
def State.lnkSend (s : State) (typ dst : Nat) (payload : List Byte) : State :=
  let f : Frame := ⟨typ, false, false, s.lnk.seq, s.lnk.src, dst, none, payload⟩
  { s with lnk := { s.lnk with sent := s.lnk.sent ++ [f], seq := (s.lnk.seq + 1) % 4 } }

/-- The grant ends (R397): GTH_GRANT posts, a supply leaves reverse, an import may leave AUX ineligible. -/
def State.endGrant (s : State) : State :=
  let s1 := ({ s with lnk := { s.lnk with grant := none }, cnv := { s.cnv with revI := 0 } } : State).postIf s.lnk.grant.isSome 368
  (s1.stopReverse).when (s.active && s.lnk.grant.isSome) State.leaveIneligible

/-- LEAVE, with bit 0 from a lead (R386). -/
def State.sendLeave (s : State) : State :=
  if s.lnk.joined then s.lnkSend 0xB 0xFF [BitVec.ofNat 8 (b2n (s.lnk.state == .lead))] else s

/-- The offer falls to 0; GTH_OFFER posts and a supply grant ends (R393, R397). -/
def State.withdrawOffer (s : State) : State :=
  let s1 := ({ s with lnk := { s.lnk with offer := 0 } } : State).postIf (s.lnk.offer != 0) 369
  if (match s.lnk.grant with | some (true, _) => true | _ => false) then s1.endGrant else s1

/-- The conditions of R195 but for VAUX and the grant. -/
def State.mayReverse (s : State) : Bool :=
  s.active && s.part.variant.hasLink && s.flag Reg.sysLimMisc 8 && decide (1 ≤ s.reg Reg.cnvRevImax) && decide (2 ≤ s.cnv.healthyCount)
    && !s.pp.isolated

/-- `CHG_SOC` as reports carry it. -/
def State.socByte (s : State) : Nat := if s.flag Reg.chgSoc 15 && s.chg.capL != 0 then s.fld Reg.chgSoc 0 7 else 0xFF

/-- R195 but for the grant, with VAUX as last measured. -/
def State.reverseFits (s : State) : Bool :=
  let v := s.lastOf 1
  s.mayReverse && (decide (18000 ≤ v ∧ v ≤ 57000) || decide (v < 2000))

/-- The offer of R393, in 100 mA. -/
def State.offerNow (s : State) : Nat :=
  if s.flag Reg.gthCfg 2 && s.reverseFits && s.socByte != 0xFF && decide (s.reg Reg.gthOfferSoc ≤ s.socByte) && !s.emg.warn && !s.testing
  then min (s.reg Reg.gthOfferMax) (s.reg Reg.cnvRevImax) else 0

/-- A reported offer whose conditions no longer hold falls to 0 at once (R393, R397). -/
def State.checkOffer (s : State) : State := if s.lnk.offer != 0 && s.offerNow == 0 then s.withdrawOffer else s

/-! Tests (07). -/

/-- A signed quantity as n little-endian bytes. -/
def leInt (n : Nat) (v : Int) : List Byte := leBytes n (bitsOf v (8 * n))

/-- The set length of a test in seconds. -/
def State.testSecs (s : State) : TestKind → Nat
  | .function => s.reg Reg.emgFnLen * 10
  | .duration => s.reg Reg.emgDurLen * 1800

/-- What a record carries beside its START fields (R289). -/
structure CloseData where
  tEnd : Nat
  elapsed : Nat
  tWarn : Nat
  outcome : Nat
  rails : Nat
  vbatMin : Nat
  vbatEnd : Nat
  ibatAvg : Nat
  qOut : Nat
  capBefore : Nat
  capAfter : Nat
  tempMin : Int
  tempMax : Int
  phases : Nat
deriving DecidableEq, Repr

/-- A test record, signed (R289, R112); `cells` is its chemistry and cell count byte. -/
def State.signRecord (s : State) (kind typ serial origin cells tDue tStart len vbatStart zone : Nat) (lead : BitVec 48)
    (c : CloseData) : List Byte :=
  let body := ([0x54, 0x45, 0x53, 0x54, 0x01, 0x00] : List Byte) ++ leBytes 1 kind ++ leBytes 1 typ ++ leBytes 4 serial
    ++ leBytes 6 s.part.uid.toNat ++ leBytes 1 origin ++ leBytes 1 cells ++ leBytes 4 tDue ++ leBytes 4 tStart
    ++ leBytes 4 c.tEnd ++ leBytes 4 len ++ leBytes 4 c.elapsed ++ leBytes 4 c.tWarn ++ leBytes 1 c.outcome ++ leBytes 1 zone
    ++ leBytes 2 c.rails ++ leBytes 2 vbatStart ++ leBytes 2 c.vbatMin ++ leBytes 2 c.vbatEnd ++ leBytes 2 c.ibatAvg
    ++ leBytes 4 c.qOut ++ leBytes 2 c.capBefore ++ leBytes 2 c.capAfter ++ leInt 2 c.tempMin ++ leInt 2 c.tempMax
    ++ leBytes 1 c.phases ++ [0] ++ leBytes 6 lead.toNat ++ List.replicate 116 0
  body ++ deviceSign (sha256 body)

/-- The record of a test of this pack. -/
def State.testRecord (s : State) (kind typ serial origin tDue tStart len vbatStart zone : Nat) (lead : BitVec 48)
    (c : CloseData) : List Byte := s.signRecord kind typ serial origin (s.chem * 16 + s.cells) tDue tStart len vbatStart zone lead c

/-- A record is written into TESTS; its JOURNAL entry follows, or EMG_RECORD_FAIL posts (R291, R553). -/
def State.commitRecord (s : State) (r : List Byte) : State :=
  if s.testsStuck then s.post 234
  else (s.testProgram r).journal 0x0022 (leBytes 4 (recSerial r) ++ leBytes 1 (recType r) ++ leBytes 1 (recOutcome r))

/-- The charge discharged by a test, 0.01 mAh (R283). -/
def State.qOut (s : State) (r : Run) : Nat := (r.qStart - (r.qWarn.getD s.qacc)).toNat

/-- C_L after a test (R249). -/
def State.capAfter (s : State) (r : Run) : Nat :=
  match r.kind with
  | .function => s.chg.capL
  | .duration => if r.qWarn.isSome then min 65535 (s.qOut r / 100) else max s.chg.capL (min 65535 (s.qOut r / 100))

/-- A due instance of test k is over: its deferral with it (R273, R294). -/
def State.dueOver (s : State) (k : TestKind) : State :=
  let f := s.emg.fnDefer && k != .function
  let d := s.emg.durDefer && k != .duration
  { s with emg := { s.emg with fnDefer := f, durDefer := d, deferred := s.emg.deferred && (f || d) } }

/-- NEXT moves on in whole periods until it lies after the present time; a period of 0 stops the schedule (R269). -/
def State.advanceNext (s : State) (k : TestKind) : State :=
  let next := match k with | .function => Reg.emgFnNext | .duration => Reg.emgDurNext
  let period := (match k with | .function => s.reg Reg.emgFnPeriod | .duration => s.reg Reg.emgDurPeriod) * 86400
  let n := s.reg32 next
  if s.rtc < n then s
  else
    let s1 := s.dueOver k
    if period == 0 then
      (match k with
       | .function => { s1 with emg := { s1.emg with fnStop := true } }
       | .duration => { s1 with emg := { s1.emg with durStop := true } })
    else s1.setReg32 next (n + ((s.rtc - n) / period + 1) * period)

/-- The learned capacity changes (R218, R249, R253); Q_rem stays between 0 and it (R245). -/
def State.learnCap (s : State) (cap serial : Nat) : State :=
  if cap == s.chg.capL then s
  else
    let s1 := ({ s with chg := { s.chg with capL := cap } } : State).setReg Reg.chgQrem (min (s.reg Reg.chgQrem) cap)
    (s1.journal 0x0011 (leBytes 2 s.chg.capL ++ leBytes 2 cap ++ leBytes 4 serial)).post 203

/-- A test's end reaches the lead: its own slot ends, or TEST_END goes out (R401). -/
def State.testEndToLead (s : State) (outcome : Nat) : State :=
  if !s.part.variant.hasLink then s
  else match s.lnk.state with
    | .lead =>
      if s.lnk.holder == some s.lnk.short then ({ s with lnk := { s.lnk with holder := none, slotSecs := 0 } } : State).post 372 else s
    | .member => s.lnkQueue 0x8 0 true false (leBytes 1 outcome)
    | _ => s

/-- A test closes (R284): the inputs reconnect, the CLOSE record is written, EMG_TEST_END posts, and the charger leaves
ISOLATED. -/
def State.testClose (s : State) (outcome : Nat) : State :=
  match s.emg.run with
  | none => s
  | some r =>
    let cap := s.capAfter r
    let q := s.qOut r
    let c : CloseData :=
      { tEnd := if s.rtcValid then s.rtc else 0, elapsed := s.emg.elapsed, tWarn := r.warnAt.getD 0xFFFFFFFF, outcome := outcome,
        rails := r.rails &&& s.seq.pg.toNat, vbatMin := r.vbatMin, vbatEnd := s.pp.vbat / 10,
        ibatAvg := if s.emg.elapsed == 0 then 0 else min 65535 ((r.qStart - s.qacc).toNat * 36 / s.emg.elapsed),
        qOut := q, capBefore := r.capBefore, capAfter := cap, tempMin := r.tempMin, tempMax := r.tempMax,
        phases := s.cnv.healthy.toNat }
    let rec_ := s.testRecord 2 (testCode r.kind) r.serial r.origin r.tDue r.tStart r.secs r.vbatStart r.zone.code r.lead c
    let s1 : State := { s with emg := { s.emg with run := none, outcome := outcome }, pp := { s.pp with isolated := false } }
    let s2 := ((s1.connectBest).learnCap cap r.serial).commitRecord rec_
    let s3 := (s2.advanceNext r.kind).post 229
    (s3.testEndToLead outcome).chgEval false none

/-- A cause of R285 with outcome ABORT_FAULT. -/
def State.testFault (s : State) : State := s.testClose 4

/-! The rail shutdown and the rail start (08). -/

/-- EN of rail k falls: it leaves power-good, which aborts a test, and its comparators are disarmed (R282, R298, R299). -/
def State.lowerRail (s : State) (k : Rail) : State :=
  let q := s.seq
  let s1 : State := { s with seq := { q with en := q.en.set k false, pg := q.pg.set k false, armedHi := q.armedHi.set k false,
                                             armedLo := q.armedLo.set k false, warned := q.warned.set k false,
                                             unsup := q.unsup.set k false, cur := some k, rise := q.rise.filter (· != k) } }
  (s1.postIf (q.pg.get k) (272 + k.val)).when (q.pg.get k) State.testFault

/-- The shutdown of a cutoff is complete and no input is valid: EMERGENCY ends silently and the part asks for SHIP (R262,
R263). -/
def State.cutoffShip (s : State) : State :=
  if s.emg.emergency && s.emg.cutoff && !s.anyValid then
    { s.emergencyOver with life := { s.emergencyOver.life with shipReq := .own } }
  else s

/-- The sequencer becomes OFF at the end of a shutdown (R312, R313); one that found no EN high and the sequencer OFF
changes nothing (log 40). -/
def State.seqFinish (s : State) : State :=
  let s1 := ({ s with seq := { s.seq with cur := none, rise := none, dir := 0 } } : State).seqGo .off
  (s1.postIf (s.seq.state != .off) 258).cutoffShip

/-- The shutdown goes on: the highest rail whose EN is high goes low, and the next at once where that rail is discharged
already; past the last rail it is complete (R309, R310, R313). The number bounds the rails it visits. -/
def State.goDown : Nat → State → State
  | 0, s => s
  | n + 1, s =>
    match highest s.seq.en with
    | some k => if s.seq.disch.get k then (s.lowerRail k).goDown n else s.lowerRail k
    | none => s.seqFinish

def State.shutdownNext (s : State) : State := s.goDown 9

/-- A shutdown whose last rail has become discharged goes on (R310). -/
def State.resumeDown (s : State) : State :=
  match s.seq.cur with
  | some k => if s.seq.state == .down && !s.seq.en.get k && s.seq.disch.get k then s.shutdownNext else s
  | none => s

/-- SNS of rail k is seen at mv: its discharge comparator (R302, R330). -/
def State.seeSns (s : State) (k : Rail) (mv : Nat) : State :=
  { s with seq := { s.seq with sns := s.seq.sns.set k (some mv), disch := s.seq.disch.set k (decide (mv < s.reg (Reg.railDisch k.val))) } }

/-- A shutdown with a cause starts (R309, R314, R317); a latched one is entered in the JOURNAL. -/
def State.startShutdown (s : State) (cause : Nat) (latched : Bool) : State :=
  let s1 : State := { s with seq := { s.seq with cause := cause, dir := 2, latch := s.seq.latch || latched, wait := .none } }
  let s2 := if latched then s1.journal 0x0030 (leBytes 1 cause ++ leBytes 1 s.seq.rail) else s1
  match highest s.seq.en with
  | some _ => (s2.seqGo .down).shutdownNext
  | none => s2.seqFinish

/-- A cause that latches arises for rail k: it starts a shutdown, or makes an unlatched one latched (R315, R316). -/
def State.latchedCause (s : State) (cause : Nat) (k : Rail) : State :=
  let s1 : State := { s with seq := { s.seq with rail := k.val + 1 } }
  match s.seq.state with
  | .stuck => s
  | .down =>
    if s.seq.latch then s
    else ({ s1 with seq := { s1.seq with latch := true } } : State).journal 0x0030 (leBytes 1 s.seq.cause ++ leBytes 1 (k.val + 1))
  | _ => s1.startShutdown cause true

/-- Every enabled rail is up: ON, and no direction (R308, log 47). -/
def State.seqOn (s : State) : State :=
  (({ s with seq := { s.seq with dir := 0, cur := none, rise := none } } : State).seqGo .on).post 257

/-- A power-up starts (R306): the first enabled rail's delay runs; with no rail enabled it is complete (log 40). -/
def State.startUp (s : State) : State :=
  let s1 : State := { s with seq := { s.seq with dir := 1, cur := fin8.find? s.railEn, rise := none, wait := .none } }
  match fin8.find? s.railEn with
  | some _ => s1.seqGo .up
  | none => s1.seqOn

/-- The conditions of R303 but for the discharge of the rails. -/
def State.mayStart (s : State) : Bool :=
  s.seq.state == .off && !s.seq.latch && !s.pp.vsysLow && (s.anyValid || !s.emg.warn)

/-- An automatic start or a restart (R305). -/
def State.autoStart (s : State) (w : SeqWait) : State :=
  if !s.mayStart then s
  else if s.allDischarged then s.startUp
  else ({ s with seq := { s.seq with wait := w } } : State).postIf (s.seq.wait == .none) 262

/-- A transition is in progress (R75, R270). -/
def SeqState.moving (st : SeqState) : Bool := st == .up || st == .down

/-- EMERGENCY ends with its posting and its JOURNAL entry (R256). -/
def State.emergencyEnd (s : State) : State :=
  (s.emergencyOver.journal 0x0021 (leBytes 2 (s.reg Reg.chgVbat) ++ leBytes 4 s.emg.emgSecs)).post 225

/-- The running phases change and are spaced anew (R172): CNV_PHASES posts (log 50), CNV_DEGRADED and CNV_STOPPED as the healthy count
falls (R191, R192, R209); a stop aborts a test (R285). -/
def State.setPhases (s : State) (ps : Four PhaseCell) : State :=
  let c := { s.cnv with phases := spaced ps }
  let s1 := ((({ s with cnv := c } : State).when (c.healthyCount == 1) (·.histMark 3))).postIf (c.runs != s.cnv.runs) 184
  let s2 := s1.postIf (c.healthyCount == 1 && decide (1 < s.cnv.healthyCount)) 176
  let s3 := s2.postIf (c.healthyCount == 0 && s.cnv.healthyCount != 0) 177
  if c.healthyCount == 0 && s.cnv.healthyCount != 0 then s3.testFault else s3

end Sys2Proof.Machine
end

