-- ==== Sys2Proof/Machine/Posture.lean ====
section
/-! DEFINITION. What leaving and re-entering ACTIVE does to the whole part: Hold entry and its setpoints, what the digital
domain takes with it, wake causes, the return of the registers (03, Stirrup Hold, Wake causes; R8). -/

namespace Sys2Proof.Machine

/-- The analog path keeps the setpoints in force (R154); AUX stays out where only a grant let it in (R398). -/
def State.captureHeld (s : State) : State :=
  let h := s.setpoints
  { s with pp := { s.pp with held := { h with en := if s.auxAllowed then h.en else clearBits h.en 2 } } }

/-- The tests end without a record, the inputs reconnect, EMERGENCY is forgotten (R95, R288, R292). -/
def Emg.afterHold (e : Emg) : Emg :=
  { Emg.init with full := e.full, outcome := e.outcome, serial := e.serial, fnStop := e.fnStop, durStop := e.durStop,
                  fnDefer := e.fnDefer, durDefer := e.durDefer }

/-- The sequencer takes no step; the ENs, their comparators and what is retained stay (R295, R321, R328). -/
def Seq.afterHold (q : Seq) : Seq :=
  { q with state := .off, pg := Eight.all false, unsup := Eight.all false, warned := Eight.all false, bits := Eight.all 0,
           cur := none, rise := none, wait := .none }

/-- A port keeps VBUS or its gate pair and no protocol (R95, R96, R369). -/
def PortSt.afterHold (c : PortSt) : PortSt :=
  { c with next := none, wait := .none, swapTo := .none, frs := false, swapped := false, trying := .none, openCc := false, waits := 0, capsSent := 0, msgId := 0, logRx := 0, logTx := 0,
           bist := false, sent := [], unsup := false, hadContract := c.contract.isSome,
           cut := if c.cut == .emergency then .none else c.cut }

/-- Requests, the session and the page buffers are gone (R548, R550, R578); a refresh or retirement that has not run waits for the
next read that finds its page (log 91). -/
def Tkr.afterHold (t : Tkr) : Tkr :=
  { t with queue := Four.all [], run := Four.all none, replies := Four.all [], reqNo := 0, session := none, jbuf := [], hbuf := [], weak := [], worn := [], hcount := t.hcount - t.hbuf.length,
           scrubLate := false }

/-- A page program or block erase that was suspended as the digital domain went (R27): a log head passes over the page that is
partly programmed, and a block that is partly erased is erased again before its first program (R560). -/
def Tkr.broken (t : Tkr) (ops : List (Option TkrOp)) : Tkr :=
  { t with jhead := if ops.contains (some (.program (48 * 256 + t.jhead))) then (t.jhead + 1) % 32768 else t.jhead,
           hhead := if ops.contains (some (.program (208 * 256 + t.hhead))) then (t.hhead + 1) % 147456 else t.hhead }

/-- What the digital domain sees now. -/
def State.look (s : State) : Seen :=
  ⟨s.pp.conn, s.pp.valid, s.pp.poe.pg, s.pp.poe.alloc, s.cnv.runs, s.chg.st⟩

/-- Charging has stopped without the digital domain (R95). -/
def Chg.stopped (c : Chg) : Chg := { c with st := .idle, limited := false, halfRate := false, float := false, dormantStop := false }

/-- The digital domain is gone: the analog path keeps its setpoints, reverse stops, a test ends, what is not retained and
not analog returns to its reset value (R16, R95, R154, R440, R493, R578, R583). The mode is HOLD from here on until the
caller says otherwise, so that what these changes post waits for the next boot. -/
def State.digitalDown (s : State) : State :=
  let s1 := ({ s.captureHeld with mode := .hold } : State).stopReverse
  let s2 := ({ s1 with pp := { s1.pp with isolated := false } } : State).connectBest
  let s3 := s2.postIf s2.tkr.session.isSome 463
  { s3 with
    emg := s3.emg.afterHold, seq := s3.seq.afterHold, pdp := ⟨s3.pdp.p1.afterHold, s3.pdp.p2.afterHold⟩,
    lnk := Lnk.init, ser := Ser.init, fab := { Fabric.init with absent := s3.fab.absent, stamp := s3.fab.stamp }, chk := Chk.init,
    tkr := (s3.tkr.broken s3.arb.susp.toList).afterHold, tlm := Tlm.init, cal := Cal.init s3.part, arb := Arbs.init,
    cnv := { s3.cnv with revI := 0 },
    life := { s3.life with sWarned := false, eWarned := false, tboSilent := false, armed := false, holdoff := false, shipReq := .none,
                              stage := none, seen := s.look } }

/-- HOLD is entered (R72, R83, R93): one attempt begins, the remote-wake pulse starts unless HOST is a cause (R85). -/
def State.holdEntry (s : State) (kind : HoldKind) (causes : BitVec 7) : State :=
  { s with mode := .hold,
           life := { s.life with kind := kind, causes := causes, wakeFailed := false, attempts := 0, waiting := false,
                                 booted := false, defaults := false,
                                 pulse := s.flag Reg.kprCfg 0 && !causes.getLsbD 1 } }

/-! Phases that start. -/

def Cnv.setSt (c : Cnv) (p : Phase) (st : PhaseSt) : Four PhaseCell := c.phases.set p { c.phases.get p with st := st }

/-- The lowest healthy phase that is shed (R179). -/
def Cnv.nextShed (c : Cnv) : Option Phase := fin4.find? fun p => (c.phases.get p).st == .shed

/-- The next healthy shed phase runs. -/
def Cnv.addNext (c : Cnv) : Four PhaseCell := match c.nextShed with | some p => c.setSt p .run | none => c.phases

/-- The power path as HOLD finds it after SHIP or OFF: a phase runs, and the battery carries VSYS where no input does
(logs 20 and 48). -/
def State.powerUpPath (s : State) : State :=
  let s1 := s.connectBest
  let c : Cnv := { s1.cnv with phases := s1.cnv.phases.map fun p => { p with st := if p.st == .idle then PhaseSt.shed else p.st } }
  ({ s1 with cnv := { c with phases := spaced (if c.runCount == 0 then c.addNext else c.phases) } } : State).refet

/-- A wake cause of R83's table is registered: it enters HOLD from SHIP or DORMANT, merges into the boot in progress, or
makes a failed wake's next attempt (R83, R91). -/
def State.wake (s : State) (bit : Nat) : State :=
  let b : BitVec 7 := BitVec.ofNat 7 (2 ^ bit)
  match s.mode with
  | .ship => (s.holdEntry .ship (b ||| (s.life.causes &&& 1))).powerUpPath
  | .dormant => s.holdEntry .dormant b
  | .hold =>
    let causes := s.life.causes ||| b
    let afresh := s.life.wakeFailed
    { s with life := { s.life with causes := causes, attempts := if afresh then 0 else s.life.attempts,
                                   waiting := s.life.waiting && !afresh, wakeFailed := false,
                                   pulse := if afresh then s.flag Reg.kprCfg 0 && !causes.getLsbD 1 else s.life.pulse } }
  | .off | .active => s

/-- The Hold defaults: charging is off, the battery FET follows VBAT alone (R66, R67, R95, R155). -/
def State.holdDefaults (s : State) (vbat : Nat) : State :=
  let h := Setpoints.init (vsafeTarget s.straps.vsafe)
  let held := { h with lim := { h.lim with a0 := classLimit s.pp.poe.assigned } }
  ({ s with life := { s.life with defaults := true }, chg := s.chg.stopped,
            pp := { s.pp with held := held, sag := false, vbat := vbat }, cnv := { s.cnv with goal := held.tgt } } : State).refet

/-- The registers whose values the converters hold in Stirrup Hold (R206). -/
def convBank (i : Nat) : Bool := i / 256 == 0x0E || i / 256 == 0x0F || i / 256 == 0x11

/-- Every register returns to its reset value but for the fields that are retained (R8); after a watchdog reset the values the
converters held through the Hold do too (R102, R206). -/
def State.bootRegs (s : State) : State :=
  let d := resetWord s.part s.straps
  { s with regs := s.regs.filterMap fun e =>
      let w := if s.life.kind == .watchdog && convBank e.1 then d e.1 else BitVec.ofNat 16 (bootFields (fieldsOf e.1) (d e.1).toNat e.2.toNat)
      if w = d e.1 then none else some (e.1, w) }

/-- What a watchdog reset takes besides: every register but what the converters hold until the boot, the retained ones and the clock among them, the charger's state
and timers, the sequencer's memory, FULL and the last outcome (R7, R102, R238, R272, R324). -/
def State.watchdogDown (s : State) : State :=
  { s with regs := s.regs.filter fun e => convBank e.1, chg := Chg.init,
           seq := { s.seq with latch := false, cause := 0, dir := 0, rail := 0, keeperFault := none },
           emg := { s.emg with full := false, outcome := 0, fnStop := false, durStop := false, fnDefer := false, durDefer := false },
           life := { s.life with seen := { s.life.seen with chg := .idle } } }

end Sys2Proof.Machine
end

