-- ==== Sys2Proof/Machine/Charge.lean ====
section
/-! DEFINITION. The meanings of the commands of charging (06). A voltage that a command names is the pack voltage it
measured, in mV; the passages of R216's table are made in ACTIVE, and in DORMANT those that R239 to R241 leave. -/

namespace Sys2Proof.Machine

/-- The charger works on its own: ACTIVE, DORMANT, and a Hold that wakes from DORMANT, until R240 or the Hold defaults stop
charging (R95, R214, R239). -/
def State.chgAlive (s : State) : Bool :=
  s.active || ((s.mode == .dormant || (s.mode == .hold && s.life.kind == .dormant && !s.life.defaults)) && !s.chg.dormantStop)

/-- A passage that wakes the part in DORMANT with cause CHARGE (R241). -/
def State.chgWake (s : State) : State := s.when (s.mode == .dormant) (·.wake 4)

/-- The timers restart (R236). -/
def Chg.restart (c : Chg) : Chg := { c with tRecov := 0, tPre := 0, tSafe := 0 }

/-! Settings. -/

/-- The strapped cutoff per cell in 10 mV (R66, R259). -/
def State.strapCut (s : State) : Nat := if s.straps.chem == 0 then 0 else if chemType s.straps.chem == 1 then 300 else 250

/-- The discharge thresholds of a chemistry (R260), with R259 for the cutoff. -/
def State.reloadEmg (s : State) (typ : Nat) : State :=
  let cut := max (emgCutDefault typ) s.strapCut
  (((s.setReg Reg.emgWarn (emgWarnDefault typ)).setReg Reg.emgTestAbort (emgAbortDefault typ)).when (cut < emgAbortDefault typ)
    (·.setReg Reg.emgCutoff cut))

/-- Whether a write to `CHG_CHEM` stands (R213). -/
def chemOk (typ cells : Nat) : Bool :=
  typ == 0 || (typ == 1 && decide (3 ≤ cells ∧ cells ≤ 6)) || (typ == 2 && decide (4 ≤ cells ∧ cells ≤ 8))

/-- `CHG_RESERVE_MIN` (R211, R247); CHG_RESERVE_LOW posts when it falls below its threshold. -/
def State.setReserve (s : State) (avgDis : Nat) : State :=
  let old := s.reg Reg.chgReserveMin
  let new := if s.chem == 0 then 0 else reserveMin (s.reg Reg.chgQrem) (s.iRef avgDis)
  let w := s.reg Reg.chgReserveWarn
  (s.setReg Reg.chgReserveMin new).postIf (w != 0 && decide (new < w) && decide (w ≤ old)) 202

/-- `CHG_CHEM` is written (R211, R212, R213, R227, R260). The charger moves to IDLE; while a test isolates or EMERGENCY is in
force the first rows of R216 take a charger with a chemistry on from there in the same step (log 82). With TYPE 0 the estimate is
invalid from here on. -/
def State.writeChem (s : State) (v : Nat) : State :=
  let typ := bits v 4 4
  let cells := if typ == 0 then 0 else bits v 0 4
  if !chemOk typ cells then s
  else
    let s1 := ((((s.setReg Reg.chgChem (typ * 16 + cells)).setReg Reg.chgVchg (vchgDefault typ cells)).setReg Reg.chgVrecov
      (vrecovDefault typ)).setReg Reg.chgVpre (vpreDefault typ)).setReg Reg.chgVrechg (vrechgDefault typ)
    let s2 := (s1.reloadEmg typ).when (typ != 1) (·.setFlag Reg.chgCtl 1 false)
    let s3 := s2.when (typ == 0) fun t => (t.setFlag Reg.chgSoc 15 false).setReserve 0
    ((s3.chgGo (if typ == 0 then .idle else if s.pp.isolated then .isolated else if s.emg.emergency then .emergency else .idle)).refet).reLimit

def execChgChem (v : Word) (s : State) : Out := .next (if s.active then s.writeChem v.toNat else s)

/-- `CHG_CTL.CLEAR` is written: the cause clears and the timers restart (R217, R236). -/
def State.chgClear (s : State) : State :=
  let s1 := ({ s with chg := s.chg.restart } : State).setReg Reg.chgFault 0
  s1.chgEval false (if s.chg.st == .fault then some (.go .qualify) else none)

def execChgClear (s : State) : Out := .next (if s.active then s.chgClear else s)

/-- R214: outside ACTIVE permission can only be lost. -/
def execChargePermissionChange (s : State) : Out :=
  .next (if s.active || (s.chgAlive && !s.chgPermitted) then s.chgEval false none else s)

/-! The passages of R216. -/

def execQualifyDone (vbat ms : Nat) (s : State) : Out :=
  .next (if s.active && s.chg.st == .qualify && decide (100 ≤ ms) then
      let st : ChgState := if vbat < s.vRecov * 10 then .recover else if vbat < s.vPre * 10 then .precharge
        else if vbat < s.vRechg * 10 then .cc else .done
      (s.vbatSeen vbat).chgEval false (some (.go st))
    else s)

def execRecoverDone (vbat ms : Nat) (s : State) : Out :=
  .next (if s.active && s.chg.st == .recover && decide (s.vRecov * 10 ≤ vbat) && decide (1000 ≤ ms) then
      (s.vbatSeen vbat).chgEval false (some (.go .precharge))
    else s)

def execPrechargeDone (vbat ms : Nat) (s : State) : Out :=
  .next (if s.active && s.chg.st == .precharge && decide (s.vPre * 10 ≤ vbat) && decide (1000 ≤ ms) then
      (s.vbatSeen vbat).chgEval false (some (.go .cc))
    else s)

/-- In DORMANT the loops pass from CC to CV by themselves (R239). -/
def execCvEntry (vbat : Nat) (s : State) : Out :=
  .next (if s.chgAlive && s.chg.st == .cc && decide (s.vchgEff * 10 ≤ vbat) then
      (s.vbatSeen vbat).chgEval false (some (.go .cv))
    else s)

/-- Float follows a termination (R226). -/
def State.floats (s : State) : Bool := s.flag Reg.chgCtl 1 && s.chem == 1

/-- `CHG_SOC`: Q_rem over C_L; VALID shows through Flags while C_L is not 0 (R246). -/
def State.setSoc (s : State) (anchored : Bool) : State :=
  s.setReg Reg.chgSoc (32768 * b2n anchored + (if s.chg.capL == 0 then 0 else min 100 (s.reg Reg.chgQrem * 100 / s.chg.capL)))

/-- The anchor of R223: Q_rem becomes C_L, and FULL is set (R245, R272). -/
def State.anchor (s : State) : State :=
  ((({ s with emg := { s.emg with full := true } } : State).setReg Reg.chgQrem s.chg.capL).setSoc true).setReserve 0

/-- R221's conditions. -/
def State.terminates (s : State) (vbat : Nat) (ma : Int) (secs : Nat) : Bool :=
  (s.chg.st == .cv || (s.chg.st == .maintain && !s.chg.float)) && !s.chg.limited && decide (ma < s.reg Reg.chgIterm * 25)
    && decide (s.reg Reg.chgTterm ≤ secs) && decide (s.vchgEff * 10 ≤ vbat + s.cells * 20) && decide (vbat ≤ s.vchgEff * 10 + s.cells * 20)

/-- R221, R223, R226: to DONE, or from CV to float; in the normal zone the gauge is anchored. R226 names every termination and
the table's top-off row names DONE alone: with FLOAT at 1 a top-off ends in DONE here (DESIGN CHOICE, log 81). -/
def execTermination (vbat : Nat) (ma : Int) (secs : Nat) (s : State) : Out :=
  .next (if s.chgAlive && s.terminates vbat ma secs then
      let float := s.chg.st == .cv && s.floats
      let t := (s.vbatSeen vbat).chgEval false (some (.go (if float then .maintain else .done)))
      if t.chg.st != .done && t.chg.st != .maintain then t
      else
        let t1 : State := { t with chg := { t.chg with float := float } }
        (t1.when (s.chg.zone == .normal) State.anchor).chgWake
    else s)

/-- R224, R225, R253: CHG_RECHARGE posts as VBAT falls; a second below, in ACTIVE, starts the top-off. -/
def execRecharge (vbat ms : Nat) (s : State) : Out :=
  .next (if s.chgAlive && s.chg.st == .done && decide (vbat < s.vRechg * 10) then
      (s.vbatSeen vbat).when (s.active && decide (1000 ≤ ms)) (·.chgEval false (some (.go .maintain)))
    else s)

def execRequalify (vbat : Nat) (s : State) : Out :=
  .next (if s.active && (s.chg.st == .done || s.chg.st == .maintain) && decide (vbat < s.vPre * 10) then
      (s.vbatSeen vbat).chgEval false (some (.go .qualify))
    else s)

/-- R216, cause 4; in DORMANT it wakes the part (R241). -/
def execChgOvervoltage (vbat ms : Nat) (s : State) : Out :=
  .next (if s.chgAlive && s.chg.st.inRun && decide (s.reg Reg.chgVchg * 10 + s.cells * 100 < vbat) && decide (10 ≤ ms) then
      ((s.vbatSeen vbat).chgEval true none).chgWake
    else s)

/-! Timers (R235): a timer has expired when its count has reached its setting. The counts are half seconds of the LFO. -/

/-- A charge timer expires in a state where it counts (R216, R241). -/
def State.chgExpire (s : State) (counts : Bool) (count limit cause : Nat) : State :=
  if s.chgAlive && counts && decide (limit ≤ count) then (s.chgEval false (some (.fault cause))).chgWake else s

/-- CHG_TRECOV, in minutes. -/
def execRecoveryTimeout (s : State) : Out :=
  .next (s.chgExpire (s.chg.st == .recover) s.chg.tRecov (s.reg Reg.chgTrecov * 120) 2)

/-- CHG_TPRE, in minutes. -/
def execPrechargeTimeout (s : State) : Out :=
  .next (s.chgExpire (s.chg.st == .recover || s.chg.st == .precharge) s.chg.tPre (s.reg Reg.chgTpre * 120) 1)

/-- CHG_TSAFE, in half hours. -/
def execSafetyTimeout (s : State) : Out := .next (s.chgExpire s.chg.safetyCounts s.chg.tSafe (s.reg Reg.chgTsafe * 3600) 3)

/-! The pack and its temperature. -/

/-- The pack becomes absent: IDLE, but not out of ISOLATED or EMERGENCY (R215, R216). -/
def State.removePack (s : State) : State :=
  if s.chg.absent then s
  else ((({ s with chg := { s.chg with absent := true } } : State).post 198).chgEval false none).refet

/-- The pack becomes present: the fault cause clears and the timers restart (R217, R236). -/
def State.insertPack (s : State) : State :=
  if !s.chg.absent then s
  else
    let s1 := ((({ s with chg := { s.chg.restart with absent := false } } : State).setReg Reg.chgFault 0).post 199)
    ((s1.chgEval false (if s.chg.st == .fault then some (.go .qualify) else none)).refet).leaveHeld

def execPackRemoved (s : State) : Out := .next (if s.active then s.removePack else s)

/-- The valid range of an NTC, in 0.1 degrees C (R232). -/
def ntcValid (dc : Int) : Bool := decide (-450 ≤ dc ∧ dc ≤ 1300)

def execPackInserted (dc : Int) (s : State) : Out := .next (if s.active && ntcValid dc then s.insertPack else s)

/-- A zone threshold in 0.1 degrees C. -/
def State.tempOf (s : State) (i : Nat) : Int := signedOf (s.reg i) 8 * 10

/-- The zone a temperature lies in, left toward the normal zone only 2 degrees past the threshold (R231). -/
def State.zoneAt (s : State) (cur : Zone) (dc : Int) : Zone :=
  let cold := s.tempOf Reg.chgTCold + (if cur == .cold then 20 else 0)
  let cool := s.tempOf Reg.chgTCool + (if cur == .cold || cur == .cool then 20 else 0)
  let warm := s.tempOf Reg.chgTWarm - (if cur == .hot || cur == .warm then 20 else 0)
  let hot := s.tempOf Reg.chgTHot - (if cur == .hot then 20 else 0)
  if dc < cold then .cold else if dc < cool then .cool
  else if (if cur == .hot then decide (hot < dc) else decide (s.tempOf Reg.chgTHot < dc)) then .hot
  else if (if cur == .hot || cur == .warm then decide (warm < dc) else decide (s.tempOf Reg.chgTWarm < dc)) then .warm
  else .normal

/-- R230: of two zones the colder when either is cold or cool, otherwise the hotter. -/
def Zone.join (a b : Zone) : Zone :=
  let low := fun z : Zone => z.code ≤ 1
  if low a || low b then (if a.code ≤ b.code then a else b) else (if a.code ≤ b.code then b else a)

/-- `CHG_NTC.ROLE2`: 0 disabled, 1 pack, 2 board. -/
def State.role2 (s : State) : Nat := s.fld Reg.chgNtc 2 2

/-- The pack zone from the readings; a faulty reading leaves the zone to the other, or as it was. -/
def State.packZone (s : State) (t1 t2 : Option Int) : Zone :=
  let z1 := (t1.filter ntcValid).map (s.zoneAt s.chg.zone)
  let z2 := if s.role2 == 1 then (t2.filter ntcValid).map (s.zoneAt s.chg.zone) else none
  match z1, z2 with
  | some a, some b => a.join b
  | some a, none => a
  | none, some b => b
  | none, none => s.chg.zone

/-- R232: NTC1 open is an absent pack, no fault. -/
def State.ntcFaulty (s : State) (t1 t2 : Option Int) : Bool :=
  t1.any (fun t => !ntcValid t) || (s.role2 != 0 && !(t2.any ntcValid))

/-- R233, with the 5 degrees below which SUSPEND may end. -/
def State.boardHotNow (s : State) (t2 : Option Int) : Bool :=
  let lim : Int := s.reg Reg.chgTboard * 10
  s.role2 == 2 && (match t2.filter ntcValid with | some t => decide (lim ≤ t) || (s.chg.boardHot && decide (lim - 50 ≤ t)) | none => s.chg.boardHot)

/-- The last readings. -/
def State.setTemps (s : State) (t1 t2 : Option Int) : State :=
  let s1 := match t1 with | some t => s.setSigned Reg.chgTemp t | none => s
  match t2 with
  | some t => if s.role2 != 0 then s1.setSigned (Reg.chgTemp + 1) t else s1
  | none => s1

/-- The extremes of the pack temperature that a test and the interval keep. -/
def State.tempSeen (s : State) (t1 : Option Int) : State :=
  match t1 with
  | none => s
  | some t =>
    { s with emg := { s.emg with run := s.emg.run.map fun r => { r with tempMin := min r.tempMin t, tempMax := max r.tempMax t } },
             tlm := { s.tlm with hist := { s.tlm.hist with packMax := some (match s.tlm.hist.packMax with | none => t | some m => max m t) } } }

/-- The readings, the zone, NTC fault and board heat, the pack's presence, and what follows for the charger and a test
(R229 to R234, R285). -/
def State.ntcMeasured (s : State) (t1 t2 : Option Int) : State :=
  let z := s.packZone t1 t2
  let bad := s.ntcFaulty t1 t2
  let s1 : State := { s with chg := { s.chg with zone := z, ntcFault := bad, boardHot := s.boardHotNow t2, measured := true } }
  let s2 := (((s1.setTemps t1 t2).tempSeen t1).postIf (z != s.chg.zone) 196).postIf (bad && !s.chg.ntcFault) 197
  let s3 := match t1 with | none => s2.removePack | some t => if ntcValid t then s2.insertPack else s2
  let s4 := (s3.chgEval false none).reLimit
  if bad || z == .cold || z == .hot then s4.testFault else s4

/-- R229: a foreground job of the ADC; NTCB is off after it unless another conversion needs it (R566). -/
def execNtcMeasure (t1 t2 : Option Int) (s : State) : Out :=
  .next (if s.active then s.adcJob s.adcFg fun t => (t.driveNtcb).ntcMeasured t1 t2 else s)

/-- R240: a reading outside the bounds of the zone in force, an open NTC included, stops charging at once. -/
def State.crossed (s : State) (t : Option Int) : Bool :=
  match t.filter ntcValid with
  | none => true
  | some t => s.zoneAt s.chg.zone t != s.chg.zone

def execDormantNtcSample (t1 t2 : Option Int) (s : State) : Out :=
  .next (if s.mode != .dormant || s.chg.dormantStop then s
    else
      let hit := s.crossed t1 || (s.role2 == 1 && s.crossed t2) || (s.boardHotNow t2 && !s.chg.boardHot)
      if !hit then s
      else ((({ s with chg := { s.chg with dormantStop := s.chg.st.inRun } } : State).refet).reLimit).post 196)

/-! The gauge. -/

/-- Q_rem follows the charge in whole mAh and stays between 0 and C_L (R245). -/
def State.followCharge (s : State) (dq : Int) : State :=
  let q := s.qacc
  let n : Int := q + dq
  let rem : Int := (s.reg Reg.chgQrem : Int) + (n / 100 - q / 100)
  (s.setReg32 Reg.chgQacc (bitsOf n 32)).setReg Reg.chgQrem (min s.chg.capL rem.toNat)

/-- Net charge into the summary, in 0.01 mAh each way. -/
def State.histCharge (s : State) (dq : Int) : State :=
  { s with tlm := { s.tlm with hist := { s.tlm.hist with qIn := s.tlm.hist.qIn + dq.toNat, qOut := s.tlm.hist.qOut + (-dq).toNat } } }

/-- The pack voltage and current as measured, and what follows them (R149, R151, R222, R237, R253). -/
def State.gaugeFollow (s : State) (vbat : Nat) (ma : Int) : State :=
  let s1 := ((s.vbatSeen vbat).setReg Reg.chgVbat (min 4095 (vbat / 10))).setSigned Reg.chgIbat ma
  ((s1.leaveHeld).reLimit).halfRate ma

/-- R244 to R248: `dq` is the charge since the last update in 0.01 mAh, `avgDis` the discharge current over the last 60 s.
The integrator runs in every state but OFF and SHIP, and so do the comparators on VBAT; the registers follow in ACTIVE. -/
def execGaugeUpdate (dq : Int) (vbat : Nat) (ma : Int) (avgDis : Nat) (s : State) : Out :=
  .next (if s.mode == .off || s.mode == .ship then s
    else
      let s1 := s.followCharge dq
      if !s.active then (s1.vbatSeen vbat).reLimit
      else
        let atWarn := s.chem != 0 && decide (ma < 0) && decide (vbat ≤ s.packMv (s.reg Reg.emgWarn))
        let s2 := s1.when atWarn (·.setReg Reg.chgQrem 0)
        ((((s2.histCharge dq).gaugeFollow vbat ma).setSoc (s.flag Reg.chgSoc 15)).setReserve avgDis).checkOffer)

end Sys2Proof.Machine
end

