-- ==== Sys2Proof/Machine/Access.lean ====
section
/-! DEFINITION. An agent's rights and the refusals of the serial port: DENIED, PEC_REQUIRED, the command status
(11, Protection on access, PEC). -/

namespace Sys2Proof.Machine

/-- SYS_RIGHTS code of agent a on a bank: 0 none, 1 read, 2 read-write (R107, R432). -/
def State.right (s : State) (a : Agent) (bank : Nat) : Nat := bits (s.reg (0x40 + 8 * a.val + bank / 8)) (2 * (bank % 8)) 2

def State.canRead (s : State) (a : Agent) (bank : Nat) : Bool := s.right a bank == 1 || s.right a bank == 2
def State.canWrite (s : State) (a : Agent) (bank : Nat) : Bool := s.right a bank == 2

/-- SER_AGTn_CFG.PEC. -/
def State.pecOn (s : State) (a : Agent) : Bool := s.flag (Reg.serAgtCfg a.val) 2

/-- The bank is marked in PEC_REQ and the agent's PEC is off (R431). -/
def State.pecMissing (s : State) (a : Agent) (bank : Nat) : Bool := bit (s.reg (0x60 + bank / 16)) (bank % 16) && !s.pecOn a

/-- SER_AGTn_STAT.STATUS (R427). -/
def State.setStatus (s : State) (a : Agent) (v : Nat) : State := s.setFld (Reg.serAgtStat a.val) 0 4 v

/-- A denial: DENIED, and on its rise the access and its posting (R433). `acc` is a window index, or 0x8000 plus a command
code. -/
def State.denied (s : State) (a : Agent) (acc : Nat) : State :=
  let old := s.flag (Reg.serAgtStat a.val) 4
  ((s.setFlag (Reg.serAgtStat a.val) 4 true).when (!old) (·.setReg (Reg.serAgtDenyIdx a.val) acc)).postIf (!old) (416 + a.val)

/-- The flag of R431. -/
def State.pecRefused (s : State) (a : Agent) : State := s.setFlag (Reg.serAgtStat a.val) 6 true

/-- What the port keeps for agent a, changed. -/
def State.setAg (s : State) (a : Agent) (f : SerAgent → SerAgent) : State :=
  { s with ser := { s.ser with ag := s.ser.ag.set a (f (s.ser.ag.get a)) } }

/-- Calls whose attention is no longer due are over (R443, R448): ALERT_N is released when none of its own is left. -/
def State.attnSettle (s : State) : State :=
  let g : Agent → SerAgent := fun a =>
    let x := s.ser.ag.get a
    { x with called := x.called && s.attnCall a, want := x.want && s.attnCall a, fallback := x.fallback && s.attnDue a,
             tries := if s.attnCall a then x.tries else 0 }
  { s with ser := { s.ser with
      ag := ⟨g 0, g 1, g 2, g 3⟩
      alert := s.ser.alert && fin4.any fun a => s.attnCall a && (s.agtMode a == 1 || (g a).fallback) } }

end Sys2Proof.Machine
end

