-- ==== Sys2Proof/Machine/Measure.lean ====
section
/-! DEFINITION. One-shots, the telemetry schedule, HISTORY summaries, calibration and the deadlines of the background work
(15). The conversions themselves are what the commands bring. -/

namespace Sys2Proof.Machine

/-! Channels. -/

/-- R565: the channel belongs to an absent unit. -/
def absentChannel (v : Variant) (c : Nat) : Bool :=
  (!v.hasPort .c1 && (c == 2 || c == 14)) || (!v.hasPort .c2 && (c == 3 || c == 15))

/-- Channels with a two's-complement result (R564). -/
def signedChannel (c : Nat) : Bool := (7 ≤ c && c ≤ 15) || (24 ≤ c && c ≤ 26)

/-- A register holding a result of channel c, as a number. -/
def channelValue (c w : Nat) : Int := if signedChannel c then signedOf w 16 else w

/-- The mean, rounded toward zero (R567). -/
def meanOf (xs : List Int) : Int := xs.sum.tdiv xs.length

def lowest (xs : List Int) : Int := xs.foldl min (xs.headD 0)
def highestOf (xs : List Int) : Int := xs.foldl max (xs.headD 0)

/-! One-shots. -/

def State.osStatus (s : State) (a : Agent) (v : Nat) : State := s.setFld (Reg.tlmOsStat a.val) 4 4 v

/-- TLM_OSn_CTL written by its agent (R567, R569). -/
def State.writeOneshot (s : State) (a : Agent) (v : Nat) : State :=
  let i := Reg.tlmOsCtl a.val
  let s1 := s.setReg i (storeFields (fieldsOf i) (s.reg i) v)
  let ch := bits v 0 6
  if !bit v 15 then s1
  else if (s.tlm.os.get a).busy || 28 ≤ ch then s1.osStatus a 6
  else if absentChannel s.part.variant ch then (s1.setReg (Reg.tlmOsResult a.val) 0).osStatus a 1
  else (({ s1 with tlm := { s1.tlm with os := s1.tlm.os.set a ⟨true, ch, bits v 8 3⟩, order := s1.tlm.order ++ [a] } } : State).osStatus a 0).driveNtcb

/-- R569: v is the word written with GO. -/
def execOneshotGo (a : Agent) (v : Word) (s : State) : Out :=
  .next (if s.active && bit v.toNat 15 then s.writeOneshot a v.toNat else s)

/-- The one-shot of agent a ends: the mean, the spread, DONE (R567). -/
def State.oneshotEnd (s : State) (a : Agent) (samples : List Int) : State :=
  let s1 := (s.setSigned (Reg.tlmOsResult a.val) (meanOf samples)).setSigned (Reg.tlmOsSpread a.val) (highestOf samples - lowest samples)
  let s2 : State := { s1 with tlm := { s1.tlm with os := s1.tlm.os.set a { s1.tlm.os.get a with busy := false }, order := s1.tlm.order.erase a } }
  ((s2.setFlag (Reg.tlmOsStat a.val) 1 true).driveNtcb).post 468

/-- R567, R30: the ADC serves one-shots in the order in which they were admitted, each as one foreground job. -/
def execOneshotDone (a : Agent) (samples : List Int) (s : State) : Out :=
  .next (if !(s.active && (s.tlm.os.get a).busy && s.tlm.order.head? == some a) then s
    else s.adcJob (decide (2 ≤ s.tlm.order.length)) fun t => t.oneshotEnd a samples)

/-! Deadlines. -/

/-- R572: late telemetry counts each time and posts at most once in a second. -/
def State.tlmLate (s : State) : State :=
  let s1 := (s.bump Reg.tlmLateCnt 1).setFlag Reg.bgLate 0 true
  ({ s1 with tlm := { s1.tlm with lateRecent := true } } : State).postIf (!s.tlm.lateRecent) 475

/-- The event source of an activity's deadline (R588). -/
def deadlineSource (a : Fin 6) : Nat := if a.val == 1 then 473 else if a.val == 0 then 475 else 474 + a.val

/-- R589, R34. -/
def execDeadlineMiss (a : Fin 6) (s : State) : Out :=
  .next (if !s.active then s
    else if a.val == 0 then s.tlmLate
    else
      let s1 := s.setFlag Reg.bgLate a.val true
      ({ s1 with tkr := { s1.tkr with scrubLate := s1.tkr.scrubLate || a.val == 3 } } : State).post (deadlineSource a))

/-! The telemetry schedule. -/

/-- The entry runs (R571, R574): enabled, of a valid channel, and TLM_CTL.EN for an agent's entry. -/
def State.entryRuns (s : State) (e : Nat) : Bool :=
  s.flag (Reg.tlmCfg + e) 15 && (e < 22 || s.flag Reg.tlmCtl 0) && decide (s.fld (Reg.tlmCfg + e) 0 6 < 28)

/-- R571: queued as background work on the ADC; an instance still incomplete makes this one skip, late (R573). -/
def execTelemetryDue (e : BitVec 6) (s : State) : Out :=
  .next (if !(s.active && s.entryRuns e.toNat) then s
    else if s.tlm.flight.any (·.1 == e.toNat) then s.tlmLate
    else (({ s with tlm := { s.tlm with flight := s.tlm.flight ++ [(e.toNat, s.reg (Reg.tlmCfg + e.toNat))] } } : State).setAdc (s.arb.adc.await 0)).driveNtcb)

/-- A stream ring entry (R574). -/
def streamEntry (e ch : Nat) (xs : List Int) (rtc : Nat) (sub : Word) (n : Nat) : List Byte :=
  leBytes 1 e ++ leBytes 1 ch ++ leInt 2 (meanOf xs) ++ leInt 2 (lowest xs) ++ leInt 2 (highestOf xs) ++ leBytes 4 rtc ++ leBytes 2 sub.toNat
    ++ leBytes 2 n

/-- The result enters its stream ring; the first of a boot carries count 0. -/
def State.stream (s : State) (e cfg : Nat) (xs : List Int) : State :=
  let n := SMap.get (fun _ => 0) s.tlm.count e
  let item := streamEntry e (bits cfg 0 6) xs s.rtc (Config.subSecond s.fab.stamp) n
  let s1 : State := { s with tlm := { s.tlm with count := SMap.set (fun _ => 0) s.tlm.count e ((n + 1) % 65536) },
                             fab := { s.fab with stamp := s.fab.stamp + 1 } }
  s1.ringWrite (7 + bits cfg 8 4) [item]

/-- R575: the entry's bit, TLM_LIMIT when it rises. -/
def State.limits (s : State) (e cfg : Nat) (m : Int) : State :=
  let ch := bits cfg 0 6
  let out := (bit cfg 6 && decide (channelValue ch (s.reg (Reg.tlmLimhiE + e)) < m))
    || (bit cfg 7 && decide (m < channelValue ch (s.reg (Reg.tlmLimloE + e))))
  let r := Reg.tlmLimitStat + e / 16
  if out then (s.setFlag r (e % 16) true).postIf (!s.flag r (e % 16)) 469 else s

/-! HISTORY. -/

def tally (m : Nat × Int) (v : Int) : Nat × Int := (m.1 + 1, m.2 + v)

/-- The last result of a channel's fixed entry, signed as its channel. -/
def State.lastInt (s : State) (e : Nat) : Int := channelValue (s.fld (Reg.tlmCfg + e) 0 6) (s.lastOf e)

/-- VBUSn × IXn of a port, in uW, with the sign of R579. -/
def State.portPower (s : State) (p : Port) : Int :=
  let w : Int := (s.lastInt (2 + p.ix) * s.lastInt (9 + p.ix)).natAbs
  match (s.pdp.get p).role with
  | .source => w
  | .sink => -w
  | .none => 0

/-- The 10 ms instant of R579, taken with the result of entry 10, the last it needs. -/
def State.histInstant (s : State) : State :=
  let v : Int := match s.pp.conn with | some i => s.lastInt i.ix.val | none => 0
  let iin := s.lastInt 4
  let src := max 0 (s.portPower .c1) + max 0 (s.portPower .c2)
  let aux : Int := (s.lastInt 1 * iin).natAbs
  let h := s.tlm.hist
  { s with tlm := { s.tlm with hist := { h with
      pin := tally h.pin (if s.cnv.rev then 0 else v * iin),
      prail := tally h.prail (s.lastInt 5 * s.lastInt 8 - s.lastInt 6 * s.lastInt 7 - src),
      pport := tally h.pport (s.portPower .c1 + s.portPower .c2),
      paux := tally h.paux (if s.cnv.rev then aux else if s.pp.conn == some .aux && s.importG != 0 then -aux else 0) } } }

/-- What the interval gathers from a result of entry e (R579). -/
def State.histResult (s : State) (e : Nat) (m : Int) : State :=
  let h := s.tlm.hist
  match e with
  | 5 => { s with tlm := { s.tlm with hist := { h with vsys := tally h.vsys m } } }
  | 6 => { s with tlm := { s.tlm with hist := { h with vbat := tally h.vbat m } } }
  | 7 => { s with tlm := { s.tlm with hist := { h with ibat := tally h.ibat m } } }
  | 10 => s.histInstant
  | 19 => { s with tlm := { s.tlm with hist := { h with dieMax := some (match h.dieMax with | none => m | some x => max x m) } } }
  | _ => s

/-- A mean in its unit, rounded toward zero; the n-th use and byte k where nothing was measured. -/
def histMean (m : Nat × Int) (unit : Int) (n k : Nat) : Int :=
  if m.1 == 0 then Config.noReading n k else m.2.tdiv (m.1 * unit)

/-- A highest reading in whole degrees, rounded down. -/
def histMax (m : Option Int) (n k : Nat) : Int :=
  match m with
  | some t => t / 10
  | none => Config.noReading n k

/-- The summary of the interval in progress (R554, R579). -/
def State.summaryBytes (s : State) : List Byte :=
  let h := s.tlm.hist
  let f := s.free
  let soc := s.peek 0 Reg.chgSoc
  leBytes 4 (if s.rtcValid then s.rtc else s.tlm.up) ++ leInt 2 (histMean h.vsys 20 f 4) ++ leInt 2 (histMean h.vbat 10 f 6)
    ++ leInt 2 (histMean h.ibat 1 f 8) ++ leInt 2 (histMean h.pin 100000 f 10) ++ leInt 2 (histMean h.prail 100000 f 12)
    ++ leInt 2 (histMean h.pport 100000 f 14) ++ leInt 2 (histMean h.paux 100000 f 16)
    ++ leBytes 1 (h.inputs + 16 * s.pp.valid.toNat) ++ leBytes 1 h.flags ++ leBytes 1 (s.chg.st.code + 16 * s.chg.zone.code)
    ++ leBytes 1 (if bit soc 15 then bits soc 0 8 else 0xFF) ++ leInt 1 (histMax h.packMax f 22) ++ leInt 1 (histMax h.dieMax f 23)
    ++ leBytes 2 (h.qIn / 100) ++ leBytes 2 (h.qOut / 100) ++ leBytes 2 (min 65535 h.emgSecs) ++ leBytes 2 (s.tkr.hcount + 1)

/-- The conditions of byte 19 that hold now. -/
def State.histFlags (s : State) : Nat :=
  b2n s.emg.emergency + 2 * b2n s.testing + 4 * b2n s.cnv.rev + 8 * b2n (s.cnv.healthyCount == 1)
    + 16 * b2n (fin8.any s.seq.warned.get) + 32 * b2n (!s.rtcValid)

/-- An interval starts; the charge below 1 mAh of the last is carried. -/
def State.histStart (s : State) : State :=
  let h := s.tlm.hist
  { s with tlm := ({ s.tlm with hist := { Hist.init with flags := s.histFlags, qIn := h.qIn % 100, qOut := h.qOut % 100 } } : Tlm).sees s.pp.conn }

/-- The interval in progress ends: its summary is buffered (R576, R577). -/
def State.histEnd (s : State) : State :=
  let s1 : State := { s with tkr := { s.tkr with hbuf := s.tkr.hbuf ++ [s.summaryBytes], hcount := s.tkr.hcount + 1 } }
  s1.nextFree.histStart

/-- The present end of the interval (R576): a multiple of the clock, or the interval's own length. -/
def State.histDue (s : State) (secs : Nat) : Bool :=
  let n := 60 * s.reg Reg.tlmHistInterval
  if s.rtcValid then s.rtc % n == 0 else decide (n ≤ secs)

/-- R576: `secs` is how long the interval has lasted. -/
def execHistoryIntervalEnd (secs : Nat) (s : State) : Out := .next (if s.active && s.histDue secs then s.histEnd else s)

/-- TLM_HIST_INTERVAL written: an interval whose new boundary has passed ends at once (15, When things coincide). -/
def State.writeHistInterval (s : State) (v secs : Nat) : State :=
  let i := Reg.tlmHistInterval
  let s1 := s.setReg i (storeFields (fieldsOf i) (s.reg i) v)
  let n := 60 * s1.reg i
  let passed := if s.rtcValid then decide ((s.rtc - secs) / n < s.rtc / n) else decide (n ≤ secs)
  if passed then s1.histEnd else s1

def execTlmHistInterval (v : Word) (secs : Nat) (s : State) : Out :=
  .next (if s.active then s.writeHistInterval v.toNat secs else s)

/-! Results. -/

/-- What a fixed entry serves beside its TLM_LAST_e (15, Fixed entries). -/
def State.fixedResult (s : State) (e : Nat) (m : Int) : State :=
  if e == 6 then s.gaugeFollow m.toNat (s.signed Reg.chgIbat)
  else if e == 7 then ((s.setSigned Reg.chgIbat m).reLimit).halfRate m
  else if e == 1 then s.seeVaux m.toNat
  else if 11 ≤ e && e ≤ 18 then
    ((s.setReg (Reg.railSns (e - 11)) (min 4095 m.toNat)).seeSns (Fin.ofNat 8 (e - 11)) m.toNat).resumeDown
  else s

/-- The instance of an entry is over; what is still due goes on waiting for the ADC. -/
def State.landed (s : State) (inst : Nat × Nat) : State :=
  let s1 : State := { s with tlm := { s.tlm with flight := s.tlm.flight.erase inst } }
  ((s1.when (!s1.tlm.flight.isEmpty) fun t => t.setAdc (t.arb.adc.await 0))).driveNtcb

/-- The result of an instance (R574, R575). A channel of an absent unit is not converted, and its result reads 0 (R565). -/
def State.telemetryEnd (s : State) (inst : Nat × Nat) (samples : List Int) : State :=
  let n := inst.1
  let s1 := s.landed inst
  if absentChannel s.part.variant (bits inst.2 0 6) then (s1.setReg (Reg.tlmLastE + n) 0).histResult n 0
  else
    let m := meanOf samples
    let t := ((s1.setSigned (Reg.tlmLastE + n) m).fixedResult n m).histResult n m
    (t.when (bits inst.2 8 4 != 0) (·.stream n inst.2 samples)).limits n inst.2 m

/-- An entry of a lower number was due at the last atom boundary and still is (R571). -/
def State.earlierDue (s : State) (n : Nat) : Bool := s.tlm.flight.any fun f => decide (f.1 < n) && s.tlm.queued.contains f.1

/-- R571, R572, R574: the entries that are due are served in ascending number. -/
def execTelemetryResult (e : BitVec 6) (samples : List Int) (lateUs : Nat) (s : State) : Out :=
  .next (match s.tlm.flight.find? (·.1 == e.toNat) with
    | none => s
    | some inst =>
      if !s.active || s.earlierDue e.toNat then s
      else s.adcAtom 0 fun t => (t.telemetryEnd inst samples).when (decide (s.reg (Reg.tlmPeriod + e.toNat) * 125 < lateUs)) State.tlmLate)

/-- TLM_CFG_e or TLM_PERIOD_e written (R591, R592). -/
def State.writeTlm (s : State) (i v : Nat) : State := s.setReg i (storeFields (fieldsOf i) (s.reg i) v)

/-- R592: an instance that has fallen due keeps the settings it started with. -/
def execTlmCfg (e : BitVec 6) (period : Bool) (v : Word) (s : State) : Out :=
  .next (if s.active then s.writeTlm ((if period then Reg.tlmPeriod else Reg.tlmCfg) + e.toNat) v.toNat else s)

/-! Calibration. -/

/-- The self-test of unit u is queued as background work (R521). -/
def State.testQueued (s : State) (u : UnitId) : State :=
  (s.setUnit u { s.chk.units.get u with begun := false, held := false }).setChkArb u ((s.arb.chk.get u).await 2)

/-- A pass is queued as background work on the ADC, and with it the self-test of each usable unit (15, Calibration; R521). -/
def State.passStart (s : State) : State :=
  let s1 : State := { s with
    cal := { s.cal with busy := true, again := false },
    chk := { s.chk with tests := ⟨s.unitUsable 0, s.unitUsable 1, s.unitUsable 2, s.unitUsable 3⟩ } }
  let s2 := (fin4.filter s.unitUsable).foldl State.testQueued (s1.setAdc (s1.arb.adc.await 1))
  (s2.setReg (Reg.bgProgA + 1) 0).testProgress

/-- A trigger starts a pass; during a pass it causes exactly one more (R580). -/
def State.calStart (s : State) : State :=
  if s.cal.busy then { s with cal := { s.cal with again := true } } else s.passStart

def execCalRun (s : State) : Out := .next (if s.active then s.calStart else s)

/-- R580: CAL_PERIOD since the last pass, or CAL_DTEMP from its die temperature. -/
def execCalTrigger (die : Int) (mins : Nat) (s : State) : Out :=
  .next (if s.active && (decide (s.reg Reg.calPeriod ≤ mins)
      || (!s.cal.fuseOnly && decide (s.reg Reg.calDtemp * 10 ≤ (die - s.cal.die).natAbs))) then s.calStart else s)

/-- A sense point's offset is stored as measured, with age 0 (R586, R587). -/
def State.storeOffset (s : State) (p : Fin 8) (uv : Int) : State :=
  let s1 := (s.setSigned (Reg.calOfsS + p.val) (clampTo (-32768) 32767 uv)).setReg (Reg.calOfsAgeS + p.val) 0
  { s1 with cal := { s1.cal with stale := s1.cal.stale &&& ~~~(BitVec.ofNat 8 (2 ^ p.val)) } }

/-- R582's bounds: gain in 10 ppm, offset in LSB of the 16-bit range. -/
def calWithin (gain off : Four Int) : Bool :=
  gain.toList.all (fun g => decide (g.natAbs ≤ 2000)) && off.toList.all fun o => decide (o.natAbs ≤ 327)

/-- A pass ends: the coefficients take effect together or not at all (R581 to R586). -/
def State.passEnd (s : State) (gain off : Four Int) (ratio iin ibat die : Int) : State :=
  let ok := calWithin gain off
  let w : Int → Word := fun v => BitVec.ofNat 16 (bitsOf v 16)
  let slow := decide (60 < ratio.natAbs)
  let c : Cal := { s.cal with busy := false, again := false, fuseOnly := false, fail := !ok, clock := s.cal.clock || slow, die := die,
                              trimDie := die, coef := if ok then ⟨gain.map w, off.map w⟩ else s.cal.coef }
  let s1 := ({ s with cal := c } : State).setReg32 Reg.calLast s.rtc
  let s2 := (s1.when ok (·.bump Reg.calPasses 1)).setFld Reg.calClockErr 0 8 (bitsOf (clampTo (-128) 127 ratio) 8)
  let s3 := (((s2.storeOffset 6 iin).storeOffset 7 ibat).post (if ok then 471 else 472)).postIf slow 474
  if s.cal.again then s3.passStart else s3.setReg (Reg.bgProgA + 1) 100

/-- R580 to R586; `ratio` is the clock's deviation in 0.1 %. -/
def execCalPassEnd (gain off : Four Int) (ratio iin ibat die : Int) (s : State) : Out :=
  .next (if !(s.active && s.cal.busy) then s else s.adcAtom 1 fun t => t.passEnd gain off ratio iin ibat die)

/-- R584: 2 degrees from the value last used. -/
def execTboTrim (die : Int) (s : State) : Out :=
  .next (if s.active && decide (20 ≤ (die - s.cal.trimDie).natAbs) then { s with cal := { s.cal with trimDie := die } } else s)

/-- A sense point of an absent port converter. -/
def State.noPoint (s : State) (p : Fin 8) : Bool :=
  (p.val == 4 && !s.part.variant.hasPort .c1) || (p.val == 5 && !s.part.variant.hasPort .c2)

/-- A pass in progress goes on waiting for the ADC. -/
def State.passWaits (s : State) : State := s.when s.cal.busy fun t => t.setAdc (t.arb.adc.await 1)

/-- The sense point carries no current: its phase is shed, isolated or stopped, or idles until its next cycle in diode emulation
(R175, R586). -/
def State.zeroCurrent (s : State) (p : Fin 8) : Bool :=
  if p.val < 4 then
    let c := s.cnv.phases.get (Fin.ofNat 4 p.val)
    c.st != .run || c.iv == .idle
  else
    let x := s.cnv.x.get (if p.val == 4 then .c1 else .c2)
    !x.run || x.iv == .idle

/-- R586: points 0 to 5, at a zero-current instant; the front ends of IIN and IBAT are measured with each pass. -/
def execSenseOffset (p : Fin 8) (uv : Int) (s : State) : Out :=
  .next (if s.active && decide (p.val < 6) && !s.noPoint p && s.zeroCurrent p then
      s.adcAtom 1 fun t => (t.storeOffset p uv).passWaits
    else s)

/-- R587, R588: older than CAL_OFS_MAX, which misses the deadline of activity 1. -/
def execOffsetStale (p : Fin 8) (s : State) : Out :=
  .next (if s.active && !s.noPoint p && !bit s.cal.stale.toNat p.val && decide (60 * s.reg Reg.calOfsMax < s.reg (Reg.calOfsAgeS + p.val)) then
      (({ s with cal := { s.cal with stale := s.cal.stale ||| BitVec.ofNat 8 (2 ^ p.val) } } : State).setFlag Reg.bgLate 1 true).post 473
    else s)

end Sys2Proof.Machine
end

