-- ==== Sys2Proof/Machine/Clock.lean ====
section
/-! DEFINITION. One second in which no command comes: the clocks and timers that software can see, and the ends of the times
within which a second posting is not made (log 1). -/

namespace Sys2Proof.Machine

/-- The charge timers, in half seconds (R235, R237). -/
def Chg.second (c : Chg) : Chg :=
  { c with tRecov := if c.st == .recover then c.tRecov + 2 else c.tRecov,
           tPre := if c.st == .recover || c.st == .precharge then c.tPre + 2 else c.tPre,
           tSafe := if c.safetyCounts then c.tSafe + (if c.halfRate then 1 else 2) else c.tSafe }

/-- The time of EMERGENCY, or of a running test (`EMG_ELAPSED`). -/
def Emg.second (e : Emg) : Emg :=
  { e with emgSecs := if e.emergency then e.emgSecs + 1 else e.emgSecs, elapsed := if e.run.isSome then e.elapsed + 1 else e.elapsed }

/-- The boot-relative clock and the interval in progress (R576, R579). -/
def Tlm.second (t : Tlm) (emergency : Bool) : Tlm :=
  { t with lateRecent := false, up := t.up + 1,
           hist := { t.hist with secs := t.hist.secs + 1, emgSecs := t.hist.emgSecs + b2n emergency } }

/-- A new Cinch trip posts again (R169). -/
def Cnv.second (c : Cnv) : Cnv :=
  let x : XCell → XCell := fun x => { x with cinch := false }
  { c with phases := c.phases.map fun p => { p with cinch := false }, x := ⟨x c.x.p1, x c.x.p2⟩ }

/-- Error recovery, 25 ms at the least, is over (R368, log 70). -/
def PortSt.second (c : PortSt) : PortSt := { c with openCc := false }

/-- The VSYS target in force after a second of ramping to its goal at `CNV_SLEW`, in 0.1 V/ms (R167); 20 mV units. -/
def rampTarget (tgt goal slew : Nat) : Nat :=
  let step := slew * 5000
  if tgt < goal then min goal (tgt + step) else max goal (tgt - step)

/-- The ages of the sense offsets step once a minute (R586). -/
def State.ageOffsets (s : State) : State :=
  if s.cal.secs + 1 < 60 then { s with cal := { s.cal with secs := s.cal.secs + 1 } }
  else
    fin8.foldl (fun t p => if t.noPoint p then t else t.bump (Reg.calOfsAgeS + p.val) 1) { s with cal := { s.cal with secs := 0 } }

/-- One second passes. The real-time clock runs in every state with the Keeper; the charge timers while charging goes on. -/
def State.second (s : State) : State :=
  if s.mode == .off then s
  else
    let s1 := s.setReg32 Reg.kprRtc (s.rtc + 1)
    let s2 : State := { s1 with chg := if s.chgAlive then s.chg.second else s.chg, cnv := { s.cnv.second with tgt := rampTarget s.cnv.tgt s.cnv.goal (s.reg Reg.cnvSlew) } }
    if !s.active then s2
    else
      let s3 : State := { s2 with emg := s.emg.second, tlm := s.tlm.second s.emg.emergency, pdp := ⟨s.pdp.p1.second, s.pdp.p2.second⟩, lnk := { s.lnk with capRecent := false },
                                  fab := { s.fab with corrRecent := false } }
      s3.ageOffsets

end Sys2Proof.Machine
end

