-- ==== Sys2Proof/Machine/Rings.lean ====
section
/-! DEFINITION. Ring SRAM and the rings as agents reach them: pushes, pops, raw access, allocation, ECC (13); and the
meanings of those commands. -/

namespace Sys2Proof.Machine

/-- RING_RESULT of agent a. -/
def State.result (s : State) (a : Agent) (v : Nat) : State := s.setAg a fun g => { g with result := v }

/-- The entry latch of agent a (R505): eight registers of an entry, little-endian. -/
def entryWords (e : List Byte) : Eight Word :=
  let w := fun i => BitVec.ofNat 16 (leNat (slice e (2 * i) 2))
  ⟨w 0, w 1, w 2, w 3, w 4, w 5, w 6, w 7⟩

def State.setLatch (s : State) (a : Agent) (l : Eight Word) : State := s.setAg a fun g => { g with latch := l }

def State.clearLatch (s : State) (a : Agent) : State := s.setLatch a (Eight.all 0)

/-- The sixteen bytes that eight registers spell. -/
def wordsEntry (l : Eight Word) : List Byte := l.toList.flatMap fun w => leBytes 2 w.toNat

/-! ECC (R507). -/

/-- An uncorrectable word is found. -/
def State.eccFound (s : State) (w : Nat) : State :=
  ({ s with fab := { s.fab with eccUncorr := satAdd 65535 s.fab.eccUncorr 1, eccAddr := w,
                                bad := if s.fab.bad.contains w then s.fab.bad else s.fab.bad ++ [w] } } : State).post 435

def State.eccFoundAll (s : State) : List Nat → State
  | [] => s
  | w :: ws => (s.eccFound w).eccFoundAll ws

/-- R507, R588: one word read by the scrub with `flips` wrong bits; BG_PROG_5 follows the word (log 51). -/
def execSramScrub (word : Word) (flips : Nat) (s : State) : Out :=
  .next (if !s.active then s
    else
      let s1 := s.setReg (Reg.bgProgA + 5) (word.toNat * 100 / 65536)
      if 2 ≤ flips || s.fab.bad.contains word.toNat then s1.eccFound word.toNat
      else if flips == 1 then
        ({ s1 with fab := { s1.fab with eccCorr := satAdd 65535 s.fab.eccCorr 1, corrRecent := true } } : State).postIf (!s.fab.corrRecent) 434
      else s1)

/-! Pops. -/

/-- What a pop of at most `max` entries finds from `off` places behind the head: the entries taken, the uncorrectable words
met, and how many entries leave the ring (R498, R507). An item with such an entry among those to take is discarded whole. -/
def popScan (f : Fabric) (r : Ring) : List Nat → Nat → Nat → List (List Byte) × List Nat × Nat
  | [], off, _ => ([], [], off)
  | n :: ns, off, max =>
    if max == 0 then ([], [], off)
    else
      let m := min n max
      match (List.range m).find? fun i => f.bad.contains (r.word (off + i)) with
      | some i =>
        let (es, bad, c) := popScan f r ns (off + n) max
        (es, r.word (off + i) :: bad, c)
      | none =>
        let mine := (List.range m).map fun i => f.getWord (r.word (off + i))
        if m < n then (mine, [], off + m)
        else
          let (es, bad, c) := popScan f r ns (off + n) (max - m)
          (mine ++ es, bad, c)

/-- A pop of at most `max` entries of ring k. -/
def State.popRing (s : State) (k max : Nat) : State × List (List Byte) :=
  let r := s.fab.ring k
  let (es, bad, c) := popScan s.fab r r.items 0 max
  let r1 := { r.advance c with drops := satAdd 65535 r.drops bad.length }
  (({ s with fab := s.fab.setRing k r1 } : State).eccFoundAll bad, es)

/-! Jobs that no unit can run (R527). -/

/-- The unit that owns a submit ring. -/
def ringOwner (k : Nat) : UnitId := Fin.ofNat 4 ((k - 32) / 8)

/-- A completion entry (13). -/
def completion (tag result bytes status flags : Nat) (unit : UnitId) (ring : Nat) : List Byte :=
  leBytes 4 tag ++ leBytes 4 result ++ leBytes 4 bytes ++ leBytes 1 status ++ leBytes 1 flags ++ leBytes 1 unit.val ++ leBytes 1 ring

/-- A job of ring k ends with NO_UNIT. -/
def State.noUnit (s : State) (k tag : Nat) : State :=
  (((s.ringWrite (k + 1) [completion tag 0 0 7 0 (ringOwner k) k]).post (448 + (ringOwner k).val)).post 453)

/-- The oldest entry of submit ring k goes with its queue place; `none` where it is uncorrectable, which discards it. -/
def State.takeEntry (s : State) (q : QJob) : State × Option (List Byte) :=
  let (s1, es) := s.popRing q.ring 1
  let gone := (s.fab.ring q.ring).count - (s1.fab.ring q.ring).count
  let rec dropN : Nat → List QJob → List QJob
    | 0, qs => qs
    | n + 1, qs => dropN n (match qs.find? (·.ring == q.ring) with | some x => qs.erase x | none => qs)
  ({ s1 with chk := { s1.chk with queue := dropN gone s1.chk.queue } }, es.head?)

/-- One waiting job whose completion ring has room completes with NO_UNIT, the earliest first. -/
def State.noUnitOne (s : State) : State :=
  match s.chk.restart.find? (fun j => s.ringFits (j.ring + 1) 1), s.chk.queue.find? (fun q => s.ringFits (q.ring + 1) 1) with
  | some j, _ => ({ s with chk := { s.chk with restart := s.chk.restart.erase j } } : State).noUnit j.ring (leNat (slice j.entry 8 4))
  | none, some q =>
    match s.takeEntry q with
    | (s1, some e) => s1.noUnit q.ring (leNat (slice e 8 4))
    | (s1, none) => s1
  | none, none => s

def State.noUnitAll (s : State) : Nat → State
  | 0 => s
  | n + 1 => s.noUnitOne.noUnitAll n

/-- R527, where no unit is usable. -/
def State.chkDrain (s : State) : State :=
  if fin4.any s.unitUsable then s else s.noUnitAll (s.chk.queue.length + s.chk.restart.length)

/-! Pushes. -/

/-- Submit rings of the Check units. -/
def isSubmit (k : Nat) : Bool := 32 ≤ k && k < 64 && k % 2 == 0

/-- Places in the units' queue for n entries pushed by agent a into submit ring k (R508, R512). -/
def State.queueJobs (s : State) (a : Agent) (k : Nat) : Nat → State
  | 0 => s
  | n + 1 =>
    ({ s with chk := { s.chk with queue := s.chk.queue ++ [⟨k, s.chk.pushNo, s.canRead a 9, false⟩], pushNo := s.chk.pushNo + 1 } } : State).queueJobs a k n

/-- Agent a pushes entries into ring k, which has room for them: each is an entry of its own; a pool ring's doorbell follows
(R498, R502). -/
def State.agentPush (s : State) (a : Agent) (k : Nat) (es : List (List Byte)) : State :=
  let s1 : State := { s with fab := es.foldl (fun f e => f.append k [e]) s.fab }
  let s2 := if isSubmit k then s1.queueJobs a k es.length else s1
  let r := s.fab.ring k
  let s3 := if 64 ≤ k && r.dbEn && !es.isEmpty then s2.postAs r.db (a.val + 1) else s2
  s3.chkDrain

/-- Agents push into ring k (R494). -/
def agentsPush (k : Nat) : Bool := ringDir k != 0
/-- Agents pop ring k (R494). -/
def agentsPop (k : Nat) : Bool := !(24 ≤ k && k < 32) && ringDir k != 1

/-- Agent a may pop ring k, of those that agents pop (R496, R497). -/
def State.mayPop (s : State) (a : Agent) (k : Nat) : Bool :=
  if k < 8 then k / 2 == a.val else if k < 64 then true else bit (s.fab.ring k).pop a.val

/-- Agent a pops ring k; room in a completion ring lets waiting NO_UNIT completions in (R509, R527). -/
def State.agentPop (s : State) (k max : Nat) : State × List (List Byte) :=
  let (s1, es) := s.popRing k max
  (s1.chkDrain, es)

/-! Window access (R503 to R506). -/

/-- RING_SEL.RAW. -/
def State.rawSel (s : State) (a : Agent) : Bool := (s.ser.ag.get a).sel.toNat / 256 % 2 == 1

/-- The eight values, when the write holds every data register. -/
def wholeEntry (data : List (Fin 8 × Word)) : Option (Eight Word) :=
  let get := fun i : Fin 8 => (data.find? fun d => d.1 == i).map (·.2)
  match get 0, get 1, get 2, get 3, get 4, get 5, get 6, get 7 with
  | some a, some b, some c, some d, some e, some f, some g, some h => some ⟨a, b, c, d, e, f, g, h⟩
  | _, _, _, _, _, _, _, _ => none

/-- A write of data registers that selects a ring (R504). -/
def State.dataPush (s : State) (a : Agent) (data : List (Fin 8 × Word)) : State :=
  let k := s.selRing a
  if absentRing s.part.variant k then s.result a 1
  else if !agentsPush k then s.result a 2
  else match wholeEntry data with
    | none => s.result a 5
    | some l => if s.ringFits k 1 then (s.result a 0).agentPush a k [wordsEntry l] else s.result a 4

/-- The word lies inside an allocated ring. -/
def State.inRing (s : State) (w : Nat) : Bool :=
  (List.range 256).any fun k =>
    let r := s.fab.ring k
    !absentRing s.part.variant k && r.size != 0 && decide (r.base * 16 ≤ w ∧ w < r.base * 16 + r.cap)

/-- RING_ADDR steps, wrapping from 65535 to 0. -/
def State.stepAddr (s : State) (a : Agent) : State := s.setAg a fun g => { g with addr := g.addr + 1 }

/-- A raw write (R506). -/
def State.rawWrite (s : State) (a : Agent) (data : List (Fin 8 × Word)) : State :=
  let w := (s.ser.ag.get a).addr.toNat
  match wholeEntry data with
  | none => s.result a 5
  | some l =>
    if s.inRing w then s.result a 8
    else (({ s with fab := s.fab.putWord w (wordsEntry l) } : State).result a 0).stepAddr a

/-- A raw read loads the latch (R506, R507). -/
def State.rawRead (s : State) (a : Agent) : State :=
  let w := (s.ser.ag.get a).addr.toNat
  if s.inRing w then (s.result a 8).clearLatch a
  else if s.fab.bad.contains w then (((s.eccFound w).result a 9).clearLatch a).stepAddr a
  else ((s.result a 0).setLatch a (entryWords (s.fab.getWord w))).stepAddr a

/-- A pop through RING_DATA0 (R495 to R497, R505). -/
def State.dataPop (s : State) (a : Agent) : State :=
  let k := s.selRing a
  if absentRing s.part.variant k then (s.result a 1).clearLatch a
  else if !agentsPop k then (s.result a 2).clearLatch a
  else if !s.mayPop a k then ((s.denied a 0x610).setStatus a 2).clearLatch a
  else match s.agentPop k 1 with
    | (s1, e :: _) => (s1.result a 0).setLatch a (entryWords e)
    | (s1, []) => (s1.result a 3).clearLatch a

/-- Data registers are written, as RAW selects. -/
def State.dataWrite (s : State) (a : Agent) (data : List (Fin 8 × Word)) : State :=
  if s.rawSel a then s.rawWrite a data else s.dataPush a data

def State.dataRead (s : State) (a : Agent) : State := if s.rawSel a then s.rawRead a else s.dataPop a

def execRingDataPush (a : Agent) (data : List (Fin 8 × Word)) (s : State) : Out :=
  .next (if s.active && !s.rawSel a then s.dataPush a data else s)

def execRingData0Pop (a : Agent) (s : State) : Out := .next (if s.active && !s.rawSel a then (s.dataPop a).attnSettle else s)

/-- R506: data for a write, none for a read. -/
def execRawAccess (a : Agent) (data : Option (List (Fin 8 × Word))) (s : State) : Out :=
  .next (if !(s.active && s.rawSel a) then s
    else match data with
      | some d => s.rawWrite a d
      | none => s.rawRead a)

/-! Allocation (R492). -/

/-- The extent of n words from word b overlaps another allocated ring. -/
def State.overlaps (s : State) (k b n : Nat) : Bool :=
  (List.range 256).any fun j =>
    let r := s.fab.ring j
    j != k && !absentRing s.part.variant j && r.size != 0 && decide (b < r.base * 16 + r.cap ∧ r.base * 16 < b + n)

/-- A write to RING_CFG, RING_BASE or both for agent a's selected ring. -/
def State.ringAlloc (s : State) (a : Agent) (size base : Option Nat) : State :=
  let k := s.selRing a
  let r := s.fab.ring k
  let c := min 9 (size.getD r.size)
  let b := (base.getD r.base) % 4096
  let n := if c == 0 then 0 else 2 ^ (c + 3)
  if absentRing s.part.variant k then s.result a 1
  else if 24 ≤ k && k < 32 then s
  else if r.count != 0 then s.result a 7
  else if n != 0 && (decide (65536 < b * 16 + n) || s.overlaps k (b * 16) n) then s.result a 6
  else ({ s with fab := s.fab.setRing k { r with size := c, base := b, head := 0 } } : State).result a 0

def execRingCfg (a : Agent) (base : Bool) (v : Word) (s : State) : Out :=
  .next (if !s.active then s
    else if base then s.ringAlloc a none (some (v.toNat % 4096)) else s.ringAlloc a (some (v.toNat % 16)) none)

/-- RING_MODE and RING_WMARK (R529): POP, DB and DB_EN belong to pool rings. -/
def State.ringMode (s : State) (a : Agent) (v : Nat) : State :=
  let k := s.selRing a
  if k < 64 then s
  else { s with fab := s.fab.setRing k { s.fab.ring k with pop := bits v 4 4, db := bits v 8 5, dbEn := bit v 13 } }

def State.ringWmark (s : State) (a : Agent) (v : Nat) : State :=
  let k := s.selRing a
  if absentRing s.part.variant k then s
  else { s with fab := s.fab.setRing k ({ s.fab.ring k with wmark := v % 8192 }).rearm }

end Sys2Proof.Machine
end

