-- ==== Sys2Proof/Machine/Check.lean ====
section
/-! DEFINITION. The Check units: taking a job, walking its Stitch list, completing it, failure and self-test (13). -/

namespace Sys2Proof.Machine

/-! Registers of unit u. -/

def State.chkAcc (s : State) (u : UnitId) : Nat := s.reg32 (Reg.chkAcc0 u.val)

def State.setAcc (s : State) (u : UnitId) (v : Nat) : State := s.setReg32 (Reg.chkAcc0 u.val) v

def State.chkSlot (s : State) (u : UnitId) (k : Nat) : Nat := s.reg32 (Reg.chkCtx u.val k)

/-- The algorithm a code names, a programmable set as it stands now (R514, R530). -/
def State.algOf (s : State) (code : Nat) : Option Alg :=
  match code with
  | 0 => some algCrc8
  | 1 => some algCcitt
  | 2 => some algCrc32
  | 3 => some algCrc32c
  | 4 => some algFletcher
  | 5 => some algSum
  | c =>
    if 8 ≤ c && c ≤ 11 then
      let k := c - 8
      let w := s.fld (Reg.chkPsetCfg k) 0 6
      some ⟨c, w, s.reg32 (Reg.chkPsetPoly0 k) % 2 ^ w, s.reg32 (Reg.chkPsetInit0 k) % 2 ^ w, s.flag (Reg.chkPsetCfg k) 8,
        s.flag (Reg.chkPsetCfg k) 9, s.reg32 (Reg.chkPsetXor0 k) % 2 ^ w⟩
    else none

/-! Stitch lists (R510 to R513). -/

/-- A descriptor. -/
structure Desc where
  space : Nat
  addr : Nat
  len : Nat
  zeros : Bool
  next : Nat
  lane : Nat
  reserved : Bool
deriving DecidableEq, Repr

def descOf (e : List Byte) : Desc :=
  let w := leNat (slice e 0 4)
  let z := leNat (slice e 7 1)
  let l := leNat (slice e 12 4)
  ⟨bits w 28 4, bits w 0 28, leNat (slice e 4 3), bit z 0, leNat (slice e 8 4), l % 4, z / 2 != 0 || l / 4 != 0⟩

/-- Bytes of a space. -/
def spaceSize : Nat → Nat
  | 0 => 0x100000
  | 1 => 0x4000000
  | _ => 0x200

/-- Whole groups of g bytes reversed; a short trailing group passes as stored (R513). -/
def laneGroups (g : Nat) : Nat → List Byte → List Byte
  | 0, bs => bs
  | n + 1, bs => if bs.length < g then bs else (bs.take g).reverse ++ laneGroups g n (bs.drop g)

def lane (l : Nat) (bs : List Byte) : List Byte :=
  match l with
  | 1 => laneGroups 2 bs.length bs
  | 2 => laneGroups 4 bs.length bs
  | _ => bs

/-- The Link buffer (R511): the frames at the heads of rings 20 and 22. -/
def State.linkBuffer (s : State) : List Byte :=
  let head := fun (k : Nat) (fs : List (List Byte)) => (fs.drop (fs.length - (s.fab.ring k).items.length)).headD []
  padTo 256 (head 20 s.lnk.rx.p1) ++ padTo 256 (head 22 s.lnk.rx.p2)

/-- Bytes of a descriptor's extent, and false where an uncorrectable word or page ends them early. -/
def State.fetch (s : State) (d : Desc) : List Byte × Bool :=
  if d.zeros then (List.replicate d.len 0, true)
  else match d.space with
    | 0 =>
      let badAt := (List.range d.len).find? fun i => s.fab.bad.contains ((d.addr + i) / 16)
      (Memory.read sramDefault s.fab.sram d.addr (badAt.getD d.len), badAt.isNone)
    | 1 =>
      let badAt := (List.range d.len).find? fun i => s.tkr.isBad ((d.addr + i) / 256)
      (s.storeBytes d.addr (badAt.getD d.len), badAt.isNone)
    | _ => (slice s.linkBuffer d.addr d.len, true)

/-- The ring-SRAM words of a descriptor's extent that are uncorrectable: the first ends the job. -/
def State.badWord (s : State) (d : Desc) : Option Nat :=
  if d.zeros || d.space != 0 then none
  else ((List.range d.len).find? fun i => s.fab.bad.contains ((d.addr + i) / 16)).map fun i => (d.addr + i) / 16

/-- What a walk ends with: STATUS, the data, and the uncorrectable SRAM word that ended it. -/
structure Walk where
  status : Nat
  data : List Byte
  bad : Option Nat
deriving DecidableEq, Repr

/-- The walk from the descriptor at byte address a, with n more allowed; `right` is R512's. -/
def State.walk (s : State) (right : Bool) : Nat → Nat → List Byte → Walk
  | 0, _, acc => ⟨2, acc, none⟩
  | n + 1, a, acc =>
    if a % 16 != 0 || decide (0xFFFF0 < a) then ⟨1, acc, none⟩
    else if s.fab.bad.contains (a / 16) then ⟨3, acc, some (a / 16)⟩
    else
      let d := descOf (s.fab.getWord (a / 16))
      if d.reserved || d.lane == 3 then ⟨1, acc, none⟩
      else if !d.zeros && (3 ≤ d.space || decide (spaceSize d.space < d.addr + d.len)) then ⟨1, acc, none⟩
      else if !d.zeros && d.space == 2 && !s.part.variant.hasLink then ⟨4, acc, none⟩
      else if !d.zeros && d.space == 1 && !right then ⟨8, acc, none⟩
      else
        let (bs, ok) := s.fetch d
        let acc1 := acc ++ lane d.lane bs
        if !ok then ⟨3, acc1, s.badWord d⟩
        else if d.next == 0xFFFFFFFF then ⟨0, acc1, none⟩
        else s.walk right n d.next acc1

/-! Jobs. -/

/-- Fields of a submit entry (13). -/
def entAlg (e : List Byte) : Nat := leNat (slice e 0 1)
def entCtl (e : List Byte) : Nat := leNat (slice e 1 1)
def entSlot (e : List Byte) : Nat := leNat (slice e 2 1) % 16
def entDesc (e : List Byte) : Nat := leNat (slice e 4 4)
def entTag (e : List Byte) : Nat := leNat (slice e 8 4)
def entExpect (e : List Byte) : Nat := leNat (slice e 12 4)

/-- A reserved bit of a submit entry is set, or START is 3 (R514). -/
def entBad (e : List Byte) : Bool := entCtl e / 32 != 0 || leNat (slice e 2 1) / 16 != 0 || leNat (slice e 3 1) != 0 || entCtl e % 4 == 3

/-- START 1 or SAVE names slot 14 or 15 (R517). -/
def entBadSlot (e : List Byte) : Bool := (entCtl e % 4 == 1 || bit (entCtl e) 3) && 14 ≤ entSlot e

/-- The starting value of R520, in the unit that owns the ring. -/
def State.startValue (s : State) (ring : Nat) (e : List Byte) (a : Alg) : Nat :=
  let v := match entCtl e % 4 with
    | 0 => a.init
    | 1 => s.chkSlot (ringOwner ring) (entSlot e)
    | _ => s.chkAcc (ringOwner ring)
  v % 2 ^ a.width

/-- Data as the running value takes it when the job ends early: whole words (R513). -/
def Alg.whole (a : Alg) (data : List Byte) : List Byte :=
  let g := if a.code == 4 then 2 else if a.code == 5 then 4 else 1
  data.take (data.length - data.length % g)

/-- A job walks its list from what it captured; ECC detections post (R507, R510). -/
def State.runJob (s : State) (u : UnitId) (j : Job) : State :=
  if j.status != 0 then s.setUnit u { s.chk.units.get u with job := some j }
  else
    let w := s.walk j.right 4096 (entDesc j.entry) []
    let raw := j.alg.run j.start (if w.status == 0 then w.data else j.alg.whole w.data)
    let s1 := s.setUnit u { s.chk.units.get u with job := some { j with status := w.status, raw := raw, bytes := w.data.length } }
    (s1.setAcc u raw).eccFoundAll w.bad.toList

/-- The job of an entry taken from its ring (R514, R517, R520, R530). -/
def State.jobOf (s : State) (q : QJob) (e : List Byte) : Job :=
  match s.algOf (entAlg e) with
  | none => ⟨q.ring, q.no, e, q.right, 0, algSum, 5, 0, 0, q.repeated⟩
  | some a =>
    if entBad e then ⟨q.ring, q.no, e, q.right, 0, algSum, 5, 0, 0, q.repeated⟩
    else if entBadSlot e then ⟨q.ring, q.no, e, q.right, 0, algSum, 6, 0, 0, q.repeated⟩
    else ⟨q.ring, q.no, e, q.right, s.startValue q.ring e a, a, 0, 0, 0, q.repeated⟩

/-- Unit u may start a job of this ring now (R509, R523). -/
def State.unitTakes (s : State) (u : UnitId) (ring : Nat) : Bool :=
  s.serving (ringOwner ring) == some u && s.ringFits (ring + 1) 1

/-- The earliest-pushed of the jobs that restart. -/
def firstJob : List Job → Option Job
  | [] => none
  | j :: js => some (js.foldl (fun m x => if x.no < m.no then x else m) j)

/-- Unit u takes the next job in push order; an uncorrectable entry is discarded and the next is taken (R508). -/
def State.takeJob (s : State) (u : UnitId) : Nat → State
  | 0 => s
  | n + 1 =>
    let j? := firstJob (s.chk.restart.filter fun j => s.unitTakes u j.ring)
    let q? := s.chk.queue.find? fun q => s.unitTakes u q.ring
    let old := match j?, q? with | some j, some q => decide (j.no < q.no) | some _, none => true | none, _ => false
    match j?, q?, old with
    | some j, _, true =>
      ({ s with chk := { s.chk with restart := s.chk.restart.erase j } } : State).runJob u
        { j with status := if j.status == 5 || j.status == 6 then j.status else 0 }
    | _, some q, false =>
      match s.takeEntry q with
      | (s1, some e) => s1.runJob u (s1.jobOf q e)
      | (s1, none) => s1.takeJob u n
    | _, _, _ => s

/-- The self-test that runs on the unit goes on from slot 14 (R29, R517). -/
def State.resumeTest (s : State) (u : UnitId) : State := s.setUnit u { s.chk.units.get u with held := false }

/-- The self-test has processed more bytes than it had when it was preempted last. -/
def State.testMoved (s : State) (u : UnitId) (bg : Option (Word32 × Word32)) : Bool :=
  let c := s.chk.units.get u
  s.chk.tests.get u && !c.held && bg.any fun x => !c.begun || decide (s.chkSlot u 15 < x.2.toNat)

/-- The running value and the byte count of the self-test that the new job preempts are saved (R29, R517). A test that has not
moved since it was resumed still has the value that was restored from slot 14. -/
def State.savePreempted (s : State) (u : UnitId) (bg : Option (Word32 × Word32)) : State :=
  let c := s.chk.units.get u
  match bg with
  | none => s
  | some (v, n) =>
    if !s.chk.tests.get u || c.held then s
    else
      let t := if s.testMoved u bg then (s.setReg32 (Reg.chkCtx u.val 14) v.toNat).setReg32 (Reg.chkCtx u.val 15) n.toNat else s
      t.setUnit u { c with begun := true, held := true }

/-- A job that unit u may start waits for it. -/
def State.chkFg (s : State) (u : UnitId) : Bool :=
  s.chk.restart.any (fun j => s.unitTakes u j.ring) || s.chk.queue.any fun q => s.unitTakes u q.ring

/-- The arbiter of unit u as a job asks for the unit: a self-test that has moved was granted it in between. -/
def State.chkArb (s : State) (u : UnitId) (bg : Option (Word32 × Word32)) : Arb :=
  let x := s.arb.chk.get u
  if s.testMoved u bg then (x.grant (some 2) true).await 2 else x

/-- R508, R516, R517, R520: the unit takes its next job and walks its list; the self-test keeps its floor (R31). -/
def execChkJobStart (u : UnitId) (bg : Option (Word32 × Word32)) (s : State) : Out :=
  .next (if s.active && s.unitUsable u && (s.chk.units.get u).job.isNone && (s.chkArb u bg).free (s.floors [2]) (fun _ => 1) none then
      let t := (s.savePreempted u bg).takeJob u (s.chk.queue.length + 1)
      if (t.chk.units.get u).job.isSome then t.setChkArb u ((s.chkArb u bg).grant none (t.chkFg u)) else s.takeJob u (s.chk.queue.length + 1)
    else s)

/-- A job's RESULT (R515). -/
def Job.result (j : Job) : Nat := if j.status != 0 then 0 else if bit (entCtl j.entry) 2 then j.alg.finish j.raw else j.raw

/-- MISMATCH (R515). -/
def Job.mismatch (j : Job) : Bool := j.status == 0 && bit (entCtl j.entry) 4 && j.result != entExpect j.entry

/-- The completion entry is written, the slot saved, the counters and the postings made (R509, R515, R518, R531). -/
def State.finishJob (s : State) (u : UnitId) (j : Job) : State :=
  let flags := b2n j.repeated + 2 * b2n j.mismatch
  let s1 := s.ringWrite (j.ring + 1) [completion (entTag j.entry) j.result j.bytes j.status flags u j.ring]
  let s2 := s1.when (j.status == 0 && bit (entCtl j.entry) 3) fun t => t.setReg32 (Reg.chkCtx (ringOwner j.ring).val (entSlot j.entry)) j.raw
  let s3 := (s2.setUnit u { s2.chk.units.get u with job := none }).bump (Reg.chkJobs u.val) 1
  let s4 := (s3.when j.repeated fun t => t.bump (Reg.chkRepeats u.val) 1).when (!s3.chkFg u) fun t => t.resumeTest u
  (s4.post (448 + u.val)).postIf (j.status != 0 || j.mismatch) 453

def execChkJobDone (u : UnitId) (s : State) : Out :=
  .next (match (s.chk.units.get u).job with
    | none => s
    | some j => if s.active && s.ringFits (j.ring + 1) 1 then s.finishJob u j else s)

/-- R522 to R524, R527. -/
def execChkUnitFailed (u : UnitId) (lanes : Bool) (s : State) : Out :=
  .next (if !(s.active && s.unitUsable u) then s
    else
      let c := s.chk.units.get u
      let mark := fun q : QJob => if s.serving (ringOwner q.ring) == some u then { q with repeated := true } else q
      let mine := c.job.toList.map fun j => { j with repeated := true }
      let again := s.chk.restart.map fun j => if s.serving (ringOwner j.ring) == some u then { j with repeated := true } else j
      let s1 := s.setUnit u { c with failed := true, cause := if lanes then 1 else 2, job := none }
      (((({ s1 with chk := { s1.chk with queue := s.chk.queue.map mark, restart := mine ++ again } } : State).testOver u).post 452).chkDrain))

/-- R521: the known-answer test passes; as background work it waits for a job that runs or waits, but for its floor (R26, R31). -/
def execChkKat (u : UnitId) (s : State) : Out :=
  .next (if s.active && s.unitUsable u && (s.chk.units.get u).job.isNone
      && (s.arb.chk.get u).mayRun (s.floors [2]) (fun _ => 1) (s.chkFg u) 2 then
      (s.setUnit u { s.chk.units.get u with kat := true }).testOver u
    else s)

/-- R519. -/
def execChkAccWrite (u : UnitId) (v : Word32) (s : State) : Out :=
  .next (if s.active && s.part.variant.hasChk u && (s.chk.units.get u).job.isNone then s.setAcc u v.toNat else s)

end Sys2Proof.Machine
end

