-- ==== Sys2Proof/Machine/PdPort.lean ====
section
/-! DEFINITION. What the port commands share (09): messages and their log, the capabilities a port advertises, the budget,
the request it chooses, Hard Reset, the presentation after a cut. Bit places inside PD messages follow USB PD 3.1, which
the manual names and does not reprint (log 10). -/

namespace Sys2Proof.Machine

def State.prt (s : State) (p : Port) : PortSt := s.pdp.get p

def State.setPrt (s : State) (p : Port) (c : PortSt) : State := { s with pdp := s.pdp.set p c }

def State.setX (s : State) (p : Port) (x : XCell) : State := { s with cnv := { s.cnv with x := s.cnv.x.set p x } }

/-- First event source of the port (R373) and of its converter (R209). -/
def portSrc : Port → Nat
  | .c1 => 288
  | .c2 => 320

def portXsrc : Port → Nat
  | .c1 => 160
  | .c2 => 168

/-- PDP_Cn_CFG in force. -/
def PortSt.try (c : PortSt) : Nat := bits c.cfgIn 1 2
def PortSt.rpSet (c : PortSt) : Nat := bits c.cfgIn 3 2
def PortSt.pdoOn (c : PortSt) (b : Nat) : Bool := b == 0 || bit c.cfgIn (5 + b)
def PortSt.frsEn (c : PortSt) : Bool := bit c.cfgIn 12

/-! The CC balls. -/

/-- What the CC balls of a port present; Rp with the level of PDP_Cn_CFG.RP. -/
inductive CcShow where
  | open_ | rd | rp (level : Nat)
deriving DecidableEq, Repr

/-- R336, R339, R341, R344, R363, R368 (error recovery), R615 and the ROLE table of 09. -/
def State.ccShows (s : State) (p : Port) : CcShow :=
  let c := s.pdp.get p
  if s.mode == .off || !s.part.variant.hasPort p || c.openCc then .open_
  else match c.role with
    | .source => .rp c.rpSet
    | .sink => .rd
    | .none =>
      if c.roleIn == 2 then .rd
      else if c.roleIn == 1 || c.roleIn == 3 then
        if s.active && (c.roleIn == 1 || c.showRp) && s.mayBeSource && c.cut == .none then .rp c.rpSet else if c.roleIn == 3 then .rd else .open_
      else .open_

/-! Message types. -/
namespace Pd
abbrev goodCrc : Nat := 1
abbrev accept : Nat := 3
abbrev reject : Nat := 4
abbrev psRdy : Nat := 6
abbrev getSourceCap : Nat := 7
abbrev getSinkCap : Nat := 8
abbrev drSwap : Nat := 9
abbrev prSwap : Nat := 10
abbrev vconnSwap : Nat := 11
abbrev wait : Nat := 12
abbrev softReset : Nat := 13
abbrev notSupported : Nat := 16
abbrev getSrcCapExt : Nat := 17
abbrev getStatus : Nat := 18
abbrev frSwap : Nat := 19
abbrev getPpsStatus : Nat := 20
abbrev sourceCaps : Nat := 1
abbrev request : Nat := 2
abbrev bist : Nat := 3
abbrev sinkCaps : Nat := 4
abbrev alert : Nat := 6
abbrev vendor : Nat := 15
abbrev srcCapExt : Nat := 1
abbrev status : Nat := 2
abbrev ppsStatus : Nat := 12
end Pd

/-- A message of Revision 3: extended, or one of the codes that Revision 2.0 lacks (R332, log 10). -/
def isRev3 (ext : Bool) (typ : Nat) (objs : List Word32) : Bool :=
  ext || (if objs.isEmpty then decide (16 ≤ typ) else decide (5 ≤ typ ∧ typ ≤ 12))

/-! Messages. -/

/-- A message header; its revision is the lower of 3.1 and the partner's, once that is known (R332). -/
def pdHeader (c : PortSt) (sent ext : Bool) (typ id n : Nat) : Nat :=
  let own := c.role == .source
  typ + 32 * b2n (c.dfp == sent) + 64 * (if c.rev == 1 then 1 else 2) + 256 * b2n (own == sent) + 512 * id + 4096 * n + 32768 * b2n ext

/-- The log entries of one message (R370). -/
def logEntries (hdr mark : Nat) (objs : List Word32) (count : Nat) : List (List Byte) :=
  let o := fun i => leBytes 4 (objs.getD i 0).toNat
  let e0 := leBytes 2 hdr ++ leBytes 1 mark ++ leBytes 1 (min 7 objs.length) ++ leBytes 4 count ++ o 0 ++ o 1
  let e1 := ([0xC0, 0x01, 0x00, 0x00] : List Byte) ++ o 2 ++ o 3 ++ o 4
  let e2 := ([0xC0, 0x02, 0x00, 0x00] : List Byte) ++ o 5 ++ o 6 ++ [0, 0, 0, 0]
  if objs.length ≤ 2 then [e0] else if objs.length ≤ 5 then [e0, e1] else [e0, e1, e2]

/-- A message is logged when its direction's LOG bit is set (R370, R372): received in ring 16 or 18, sent in 17 or 19 (log 44). -/
def State.logPd (s : State) (p : Port) (sent : Bool) (hdr mark : Nat) (objs : List Word32) : State :=
  let c := s.prt p
  if !s.flag (Reg.pdpCfg p.ix) (if sent then 15 else 14) then s
  else
    let n : Word32 := (if sent then c.logTx else c.logRx) + 1
    let s1 := s.setPrt p (if sent then { c with logTx := n } else { c with logRx := n })
    s1.ringWrite (16 + 2 * p.ix + b2n sent) (logEntries hdr mark objs n.toNat)

/-- The port puts a message on CC. -/
def State.pdSendFull (s : State) (p : Port) (ext : Bool) (typ : Nat) (objs : List Word32) : State :=
  let c := s.prt p
  let s1 := s.setPrt p { c with sent := c.sent ++ [⟨.message, ext, typ, c.msgId, objs⟩], msgId := (c.msgId + 1) % 8 }
  s1.logPd p true (pdHeader c true ext typ c.msgId objs.length) (128 * b2n ext) objs

def State.pdSend (s : State) (p : Port) (typ : Nat) (objs : List Word32) : State := s.pdSendFull p false typ objs

/-- The port has heard its partner: the first header settles the revision (R332), and GoodCRC with the message's own ID is the
first thing back on CC (R334); it is no entry of the log (log 44). -/
def PortSt.heard (c : PortSt) (id : Nat) : PortSt :=
  { c with rev := if c.rev == 0 then c.partnerRev else c.rev, sent := [⟨.message, false, Pd.goodCrc, id, []⟩], bist := false }

/-- A received message: the last ones sent have left, GoodCRC goes out, and it is logged. -/
def State.pdRecv (s : State) (p : Port) (ext : Bool) (typ : Nat) (objs : List Word32) : State :=
  let id := (Config.partnerId s.free).toNat
  let c := (s.prt p).heard id
  ((s.setPrt p c).logPd p false (pdHeader c false ext typ id objs.length) (128 * b2n ext) objs).nextFree

/-- A port command that is no message starts with nothing on CC. -/
def State.pdFresh (s : State) (p : Port) : State := s.setPrt p { s.prt p with sent := [], bist := false }

/-- An extended message as data words: its extended header, its data, zeros. -/
def extWords (data : List Byte) : List Word32 :=
  let bs := leBytes 2 data.length ++ data
  (List.range ((bs.length + 3) / 4)).map fun i => BitVec.ofNat 32 (leNat (slice bs (4 * i) 4))

/-! Capabilities. -/

/-- The 5 V object's current while no input is connected (R346); R343's least where there is neither contract nor swap (log 45). -/
def State.batteryAmps (s : State) (p : Port) : Nat :=
  let c := s.prt p
  match c.contract with
  | some k => if c.role == .source then k.ma else 500
  | none => if c.frs then frsMa c.frsI else 500

/-- One fixed object: dropped below 0.50 A, but 5 V never is (R343); `cap` is R350's budget in mW. -/
def State.fixedPdo (s : State) (p : Port) (cap : Option Nat) (b mv : Nat) : List Pdo :=
  let c := s.prt p
  let a := s.advertised (s.reg (Reg.pdpSrcI5 p.ix + b)) mv
  let ma := match cap with | none => a | some w => min a (w * 1000 / mv / 50 * 50)
  if b == 0 then [⟨false, mv, max 500 ma⟩] else if c.pdoOn b && 500 ≤ ma then [⟨false, mv, ma⟩] else []

/-- What the port advertises (R342, R343, R346, R350). -/
def State.capabilities (s : State) (p : Port) (cap : Option Nat) : List Pdo :=
  let c := s.prt p
  if s.pp.conn.isNone then [⟨false, 5000, s.batteryAmps p⟩]
  else
    let vmax := s.reg (Reg.pdpPpsVmax p.ix) * 100
    let a := s.advertised (s.reg (Reg.pdpSrcIpps p.ix)) vmax
    let ma := match cap with | none => a | some w => min a (w * 1000 / vmax / 50 * 50)
    s.fixedPdo p cap 0 5000 ++ s.fixedPdo p cap 1 9000 ++ s.fixedPdo p cap 2 15000 ++ s.fixedPdo p cap 3 20000
      ++ (if c.pdoOn 4 && c.rev != 1 then [⟨true, vmax, ma⟩] else [])

/-- An object as its data word (R345). -/
def State.pdoWord (s : State) (p : Port) (first : Bool) (o : Pdo) : Word32 :=
  if o.pps then BitVec.ofNat 32 (3 * 2 ^ 30 + o.mv / 100 * 2 ^ 17 + s.reg (Reg.pdpPpsVmin p.ix) * 2 ^ 8 + o.ma / 50)
  else
    let top := if first then b2n ((s.prt p).roleIn == 3) * 2 ^ 29 + b2n s.pp.conn.isSome * 2 ^ 27
      + (if s.frsArmed p then (s.prt p).frsI else 0) * 2 ^ 23 else 0
    BitVec.ofNat 32 (top + o.mv / 50 * 2 ^ 10 + o.ma / 10)

def State.capsWords (s : State) (p : Port) (os : List Pdo) : List Word32 :=
  match os with
  | [] => []
  | o :: rest => s.pdoWord p true o :: rest.map (s.pdoWord p false)

/-- Source_Capabilities goes out, and the port waits for a Request. -/
def State.sendCaps (s : State) (p : Port) (cap : Option Nat) : State :=
  let os := s.capabilities p cap
  let s1 := s.setPrt p { s.prt p with offered := os, capsSent := (s.prt p).capsSent + 1, wait := .caps }
  s1.pdSend p Pd.sourceCaps (s1.capsWords p os)

/-- Sink_Capabilities of the port: 5 V at SNK_I, and the range up to SNK_VMAX when it is higher (log 10). -/
def State.sinkWords (s : State) (p : Port) : List Word32 :=
  let i := s.reg (Reg.pdpSnkI p.ix)
  let vmin := s.reg (Reg.pdpSnkVmin p.ix)
  let vmax := s.reg (Reg.pdpSnkVmax p.ix)
  [BitVec.ofNat 32 (b2n ((s.prt p).roleIn == 3) * 2 ^ 29 + 100 * 2 ^ 10 + i)]
    ++ (if 50 < vmax then [BitVec.ofNat 32 (2 * 2 ^ 30 + 2 * vmax * 2 ^ 20 + 2 * vmin * 2 ^ 10 + i)] else [])

/-! Requests. -/

/-- P_avail in mW (09, Evaluating a request as source; R399). -/
def State.budgetMw (s : State) (p : Port) (vin pload : Nat) : Int :=
  let lim := match s.pp.conn with | none => 0 | some .aux => s.setpoints.lim.a1 * 10 | some i => s.inputLimit i * 10
  let imp := if s.pp.conn == some .aux then 9 * (s.lastOf 1 * s.importG * 100 / 1000) / 10 else 0
  let other := match (s.prt p.other).contract with
    | some k => if (s.prt p.other).role == .source then k.mw else 0
    | none => 0
  let own := if s.pp.conn.isNone then 0 else 9 * (vin * lim / 1000) / 10
  (own : Int) - (pload : Int) - (other : Int) + (imp : Int)

/-- PDP_Cn_BUDGET shows P_avail in 0.1 W, between the ends of its field. -/
def State.showBudget (s : State) (p : Port) (w : Int) : State :=
  s.setReg (Reg.pdpBudget p.ix) (min 1023 (w / 100).toNat)

/-- What a Request asks for, when it lies within what is advertised: the contract, and the current limit of R348. A Revision 2.0
partner is offered no PPS object (R332). DESIGN CHOICE (log 84): a PPS Request for 0 mA lies within the APDO and is taken as it
stands, although R200 gives 50 mA as the least limit. -/
def PortSt.asked (c : PortSt) (vmin : Nat) : PdRequest → Option (Contract × Nat)
  | .fixed pos cur =>
    match c.offered[pos - 1]? with
    | some o => if !o.pps && cur * 10 ≤ o.ma && 1 ≤ pos then some (⟨false, o.mv, cur * 10⟩, (o.ma + 49) / 50 * 50) else none
    | none => none
  | .pps pos volt cur =>
    match c.offered[pos - 1]? with
    | some o =>
      if o.pps && c.rev != 1 && cur * 50 ≤ o.ma && vmin * 100 ≤ volt * 20 && volt * 20 ≤ o.mv && 1 ≤ pos then some (⟨true, volt * 20, cur * 50⟩, cur * 50)
      else none
    | none => none

def PdRequest.word : PdRequest → Word32
  | .fixed pos cur => BitVec.ofNat 32 (pos * 2 ^ 28 + cur * 2 ^ 10 + cur)
  | .pps pos volt cur => BitVec.ofNat 32 (pos * 2 ^ 28 + volt * 2 ^ 9 + cur)

/-- An object of the partner, read: PPS, voltage (the APDO's lowest and highest) and current. -/
structure SrcPdo where
  pps : Bool
  lo : Nat
  hi : Nat
  ma : Nat
deriving DecidableEq, Repr

def readPdo (w : Word32) : Option SrcPdo :=
  let n := w.toNat
  if bits n 30 2 == 0 then some ⟨false, bits n 10 10 * 50, bits n 10 10 * 50, bits n 0 10 * 10⟩
  else if bits n 28 4 == 12 then some ⟨true, bits n 8 8 * 100, bits n 17 8 * 100, bits n 0 7 * 50⟩
  else none

/-- The request a sink makes of capabilities (R351): word, contract, mismatch. -/
def State.chooseRequest (s : State) (p : Port) (pdos : List Word32) : Option (Word32 × Contract × Bool) :=
  let c := s.prt p
  let os := (pdos.map readPdo).zipIdx
  let ppsV := s.reg (Reg.pdpSnkPpsV p.ix) * 20
  let ppsI := s.reg (Reg.pdpSnkPpsI p.ix) * 50
  let snkI := s.reg (Reg.pdpSnkI p.ix) * 10
  let vmin := s.reg (Reg.pdpSnkVmin p.ix) * 100
  let vmax := s.reg (Reg.pdpSnkVmax p.ix) * 100
  let apdo := if bit c.cfgIn 13 && c.rev == 2 then
      os.find? fun o => match o.1 with | some a => a.pps && a.lo ≤ ppsV && ppsV ≤ a.hi && ppsI ≤ a.ma | none => false
    else none
  match apdo with
  | some (_, k) => some (PdRequest.word (.pps (k + 1) (ppsV / 20) (ppsI / 50)), ⟨true, ppsV, ppsI⟩, false)
  | none =>
    let fits := os.filterMap fun o => match o.1 with
      | some a => if !a.pps && vmin ≤ a.lo && a.lo ≤ vmax then some (o.2, a.lo, min a.ma snkI) else none
      | none => none
    match fits.foldl (fun m x => match m with
        | none => some x
        | some y => if y.2.1 * y.2.2 < x.2.1 * x.2.2 then some x else some y) none with
    | some (k, mv, ma) => some (PdRequest.word (.fixed (k + 1) (ma / 10)), ⟨false, mv, ma⟩, false)
    | none =>
      match os.head? with
      | some (some a, _) =>
        let ma := min a.ma snkI
        some (PdRequest.word (.fixed 1 (ma / 10)) + BitVec.ofNat 32 (2 ^ 26), ⟨false, a.lo, ma⟩, true)
      | _ => none

/-- The sink requests on the capabilities last received. -/
def State.sendRequest (s : State) (p : Port) : State :=
  match s.chooseRequest p (s.prt p).partner with
  | none => s
  | some (w, k, mis) =>
    let s1 := s.setPrt p { s.prt p with next := some k, wait := .request }
    (s1.pdSend p Pd.request [w]).postIf mis (portSrc p + 3)

/-! Contracts, resets, cuts. -/

/-- The current a sinking port may draw, in 10 mA (R127, R339, R354). -/
def State.setPortLim (s : State) (p : Port) (v : Nat) : State :=
  { s with pp := { s.pp with portLim := s.pp.portLim.set p v } }

/-- The pending contract takes effect: PDP_Cn_CONTRACT. -/
def State.contractNow (s : State) (p : Port) : State :=
  let c := s.prt p
  let s1 := s.setPrt p { c with contract := c.next, next := none, wait := .none, waits := 0, hardCnt := 0 }
  ((if c.role == .sink then s1.setPortLim p (match c.next with | some k => k.ma / 10 | none => 0) else s1)).post (portSrc p + 2)

/-- X off (R203); sourcing waits for VBUS below 0.8 V (R366). DESIGN CHOICE (log 84): CNV_Xn_VTGT and CNV_Xn_ILIM read 0 once
sourcing has ended; a converter that its own failure stopped without a contract (R204) keeps the values it ran at. -/
def State.xStop (s : State) (p : Port) : State :=
  let s1 := s.setX p { s.cnv.x.get p with run := false, vtgt := 0, iset := 0, ovp := false, ilim := false, iv := .off }
  s1.setPrt p { s1.prt p with noTurnOn := true }

/-- X off and VBUS discharging (R365). -/
def State.xOff (s : State) (p : Port) : State :=
  let s1 := s.xStop p
  s1.setPrt p { s1.prt p with discharging := true, slow := false }

/-- X on at a voltage and a limit, in mV and mA (R201, R348); a stopped X stays off (R204). -/
def State.xOn (s : State) (p : Port) (mv ma : Nat) : State :=
  let x := s.cnv.x.get p
  if x.stopped then s else s.setX p { x with run := true, vtgt := mv, iset := ma }

/-- X runs on a sourcing port alone; a fast role swap that ends before its time turns it off (R203). -/
def State.idleX (s : State) (p : Port) : State :=
  if (s.prt p).role != .source && (s.cnv.x.get p).run then s.xStop p else s

/-- Rp level of CFG.RP in mA: what a port without a contract sources (R339). -/
def rpAmps : Nat → Nat
  | 0 => 500
  | 1 => 1500
  | _ => 3000

/-- After Hard Reset signalling, sent or received: PDP_Cn_HARD_RESET, the count, the contract gone; a source takes VBUS
down and keeps it so for tSrcRecover, a sink falls back to the Type-C default (R339, R365, R367, R368). -/
def State.hardReset (s : State) (p : Port) (sent : Bool) : State :=
  let c := s.prt p
  let m : List PdMsg := if sent then [⟨.hardReset, false, 0, 0, []⟩] else []
  let s1 := s.setPrt p { c with sent := c.sent ++ m, contract := none, next := none, wait := .none, swapTo := .none,
                                frs := false, swapped := false, recover := c.recover || c.role == .source, msgId := 0, hadContract := false, capsSent := 0, waits := 0,
                                offered := [], frsI := 0 }
  let s2 := ((s1.logPd p sent 0 3 []).bump8 (Reg.pdpHresets p.ix)).post (portSrc p + 4)
  match c.role with
  | .source => s2.xOff p
  | .sink => (s2.idleX p).setPortLim p (rpLim c.rp)
  | .none => s2

/-- The settings a detach puts in force (R372). -/
def State.takeSettings (s : State) (p : Port) : State :=
  let role := s.reg (Reg.pdpRole p.ix)
  s.setPrt p { s.prt p with roleIn := role, cfgIn := s.reg (Reg.pdpCfg p.ix),
                            showRp := (role == 1 || role == 3) && s.mayBeSource, trying := .none }

/-- The port stands unattached: ROLE 0 in PDP_Cn_STAT, nothing of the partner kept. -/
def State.unattach (s : State) (p : Port) : State :=
  let c := s.prt p
  (s.setPrt p { c with role := .none, cc2 := false, rp := 0, rev := 0, partnerRev := 0, recover := false, swapped := false, contract := none, next := none, offered := [], partner := [],
                       snkCaps := [], frsI := 0, dfp := false, wait := .none, swapTo := .none, frs := false, waits := 0,
                       capsSent := 0, hardCnt := 0, msgId := 0, detachHold := false, hadContract := false }).takeSettings p

/-- Sourcing ends by R363 or R364: Hard Reset, X off, discharge, the presentation of R363, PDP_Cn_SRC_CUT. -/
def State.cutPort (s : State) (p : Port) (by_ : CutBy) : State :=
  let s1 := ((s.hardReset p true).unattach p)
  (s1.setPrt p { s1.prt p with cut := by_, showRp := false }).post (portSrc p + 15)

/-- X has stopped during a contract (R364): Alert with the fault's type, then the cut. -/
def State.xStopAlert (s : State) (p : Port) (fault : Nat) : State :=
  let c := s.prt p
  if c.role == .source && c.contract.isSome then
    (if c.rev == 2 then s.pdSend p Pd.alert [BitVec.ofNat 32 (fault * 2 ^ 24)] else s).cutPort p .xstop
  else s

/-- A sourcing port tells its partner what it can still give when the input situation changes (R345, R346). -/
def State.readvertise (s : State) (p : Port) : State :=
  let c := s.prt p
  if s.active && c.role == .source && (s.cnv.x.get p).run && c.contract.isSome && s.capabilities p none != c.offered then
    (s.pdFresh p).sendCaps p none
  else s

end Sys2Proof.Machine
end

