-- ==== Sys2Proof/Machine/Converter.lean ====
section
/-! DEFINITION. The meanings of the converter commands (05): overvoltage, Cinch, shedding, phase failure, reverse, the port
converters. -/

namespace Sys2Proof.Machine

/-- The analog domain is powered (01, Power domains). -/
def State.analogOn (s : State) : Bool := s.mode == .hold || s.mode == .dormant || s.mode == .active

/-! Overvoltage. -/

/-- R168: above 110 % of the target, or 34.0 V. -/
def execVsysOv (mv : Nat) (s : State) : Out :=
  .next (if s.analogOn && !s.cnv.ov && (decide (s.cnv.tgt * 22 < mv) || decide (34000 < mv)) then
      ({ s with cnv := { s.cnv with ov := true, phases := s.cnv.phases.map fun p => { p with iv := .off } } } : State).post 181
    else s)

/-- R168: below 105 % of the target. -/
def execVsysOvResume (mv : Nat) (s : State) : Out :=
  .next (if s.analogOn && s.cnv.ov && decide (mv < s.cnv.tgt * 21) then
      { s with cnv := { s.cnv with ov := false, phases := spaced s.cnv.phases } }
    else s)

/-! Phases. -/

/-- Every healthy phase runs (R180, R182). -/
def Cnv.runAll (c : Cnv) : Four PhaseCell := c.phases.map fun x => if x.healthy then { x with st := .run } else x

/-- The highest phase that runs (R179). -/
def Cnv.lastRun (c : Cnv) : Option Phase := fin4.reverse.find? fun p => (c.phases.get p).st == .run

/-- RUN if needed: every healthy phase without shedding, else one at least (R179, R182). -/
def State.settled (s : State) : Four PhaseCell :=
  if !s.flag Reg.cnvCtl 2 then s.cnv.runAll else if s.cnv.runCount == 0 then s.cnv.addNext else s.cnv.phases

/-- Why a phase is isolated. -/
inductive PhaseFault where
  | sense | runaway | ot
deriving DecidableEq, Repr

def PhaseFault.off : PhaseFault → Nat
  | .sense => 0
  | .runaway => 1
  | .ot => 2

def PhaseCell.fail (x : PhaseCell) (f : PhaseFault) : PhaseCell :=
  { x with st := .isolated, sense := x.sense || f == .sense, runaway := x.runaway || f == .runaway, ot := x.ot || f == .ot }

/-- Reverse ends with a condition of R195 (R199), else it regulates to what the registers now say (R197). -/
def State.checkReverse (s : State) : State := (if s.mayReverse then s.regulateRev else s.stopReverse).checkOffer

/-- A phase is isolated; a running one is replaced at once (R187 to R192, R549). -/
def State.isolatePhase (s : State) (p : Phase) (f : PhaseFault) : State :=
  let x := s.cnv.phases.get p
  if x.st == .isolated || !s.analogOn then s
  else
    let c : Cnv := { s.cnv with phases := s.cnv.phases.set p (x.fail f) }
    let ps := if x.st == .run then c.addNext else c.phases
    let s1 := (s.post (128 + 8 * p.val + f.off)).journal 0x0031 (leBytes 1 p.val ++ leBytes 2 (x.fail f).stat)
    ((s1.post (131 + 8 * p.val)).setPhases ps).checkReverse

/-- The threshold of a Cinch comparator in microvolts. -/
def State.cinchUv (s : State) : PhaseId → Nat
  | .main p => s.reg (Reg.cnvPCinch p.val) * 1000
  | .x p => s.reg (Reg.cnvXCinch p.ix) * 1000

/-- R169, R180, R209: the trip is counted, the phase is off until its next cycle, and the first trip after a millisecond without
one posts; `quietUs` is the time since the phase's last trip, where it had one. -/
def execCinchTrip (ph : PhaseId) (uv quietUs : Nat) (s : State) : Out :=
  .next (if !s.analogOn || decide (uv < s.cinchUv ph) then s
    else match ph with
      | .main p =>
        let x := s.cnv.phases.get p
        if x.st != .run then s
        else
          let s1 := if s.active then s.bump (Reg.cnvPCinchCnt p.val) 1 else s
          let s2 := ({ s1 with cnv := { s1.cnv with phases := s1.cnv.phases.set p { x with cinch := true, iv := .cinched } } } : State).postIf
            (!x.cinch || decide (1000 ≤ quietUs)) (133 + 8 * p.val)
          s2.setPhases s2.cnv.runAll
      | .x p =>
        let x := s.cnv.x.get p
        if !x.run then s
        else ((if s.active then s.bump (Reg.cnvXCinchCnt p.ix) 1 else s).setX p { x with cinch := true, iv := .cinched }).postIf
          (!x.cinch || decide (1000 ≤ quietUs)) (portXsrc p + 5))

/-- R178, R183: I_out above the threshold for the phases that run, after the dwell. -/
def execPhaseAdd (ma us : Nat) (s : State) : Out :=
  let n := s.cnv.runCount
  let thr := s.reg (Reg.cnvShedAdd1 + (n - 1)) * 100
  .next (if s.analogOn && s.flag Reg.cnvCtl 2 && decide (1 ≤ n ∧ n < s.cnv.healthyCount) && decide (thr < ma)
      && decide (s.reg Reg.cnvShedDwell * 50 ≤ us) then s.setPhases s.cnv.addNext
    else s)

/-- R178, R179: I_out below the threshold; the lowest phase is never dropped. -/
def execPhaseDrop (ma us : Nat) (s : State) : Out :=
  let n := s.cnv.runCount
  let thr := s.reg (Reg.cnvShedDrop2 + (n - 2)) * 100
  .next (match s.cnv.lastRun with
    | none => s
    | some p =>
      if s.analogOn && s.flag Reg.cnvCtl 2 && decide (2 ≤ n) && decide (ma < thr) && decide (s.reg Reg.cnvShedDwell * 50 ≤ us) then
        s.setPhases (s.cnv.setSt p .shed)
      else s)

/-- R184: outside 150 mV for three cycles or samples. -/
def execSenseLost (p : Phase) (uv : Int) (samples : Nat) (s : State) : Out :=
  .next (if (decide (150000 < uv) || decide (uv < -150000)) && decide (3 ≤ samples) then s.isolatePhase p .sense else s)

/-- R187: 135 degrees C. -/
def execDriverOverTemp (p : Phase) (dc : Int) (s : State) : Out :=
  .next (if decide (1350 ≤ dc) then s.isolatePhase p .ot else s)

/-- R185: out of range, in mV. -/
def senseOut (vs vbias : Nat) (gnd : Int) : Bool :=
  decide (vbias < 10 * (vs - vbias)) || decide (vbias < 10 * (vbias - vs)) || decide (300 < gnd) || decide (gnd < -300)

/-- The remote-sense lines are seen (R185). -/
def State.seeSense (s : State) (out : Bool) : State := { s with cnv := { s.cnv with rsOut := out } }

/-- R185, R186. -/
def execRemoteSenseLost (vs vbias : Nat) (gnd : Int) (us : Nat) (s : State) : Out :=
  .next (if !s.analogOn then s
    else if senseOut vs vbias gnd && decide (20 ≤ us) && !s.cnv.rsInt then
      ({ s with cnv := { s.cnv with rsOut := true, rsInt := true } } : State).post 178
    else s.seeSense (senseOut vs vbias gnd))

/-- The loop returns to VSYS_S and VSYS_G when an agent asks while both lines are within range (R186). -/
def State.retrySense (s : State) : State :=
  if s.active && s.cnv.rsInt && !s.cnv.rsOut then ({ s with cnv := { s.cnv with rsInt := false } } : State).post 179 else s

/-- R186. -/
def execRsRetry (vs vbias : Nat) (gnd : Int) (s : State) : Out :=
  .next (if s.analogOn then (s.seeSense (senseOut vs vbias gnd)).retrySense else s)

/-- One phase returns to service, with the cause bits cleared (R187, R194). -/
def State.restorePhase (s : State) (p : Phase) : State :=
  let x := s.cnv.phases.get p
  let st : PhaseSt := if x.st == .isolated then .shed else x.st
  ({ s with cnv := { s.cnv with phases := s.cnv.phases.set p { x with st := st, sense := false, runaway := false, ot := false } } } : State).postIf (x.st == .isolated)
    (132 + 8 * p.val)

def State.restore (s : State) : List Phase → State
  | [] => s
  | p :: ps =>
    let s1 := s.restorePhase p
    (s1.setPhases s1.settled).restore ps

/-- `CNV_CTL.CLEAR` (R187). -/
def execCnvClear (mask : BitVec 4) (s : State) : Out :=
  .next (if s.active then s.restore (fin4.filter fun p => mask.getLsbD p.val) else s)

/-! Reverse. -/

/-- R15, R177, R195 to R197: AUX alone is connected; below 2.0 V it is a dead bus. -/
def execReverseStart (vaux : Nat) (s : State) : Out :=
  let granted := match s.lnk.grant with | some (true, _) => true | _ => false
  .next (if s.mayReverse && granted && !s.cnv.rev && (decide (18000 ≤ vaux ∧ vaux ≤ 57000) || decide (vaux < 2000)) then
      let s1 := (s.connectTo (some .aux)).histMark 2
      let full := fun p : PhaseCell => if p.iv == .idle || p.iv == .skip then { p with iv := .sync } else p
      let s2 : State := { s1 with cnv := { s1.cnv with rev := true, deadBus := decide (vaux < 2000), phases := s1.cnv.phases.map full } }
      ((((s2.regulateRev).seeVaux vaux).chgEval false none).refet).post 182
    else s)

/-- A dead bus has reached 18 V: R195's lower bound applies from here on (R196). -/
def State.busUp (s : State) (vaux : Nat) : State :=
  ({ s with cnv := { s.cnv with deadBus := s.cnv.deadBus && decide (vaux < 18000) } } : State).seeVaux vaux

/-- R196: 18 V within 50 ms. -/
def execDeadBusTimeout (vaux ms : Nat) (s : State) : Out :=
  .next (if !(s.cnv.rev && s.cnv.deadBus) then s
    else if vaux < 18000 && 50 ≤ ms then s.stopReverse else s.busUp vaux)

/-- R199: the grant has ended, a condition of R195 no longer holds, or VSYS is below its floor. -/
def execReverseStop (why : RevEnd) (s : State) : Out :=
  .next (match why with
    | .grantEnded => if !(match s.lnk.grant with | some (true, _) => true | _ => false) then s.stopReverse else s
    | .condition vaux =>
      if s.mayReverse && decide (vaux ≤ 57000) && (decide (18000 ≤ vaux) || s.cnv.deadBus) then s.busUp vaux else s.stopReverse
    | .vsys mv => if mv < s.setpoints.vsysMin * 20 then s.stopReverse else s)

/-! Port converters. -/

def XFail.off : XFail → Nat
  | .senseLost => 0
  | .runaway => 1
  | .overTemp => 2

/-- The Alert type of a failure (R364, log 10): operating condition, OCP, OTP. -/
def XFail.alert : XFail → Nat
  | .senseLost => 16
  | .runaway => 4
  | .overTemp => 8


/-- X stops on a failure (R204, R364). -/
def State.stopX (s : State) (p : Port) (why : XFail) : State :=
  let x := s.cnv.x.get p
  if x.stopped || !s.analogOn || !s.part.variant.hasPort p then s
  else
    let s1 := s.setX p { x with run := false, stopped := true, iv := .off, sense := x.sense || why == .senseLost, runaway := x.runaway || why == .runaway,
                                ot := x.ot || why == .overTemp }
    let s2 := (s1.post (portXsrc p + XFail.off why)).post (portXsrc p + 3)
    if s.active then (s2.pdFresh p).xStopAlert p (XFail.alert why) else s2

def execPortCnvFail (p : Port) (why : XFail) (s : State) : Out := .next (s.stopX p why)

/-- R170, for a main phase and for a port converter (R204). -/
def execCinchRunaway (ph : PhaseId) (uv cycles : Nat) (s : State) : Out :=
  .next (if decide (125 * s.cinchUv ph ≤ 100 * uv) && decide (2 ≤ cycles) then
      (match ph with
       | .main p => s.isolatePhase p .runaway
       | .x p => s.stopX p .runaway)
    else s)

/-- A port converter returns to service, and R364's presentation ends. -/
def State.clearX (s : State) (p : Port) : State :=
  let x := s.cnv.x.get p
  if !x.stopped then s
  else
    let s1 := (s.setX p { x with stopped := false, sense := false, runaway := false, ot := false }).post (portXsrc p + 4)
    let c := s1.prt p
    let s2 := s1.setPrt p { c with cut := if c.cut == .xstop then .none else c.cut }
    if c.role == .none then s2.takeSettings p else s2

/-- `CNV_Xn_CTL.CLEAR` (R204). -/
def execCnvXnClear (p : Port) (s : State) : Out := .next (if s.active && s.part.variant.hasPort p then s.clearX p else s)

/-- R205; CNV_Xn_STAT.RUN stays 1 while the converter has stopped switching (DESIGN CHOICE, log 84). As source the port alerts its partner of the overvoltage (R367). -/
def execVbusOvp (p : Port) (mv : Nat) (s : State) : Out :=
  let x := s.cnv.x.get p
  .next (if s.analogOn && s.part.variant.hasPort p && x.run && !x.ovp && decide (11 * x.vtgt < 10 * mv) then
      let s1 := (s.setX p { x with ovp := true, iv := .off }).post (portXsrc p + 6)
      let c := s1.prt p
      if s.active && c.role == .source && c.contract.isSome && c.rev == 2 then
        (s1.pdFresh p).pdSend p Pd.alert [BitVec.ofNat 32 (64 * 2 ^ 24)]
      else s1
    else s)

/-- R205: below 105 % of the target. -/
def execVbusOvpResume (p : Port) (mv : Nat) (s : State) : Out :=
  let x := s.cnv.x.get p
  .next (if s.analogOn && x.ovp && decide (100 * mv < 105 * x.vtgt) then s.setX p { x with ovp := false } else s)

/-! Limits and supplies. -/

/-- The cycles of the running main phases (R160, R164, R165, R175 to R177). -/
def State.mainCycles (s : State) (cs : Four Cycle) : Four PhaseCell :=
  let f := fun (x : PhaseCell) (c : Cycle) =>
    if x.st != .run then x
    else { x with mode := some (cycleMode c.vin c.vout),
                  iv := cycleRun c (s.flag Reg.cnvCtl 1 && !s.cnv.rev) (s.flag Reg.cnvCtl 0 && !s.cnv.rev) (s.reg Reg.cnvSkip) (s.fld Reg.cnvCfg 3 6) }
  ⟨f s.cnv.phases.a0 cs.a0, f s.cnv.phases.a1 cs.a1, f s.cnv.phases.a2 cs.a2, f s.cnv.phases.a3 cs.a3⟩

/-- The loop of the main converter: the output limit is the lowest demand, or no longer is (R163). -/
def State.mainLoop (s : State) (ma : Nat) (cs : Four Cycle) : State :=
  let lim := decide (s.ilimEff * 100 ≤ ma)
  ({ s with cnv := { s.cnv with ilim := lim, phases := s.mainCycles cs } } : State).postIf (lim && !s.cnv.ilim) 180

/-- A source under a PPS contract goes into or out of its current limit: Alert, operating-condition change (R367, log 10). -/
def State.alertCondition (s : State) (p : Port) : State :=
  let c := s.prt p
  if s.active && c.role == .source && c.rev == 2 && c.contract.any (·.pps) then (s.pdFresh p).pdSend p Pd.alert [BitVec.ofNat 32 (16 * 2 ^ 24)]
  else s

/-- The loop of a port converter, with R202's limit; CNV_SKIP is the skip floor of every phase (R176, R204). -/
def State.xLoop (s : State) (p : Port) (ma : Nat) (c : Cycle) : State :=
  let x := s.cnv.x.get p
  let i := Reg.cnvXCfg p.ix
  let lim := decide (s.xLimit x.iset x.vtgt ≤ ma)
  if !x.run || x.ovp then s
  else
    (s.setX p { x with ilim := lim, mode := some (cycleMode c.vin c.vout),
                       iv := cycleRun c (s.flag i 10) (s.flag i 9) (s.reg Reg.cnvSkip) (s.fld i 3 6) }).when (lim != x.ilim) (·.alertCondition p)

/-- R163, and R202 for a port converter: its output current against its limit, and its present cycle. A converter that is
stopped runs no cycle. -/
def execCnvOutputLimit (ma : Nat) (loop : LoopOf) (s : State) : Out :=
  .next (if !s.analogOn || s.cnv.vdrvLow then s
    else match loop with
      | .main cs => if s.mainStopped then s else s.mainLoop ma cs
      | .x p c => if s.part.variant.hasPort p then s.xLoop p ma c else s)

/-- R608, R609: every converter gate is low while VDRV is below its threshold. -/
def execVdrvUndervoltage (mv : Nat) (s : State) : Out :=
  .next { s with cnv := { s.cnv with vdrvLow := decide (mv < Config.vdrvUvlo) } }

end Sys2Proof.Machine
end

