-- ==== Sys2Proof/Machine/Sequencer.lean ====
section
/-! DEFINITION. The meanings of the rail sequencer's commands, and the adoption of rails at a boot (08). -/

namespace Sys2Proof.Machine

def State.faultHi (s : State) (k : Rail) : Nat := s.reg (Reg.railFaultHi k.val)
def State.faultLo (s : State) (k : Rail) : Nat := s.reg (Reg.railFaultLo k.val)
def State.warnHi (s : State) (k : Rail) : Nat := s.reg (Reg.railWarnHi k.val)
def State.warnLo (s : State) (k : Rail) : Nat := s.reg (Reg.railWarnLo k.val)

/-- The deglitch times in microseconds (R300). -/
def State.faultDgl (s : State) (k : Rail) : Nat := s.fld (Reg.railDgl k.val) 0 8 * 10
def State.warnDgl (s : State) (k : Rail) : Nat := s.fld (Reg.railDgl k.val) 8 8 * 10

def State.withinFault (s : State) (k : Rail) (mv : Nat) : Bool := decide (s.faultLo k ≤ mv ∧ mv ≤ s.faultHi k)
def State.withinWarn (s : State) (k : Rail) (mv : Nat) : Bool := decide (s.warnLo k ≤ mv ∧ mv ≤ s.warnHi k)

/-- `SEQ_STAT.STATUS`. -/
def State.seqStatus (s : State) (v : Nat) : State := s.setFld Reg.seqStat 13 3 v

/-- A shutdown is taking rails down. -/
def State.comingDown (s : State) : Bool := s.seq.state == .down || s.seq.state == .stuck

/-! Commands of `SEQ_CTL` and `SEQ_EN`. -/

def Seq.anyUnsup (q : Seq) : Bool := q.unsup.toList.any id

/-- UP ends HELD: the power-up goes on from the lowest enabled rail that is not good (R324). -/
def State.continueUp (s : State) : State :=
  match fin8.find? fun k => s.railEn k && !s.seq.pg.get k with
  | some k => ({ s with seq := { s.seq with dir := 1, cur := some k, rise := none, wait := .none } } : State).seqGo .up
  | none => s.seqOn

/-- UP (R303, R304), and R324's end of HELD, which no unsupervised rail may leave (R326); UP in HELD asks for R303's other
conditions, but not for lit rails to be discharged (log 59). -/
def execSeqUp (s : State) : Out :=
  .next (if !s.active then s
    else if s.seq.state == .held && !s.seq.anyUnsup then
      (if s.seq.latch then s.seqStatus 4
       else if s.pp.vsysLow || !(s.anyValid || !s.emg.warn) then s.seqStatus 3
       else (s.seqStatus 1).continueUp)
    else if s.seq.state != .off then s.seqStatus 2
    else if s.seq.latch then s.seqStatus 4
    else if !s.mayStart || !s.allDischarged then s.seqStatus 3
    else (s.seqStatus 1).startUp)

/-- DOWN, accepted in UP, ON and HELD (R329). -/
def execSeqDown (s : State) : Out :=
  .next (if !s.active then s
    else if s.seq.state == .up || s.seq.state == .on || s.seq.state == .held then (s.seqStatus 1).startShutdown 1 false
    else s.seqStatus 2)

/-- CLEAR, accepted in OFF: the latched fault and bits 2 to 7 of every SEQ_k_STAT (R317, R328). -/
def execSeqClear (s : State) : Out :=
  .next (if !s.active then s
    else if s.seq.state == .off then
      { s.seqStatus 1 with seq := { s.seq with latch := false, bits := Eight.all 0 } }
    else s.seqStatus 2)

/-- Every EN that is high goes low together, in descending order of their postings (R312). -/
def State.dropAll (s : State) : List Rail → State
  | [] => s
  | k :: ks => (if s.seq.en.get k then s.lowerRail k else s).dropAll ks

/-- FORCE_OFF, accepted in STUCK (R312, R263). -/
def execSeqForceOff (s : State) : Out :=
  .next (if !s.active then s
    else if s.seq.state == .stuck then ((s.seqStatus 1).dropAll fin8.reverse).seqFinish
    else s.seqStatus 2)

/-- Any other value of `SEQ_CTL` (R328). -/
def execSeqBadCommand (v : Byte) (s : State) : Out :=
  .next (if s.active && !([0x01, 0x02, 0x0C, 0xF0] : List Byte).contains v then s.seqStatus 5 else s)

/-! Adoption. -/

/-- Bits of a rail found outside its fault levels. -/
def State.markFault (s : State) (k : Rail) (mv : Nat) : State :=
  { s with seq := if s.faultHi k < mv then s.seq.mark k 2 else if mv < s.faultLo k then s.seq.mark k 3 else s.seq }

/-- One rail with its EN high: unsupervised, adopted as power-good, or left (R323, R326). -/
def State.adoptRail (s : State) (k : Rail) (mv : Nat) : State :=
  let q := s.seq
  if !q.en.get k || q.pg.get k then s
  else if !s.railEn k then { s with seq := { q with unsup := q.unsup.set k true, armedHi := q.armedHi.set k false, armedLo := q.armedLo.set k false } }
  else if s.withinFault k mv then
    ({ s with seq := { q with unsup := q.unsup.set k false, pg := q.pg.set k true, armedHi := q.armedHi.set k true,
                              armedLo := q.armedLo.set k true } } : State).post (272 + k.val)
  else ({ s with seq := { q with unsup := q.unsup.set k false, armedHi := q.armedHi.set k true } } : State).markFault k mv

def State.adoptRails (s : State) (sns : Eight Nat) : List Rail → State
  | [] => s
  | k :: ks => (s.adoptRail k (sns.get k)).adoptRails sns ks

/-- A rail enabled, lit and not adopted. -/
def State.notAdopted (s : State) (k : Rail) : Bool := s.seq.en.get k && s.railEn k && !s.seq.pg.get k

/-- Where the sequencer stands after an adoption without a fault (R324); while a rail is unsupervised and no shutdown is
under way that is HELD (R326). -/
def State.afterAdoption (s : State) : State :=
  let q := s.seq
  if !(fin8.any fun k => q.pg.get k) then s.seqGo (if q.anyUnsup then .held else .off)
  else if s.allGood then
    (if q.anyUnsup then s.seqGo .held else ({ s with seq := { q with dir := 0 } } : State).seqGo .on)
  else if q.dir == 2 then
    (match highest q.en with
     | some _ => (s.seqGo .down).shutdownNext
     | none => s.seqGo .off)
  else if q.dir == 1 && !q.anyUnsup then
    ({ s with seq := { q with cur := fin8.find? fun k => s.railEn k && !q.pg.get k, rise := none } } : State).seqGo .up
  else s.seqGo .held

/-- The adoption fault of rail k: SEQ_FAULT and a latched shutdown (R322, R323). -/
def State.adoptFault (s : State) (k : Rail) : State := (s.post 259).latchedCause 6 k

/-- Every SNS is seen (R302). -/
def State.seeRails (s : State) (sns : Eight Nat) : State := fin8.foldl (fun t k => t.seeSns k (sns.get k)) s

/-- Step 5 of a boot: the SNS levels are looked at, the rails adopted, and a fault the Keeper latched is acted on (R302,
R321 to R326). -/
def State.adopt (s : State) (sns : Eight Nat) : State :=
  let s1 := (s.seeRails sns).adoptRails sns fin8
  let kf := s1.seq.keeperFault
  let s2 : State := match kf with
    | some (k, hi) => { s1 with seq := { s1.seq.mark k (if hi then 2 else 3) with keeperFault := none, pg := s1.seq.pg.set k false } }
    | none => s1
  match (match kf with | some (k, _) => some k | none => fin8.find? s2.notAdopted) with
  | some k => s2.adoptFault k
  | none => s2.afterAdoption

/-- `SEQ_EN` in OFF or HELD; `sns` are the levels at the commit (R295, R326). A rail that leaves power-good aborts a test (R282). -/
def execSeqEn (v : Byte) (sns : Eight Nat) (s : State) : Out :=
  .next (if !s.active then s
    else if s.seq.state != .off && s.seq.state != .held then s.seqStatus 2
    else
      let s1 := (s.seeRails sns).setReg Reg.seqEn v.toNat
      if s.seq.state == .off then s1
      else
        let gone := fin8.filter fun k => s1.seq.en.get k && s1.seq.pg.get k && !s1.railEn k
        let s2 := gone.foldl (fun t k => ({ t with seq := { t.seq with pg := t.seq.pg.set k false } } : State).post (272 + k.val)) s1
        let s3 := (s2.when (!gone.isEmpty) State.testFault).adoptRails sns fin8
        match fin8.find? s3.notAdopted with
        | some k => s3.adoptFault k
        | none => if s3.seq.anyUnsup || !s3.allGood then s3 else s3.afterAdoption)

/-! Power-up. -/

/-- R306: the delay of the rail that is next has run. -/
def execStartDelay (k : Rail) (ms : Nat) (s : State) : Out :=
  let q := s.seq
  .next (if s.active && q.state == .up && q.cur == some k && q.rise.isNone && decide (s.reg (Reg.railStart k.val) ≤ ms) then
      { s with seq := { q with en := q.en.set k true, armedHi := q.armedHi.set k true, rise := some k } }
    else s)

/-- Rail k is good: the next enabled rail's delay starts, or the sequencer is ON (R306, R308). -/
def State.nextRail (s : State) (k : Rail) : State :=
  match fin8.find? fun j => k < j && s.railEn j && !s.seq.pg.get j with
  | some j => { s with seq := { s.seq with cur := some j } }
  | none => s.seqOn

/-- R298, and the end of a warning (R301). -/
def execPowerGood (k : Rail) (mv us : Nat) (s : State) : Out :=
  let q := (s.seeSns k mv).seq
  .next (if !s.active || !q.en.get k || q.unsup.get k || !s.withinWarn k mv || decide (us < s.warnDgl k) then s
    else if q.pg.get k then { s with seq := { q with warned := q.warned.set k false } }
    else
      let s1 := ({ s with seq := { q with pg := q.pg.set k true, armedLo := q.armedLo.set k true, warned := q.warned.set k false,
                                          rise := q.rise.filter (· != k) } } : State).post (272 + k.val)
      if q.state == .up && q.cur == some k then s1.nextRail k else s1)

/-- R307; R315 in a shutdown that has not reached the rail. -/
def execRiseTimeout (k : Rail) (ms : Nat) (s : State) : Out :=
  let q := s.seq
  .next (if s.active && q.rise == some k && !q.pg.get k && decide (s.reg (Reg.railRise k.val) ≤ ms) then
      (({ s with seq := { q.mark k 4 with rise := none } } : State).post 260).latchedCause 5 k
    else s)

/-! Supervision. -/

/-- A fault is qualified: the comparator that saw it is armed, and the deglitch has passed (R299, R300). -/
def State.faultQualified (s : State) (k : Rail) (mv us : Nat) : Bool :=
  decide (s.faultDgl k ≤ us)
    && ((s.seq.armedHi.get k && decide (s.faultHi k < mv)) || (s.seq.armedLo.get k && decide (mv < s.faultLo k)))

/-- The digital domain supervises the rails: in ACTIVE, and from step 5 of a boot on. -/
def State.supervises (s : State) : Bool := s.active || (s.mode == .hold && s.life.booted)

/-- R300, R314 to R316: the rail's bits, SEQ_FAULT, power-good, the shutdown; a test aborts (R285). -/
def execRailFault (k : Rail) (mv us : Nat) (s : State) : Out :=
  .next (if s.supervises && s.faultQualified k mv us then
      let s1 := ((s.seeSns k mv).markFault k mv).post 259
      let s2 := ({ s1 with seq := { s1.seq with pg := s1.seq.pg.set k false } } : State).postIf (s1.seq.pg.get k) (272 + k.val)
      (s2.latchedCause 4 k).testFault
    else s)

/-- R301: once, until SNS has been within the warning levels again. -/
def execRailWarning (k : Rail) (mv us : Nat) (s : State) : Out :=
  let q := (s.seeSns k mv).seq
  .next (if s.active && q.armedLo.get k && !q.warned.get k && !s.withinWarn k mv && decide (s.warnDgl k ≤ us) then
      let q1 := q.mark k (if s.warnHi k < mv then 0 else 1)
      ((({ s with seq := { q1 with warned := q1.warned.set k true } } : State).histMark 4).post (264 + k.val)).testFault
    else s)

/-- R321: the first fault while the digital domain is absent. -/
def execFaultLatchAbsent (k : Rail) (mv us : Nat) (s : State) : Out :=
  .next (if ((s.mode == .hold && !s.life.booted) || s.mode == .dormant) && s.seq.keeperFault.isNone && s.faultQualified k mv us then
      { s with seq := { s.seq with keeperFault := some (k, decide (s.faultHi k < mv)) } }
    else s)

/-! Shutdown. -/

/-- SNS is seen: below DISCH the rail is discharged, and a shutdown that waits for it goes on in ACTIVE; at DISCH or above it is
not (R302, R310, R313; 08, Boot, Hold and DORMANT). -/
def execRailDischarged (k : Rail) (mv : Nat) (s : State) : Out :=
  .next (if s.mode == .off || s.mode == .ship then s else (s.seeSns k mv).when s.active State.resumeDown)

/-- `SEQ_k_DISCH` is written: the comparator acts on SNS as seen last (R330). -/
def State.dischWritten (s : State) (k : Rail) : State :=
  match s.seq.sns.get k with
  | some mv => (s.seeSns k mv).resumeDown
  | none => s

/-- R311; a SHIP entry that waits for the shutdown is abandoned (R76). -/
def execDisMaxTimeout (k : Rail) (ms : Nat) (s : State) : Out :=
  let q := s.seq
  .next (if s.active && q.state == .down && q.cur == some k && !q.en.get k && !q.disch.get k && decide (s.reg (Reg.railDisMax k.val) ≤ ms) then
      let s1 := (({ s with seq := { q.mark k 5 with rail := k.val + 1 } } : State).seqGo .stuck).post 261
      if s.life.shipReq == .agent then
        { s1.setFld Reg.sysPower 12 4 4 with life := { s1.life with shipReq := .none } }
      else s1
    else s)

/-! Starts without an agent. -/

/-- R305; a restart still needs RESTART at 1 and its input, whose loss ends the wait (R318, R319). -/
def execDisWaitStart (s : State) : Out :=
  .next (if s.active && s.seq.wait != .none && s.mayStart && s.allDischarged
      && (s.seq.wait == .auto || (s.flag Reg.seqCfg 1 && s.anyValid)) then s.startUp
    else s)

/-- R318: after a cutoff shutdown, an input valid for 200 ms. -/
def execSeqRestart (ms : Nat) (s : State) : Out :=
  .next (if s.active && s.seq.cause == 3 && s.seq.state == .off && s.flag Reg.seqCfg 1 && s.anyValid && decide (200 ≤ ms)
      && s.seq.wait == .none then s.autoStart .restart
    else s)

end Sys2Proof.Machine
end

