-- ==== Sys2Proof/Machine/Emergency.lean ====
section
/-! DEFINITION. The meanings of the commands of emergency operation and scheduled tests (07). -/

namespace Sys2Proof.Machine

/-! EMERGENCY. -/

/-- EMERGENCY is declared (R254). -/
def State.declare (s : State) : State :=
  let s1 : State := { s with emg := { s.emg with emergency := true, cutoff := false, emgSecs := 0 } }
  (((s1.histMark 0).journal 0x0020 (leBytes 2 (s.reg Reg.chgVbat))).chgEval false none).post 224

/-- R254, R255; a running test closes first, with INPUT_LOST (R287). -/
def execEmergencyDeclared (ms : Nat) (s : State) : Out :=
  .next (if s.active && !s.emg.emergency && !s.anyValid && decide (20 ≤ ms) then (s.testClose 6).declare else s)

/-- R256. -/
def execEmergencyEnded (ms : Nat) (s : State) : Out :=
  .next (if s.active && s.emg.emergency && s.pp.conn.isSome && decide (1000 ≤ ms) then s.emergencyEnd else s)

/-- R260, R245, R281: T_WARN counts back over the second of the qualification. -/
def execEmgWarn (vbat ms : Nat) (s : State) : Out :=
  .next (if s.active && s.chem != 0 && !s.emg.warn && decide (vbat ≤ s.packMv (s.reg Reg.emgWarn)) && decide (1000 ≤ ms) then
      let s0 := s.vbatSeen vbat
      let run := s0.emg.run.map fun r => { r with warnAt := some (s.emg.elapsed - ms / 1000) }
      let s1 := ({ s0 with emg := { s0.emg with warn := true, run := run } } : State).setReg Reg.chgQrem 0
      (((s1.post 226).withdrawOffer).testClose 2)
    else s)

/-- R293. -/
def execEmgWarnClear (vbat : Nat) (s : State) : Out :=
  .next (if s.active && s.emg.warn && decide (s.packMv (s.reg Reg.emgWarn + 10) < vbat) then { s with emg := { s.emg with warn := false } } else s)

/-- R261, R264. -/
def execEmgCutoff (vbat ms : Nat) (s : State) : Out :=
  .next (if !(s.active && s.chem != 0 && decide (vbat ≤ s.packMv (s.reg Reg.emgCutoff)) && decide (10 ≤ ms)) then s
    else if !s.emg.emergency then s.post 227
    else if s.emg.cutoff then s
    else
      let s1 := ({ s with emg := { s.emg with cutoff := true } } : State).post 227
      if s.comingDown then s1 else s1.startShutdown 3 false)

/-! The schedule. -/

def State.nextOf (s : State) : TestKind → Nat
  | .function => s.reg32 Reg.emgFnNext
  | .duration => s.reg32 Reg.emgDurNext

def State.stopped (s : State) : TestKind → Bool
  | .function => s.emg.fnStop
  | .duration => s.emg.durStop

/-- A scheduled test is due (R266, R269). -/
def State.isDue (s : State) (k : TestKind) : Bool :=
  s.flag Reg.emgCtl 8 && s.rtcValid && !s.stopped k && decide (s.nextOf k ≤ s.rtc)

/-- The scheduled test k runs, or its START record is being committed. -/
def State.inHand (s : State) (k : TestKind) : Bool :=
  s.emg.run.any (fun r => r.origin == 0 && r.kind == k) || s.emg.due.any fun d => d.origin == 0 && d.kind == k && d.start

/-- The scheduled test k is due and has not started. -/
def State.waits (s : State) (k : TestKind) : Bool := s.isDue k && !s.inHand k

/-- The test that is due; of two, the DURATION test (R268). -/
def State.dueKind (s : State) : Option TestKind :=
  if s.waits .duration then some .duration else if s.waits .function then some .function else none

/-- Both tests are due: the FUNCTION test gives way, its wait for a slot included, and its NEXT advances (R268). -/
def State.settleDue (s : State) : State :=
  if s.active && s.waits .duration && s.waits .function then
    let mine := s.emg.due.any fun d => d.origin == 0 && d.kind == .function
    ({ s with emg := { s.emg with due := if mine then none else s.emg.due, waitSlot := s.emg.waitSlot && !mine } } : State).advanceNext .function
  else s

/-- The conditions of R270 and R271 but for the slot. -/
def State.testReady (s : State) (k : TestKind) : Bool :=
  s.active && !s.emg.emergency && !s.testing && s.pp.conn.isSome && s.chg.st != .fault
    && (s.chg.zone == .cool || s.chg.zone == .normal || s.chg.zone == .warm)
    && decide (s.packMv (s.reg Reg.emgWarn + 10) < s.pp.vbat) && !s.cnv.rev && !s.seq.state.moving && s.allGood
    && (k == .function || s.emg.full)

/-- The scheduled test k is deferred; EMG_TEST_DEFERRED posts once per due instance (R273, R294). A wait for a slot that an
agent asked for goes on. -/
def State.defer (s : State) (k : TestKind) : State :=
  let own := s.emg.due.any fun d => d.origin != 0
  let said := match k with | .function => s.emg.fnDefer | .duration => s.emg.durDefer
  ({ s with emg := { s.emg with deferred := true, waitSlot := s.emg.waitSlot && own, due := if own then s.emg.due else none,
                                fnDefer := s.emg.fnDefer || k == .function, durDefer := s.emg.durDefer || k == .duration } } : State).postIf
    (!said) 230

/-- A start decision: the START record is composed (Test start, step 1). -/
def State.decideStart (s : State) (d : Due) (lead : BitVec 48) : State :=
  { s with emg := { s.emg with waitSlot := false, due := some { d with start := true, slot := true, lead := lead } } }

/-- R275, R400: the lead's own request is queued at once; a member sends TEST_REQ. -/
def State.askSlot (s : State) (d : Due) : State :=
  let s1 : State := { s with emg := { s.emg with waitSlot := true, due := some d } }
  let secs := s.testSecs d.kind
  match s.lnk.state with
  | .lead => { s1 with lnk := { s1.lnk with slots := (s1.lnk.slots.filter fun r => r.short != s.lnk.short) ++ [⟨s.lnk.short, d.kind, secs⟩] } }
  | .member =>
    s1.lnkQueue 0x6 0 true false (leBytes 1 (testCode d.kind) ++ leBytes 4 secs)
  | _ => s1

/-- Every condition but the slot holds: the test starts, or waits for its slot (R275). -/
def State.beginTest (s : State) (d : Due) : State := if s.part.variant.hasLink then s.askSlot d else s.decideStart d 0

/-- A MISSED record (R274, R290). Where the manual does not say what its fields carry they are, by this model's choice: T_END
the present time, ZONE, VBAT_END, PHASES, CAP_BEFORE and CAP_AFTER the present values, and zeros in ELAPSED, RAILS, VBAT_START,
VBAT_MIN, IBAT_AVG, Q_OUT, TEMP_MIN, TEMP_MAX and LEAD (DESIGN CHOICE, log 85). -/
def State.missTest (s : State) (k : TestKind) : State :=
  let serial := s.emg.serial + 1
  let c : CloseData :=
    { tEnd := s.rtc, elapsed := 0, tWarn := 0xFFFFFFFF, outcome := 8, rails := 0, vbatMin := 0, vbatEnd := s.pp.vbat / 10,
      ibatAvg := 0, qOut := 0, capBefore := s.chg.capL, capAfter := s.chg.capL, tempMin := 0, tempMax := 0, phases := s.cnv.healthy.toNat }
  let r := s.testRecord 2 (testCode k) serial 0 (s.nextOf k) 0 (s.testSecs k) 0 s.chg.zone.code 0 c
  let own := s.emg.due.any fun d => d.origin != 0
  let e := { s.emg with serial := serial, outcome := 8, waitSlot := s.emg.waitSlot && own, due := if own then s.emg.due else none }
  (((({ s with emg := e } : State).commitRecord r).advanceNext k)).post 231

/-- Test k has not started within EMG_DEFER_MAX of its due time (R274). -/
def State.overdue (s : State) (k : TestKind) : Bool := decide (s.reg Reg.emgDeferMax * 3600 ≤ s.rtc - s.nextOf k)

/-- The due test, at its due time or at a check (R270 to R275). -/
def State.tryScheduled (s : State) (k : TestKind) : State :=
  if s.overdue k then s.missTest k
  else if s.testReady k && s.emg.due.isNone then
    ({ s with emg := { s.emg with deferred := false } } : State).beginTest ⟨k, 0, s.nextOf k, false, 0, false⟩
  else s.defer k

/-- The scheduled test k waits already: for its slot, or for the next check. -/
def State.duePending (s : State) (k : TestKind) : Bool :=
  s.emg.due.any (fun d => d.origin == 0 && d.kind == k)
    || (s.emg.deferred && (match k with | .function => s.emg.fnDefer | .duration => s.emg.durDefer))

/-- R266 to R275; in DORMANT it wakes the part (R267). -/
def execTestDue (s : State) : Out :=
  .next (match s.dueKind with
    | none => s
    | some k =>
      if s.mode == .dormant then s.wake 5
      else if !s.active then s
      else if s.settleDue.duePending k then s.settleDue
      else s.settleDue.tryScheduled k)

/-- R273: the check every EMG_RETRY, in steps of 5 min. -/
def execTestRetry (mins : Nat) (s : State) : Out :=
  .next (match s.dueKind with
    | none => s
    | some k =>
      if s.active && s.emg.deferred && !(s.settleDue.emg.due.any fun d => d.origin == 0) && decide (s.reg Reg.emgRetry * 5 ≤ mins) then
        s.settleDue.tryScheduled k
      else s)

/-- R274: it bounds every wait, that for a slot included. -/
def execTestMissed (s : State) : Out :=
  .next (match s.dueKind with
    | none => s
    | some k => if s.active && s.overdue k then s.settleDue.missTest k else s)

/-! Slots and agent starts. -/

def State.emgStatus (s : State) (v : Nat) : State := s.setFld Reg.emgCtl 12 4 v

/-- A waiting test is granted its slot: it starts when its conditions still hold (R270, R275). -/
def State.slotHere (s : State) : State :=
  match s.emg.due with
  | none => s
  | some d =>
    if !s.emg.waitSlot then s
    else
      let s1 := s.post 371
      if s.testReady d.kind then (if d.origin == 0 then s1 else s1.emgStatus 1).decideStart d s.lnk.lead
      else if d.origin == 0 then s1.defer d.kind
      else ({ s1 with emg := { s1.emg with waitSlot := false, due := none } } : State).emgStatus 3

/-- R275. -/
def execSlotGranted (s : State) : Out :=
  .next (if s.active && s.lnk.joined then s.slotHere else s)

/-- R276: BLOCKED in EMERGENCY or while a test is in progress or being started; NOT_READY where a condition fails. -/
def State.agentStart (s : State) (a : Agent) (k : TestKind) : State :=
  if !s.active then s
  else if s.emg.emergency || s.testing || s.emg.due.isSome then s.emgStatus 2
  else if !s.testReady k then s.emgStatus 3
  else (s.emgStatus (if s.part.variant.hasLink then 4 else 1)).beginTest ⟨k, a.val + 1, 0, false, 0, false⟩

def execStartFn (a : Agent) (s : State) : Out := .next (s.agentStart a .function)

def execStartDur (a : Agent) (s : State) : Out := .next (s.agentStart a .duration)

/-! A test. -/

/-- What a START record holds besides its own fields (R290). -/
def CloseData.start : CloseData := ⟨0, 0, 0, 0, 0, 0, 0, 0, 0, 0, 0, 0, 0, 0⟩

/-- The offer falls to 0, the inputs are isolated and the test runs (Test start, steps 3 and 4; R278, R289, R393, R397). -/
def State.isolate (s : State) (d : Due) : State :=
  let run : Run :=
    { kind := d.kind, origin := d.origin, tDue := d.tDue, serial := s.emg.serial, tStart := s.rtc, secs := s.testSecs d.kind, warnAt := none,
      zone := s.chg.zone, rails := s.seq.pg.toNat, vbatStart := s.pp.vbat / 10, vbatMin := s.pp.vbat / 10, qStart := s.qacc,
      qWarn := none, capBefore := s.chg.capL, tempMin := s.signed Reg.chgTemp, tempMax := s.signed Reg.chgTemp, lead := d.lead }
  let s1 := (s.withdrawOffer.chgGo .isolated).refet
  let s2 := ({ s1 with pp := { s1.pp with isolated := true } } : State).connectTo none
  (({ s2 with emg := { s2.emg with run := some run, due := none, deferred := s2.emg.deferred && d.origin != 0, waitSlot := false,
                                   elapsed := 0 } } : State).histMark 1).post 228

/-- R277: the record is written first, under a new serial; what is not committed does not start. -/
def execStartRecordCommit (ok : Bool) (s : State) : Out :=
  .next (match s.emg.due with
    | none => s
    | some d =>
      if !s.active || !d.start then s
      else
        let fail := fun t : State => if d.origin == 0 then ({ t with emg := { t.emg with due := none } } : State).defer d.kind else
          ({ t with emg := { t.emg with due := none } } : State).emgStatus 3
        if !s.testReady d.kind then fail s
        else if !ok || s.testsStuck then fail (s.post 234)
        else
          let serial := s.emg.serial + 1
          let r := s.testRecord 1 (testCode d.kind) serial d.origin d.tDue s.rtc (s.testSecs d.kind) 0 s.chg.zone.code d.lead .start
          (({ s with emg := { s.emg with serial := serial } } : State).commitRecord r).isolate d)

/-- R279, R280, R282: the set length plus 1 %; it passes with every enabled rail power-good. -/
def execTestLengthReached (ms : Nat) (s : State) : Out :=
  .next (match s.emg.run with
    | none => s
    | some r =>
      if s.active && decide (r.secs * 1010 ≤ ms) then 
        ({ s with emg := { s.emg with elapsed := ms / 1000 } } : State).testClose (if s.allGood then 1 else 4)
      else s)

/-- R285; `EMG_CTL.STATUS` 5. -/
def execEmgAbort (_a : Agent) (s : State) : Out :=
  .next (if s.active && s.testing then (s.emgStatus 5).testClose 5 else s)

/-- R285: 1 ms at or below n × EMG_TEST_ABORT. -/
def execTestAbortVbat (vbat us : Nat) (s : State) : Out :=
  .next (if s.active && s.testing && decide (vbat ≤ s.packMv (s.reg Reg.emgTestAbort)) && decide (1000 ≤ us) then
      (s.vbatSeen vbat).testClose 3
    else s)

end Sys2Proof.Machine
end

