-- ==== Sys2Proof/Machine/EventFabric.lean ====
section
/-! DEFINITION. The commands of the event fabric and of the Keeper watch list (12). -/

namespace Sys2Proof.Machine

/-- Doorbells have their own rows; the numbers that never post have none (R459, event source map). -/
def postable (x : Nat) : Bool := 32 ≤ x && !neverPosts x

/-- R462: a hardware producer's posting. -/
def execEventPost (src : BitVec 9) (s : State) : Out :=
  .next (if s.active && postable src.toNat then s.post src.toNat else s)

/-- A doorbell of agent a (R459, R460). -/
def State.ringDoorbell (s : State) (a : Agent) (d : Nat) : State := s.postAs (d % 32) (a.val + 1)

def execEvtDoorbell (a : Agent) (d : BitVec 5) (s : State) : Out := .next (if s.active then s.ringDoorbell a d.toNat else s)

/-- R481, R482: TIME counts in 10 us steps from the batch's opening. -/
def execCoalesceTime (g : BitVec 5) (us : Nat) (s : State) : Out :=
  .next (if s.active && decide (s.reg (Reg.coalTime g.toNat) * 10 ≤ us) then s.withFab (s.closeBatch s.fab g.toNat) else s)

/-- R472, R474. -/
def execAgtnClaim (a : Agent) (s : State) : Out := .next (if s.active then (s.claimBy a).attnSettle else s)

/-- R475 to R477. -/
def execAgtnComplete (a : Agent) (x : BitVec 9) (s : State) : Out := .next (if s.active then (s.completeBy a x.toNat).attnSettle else s)

/-- AGTn_CTL written (R478): going to sleep binds the round-robin entries afresh. -/
def State.writeAgtCtl (s : State) (a : Agent) (v : Nat) : State :=
  let i := Reg.agtCtl a.val
  let s1 := s.setReg i (storeFields (fieldsOf i) (s.reg i) v)
  if s.awake a && !s1.awake a then s1.rebind a else s1

def execAgtnCtlAwake (a : Agent) (v : Word) (s : State) : Out := .next (if s.active then (s.writeAgtCtl a v.toNat).attnSettle else s)

/-- A sleeping agent has a claimable entry of at least its WAKE_PRIO (R479). -/
def State.wantsWake (s : State) (a : Agent) : Bool :=
  !s.awake a && (s.claimable a).any fun e => decide (s.wakePrio a ≤ e.prio)

/-- A pulse on WAKE_N starts, and with it the 100 ms in which no other does. -/
def State.startPulse (s : State) : State := { s with life := { s.life with pulse := true, holdoff := true } }

/-- R479: WAKE_N goes low for 1 ms, unless the last pulse started within 100 ms. -/
def execRemoteWake (a : Agent) (s : State) : Out :=
  .next (if s.active && s.wantsWake a && !s.life.holdoff then s.startPulse else s)

/-- R479: the 100 ms end. -/
def execRemoteWakeDeferred (a : Agent) (ms : Nat) (s : State) : Out :=
  .next (if !(s.active && decide (100 ≤ ms)) then s
    else if s.wantsWake a then s.startPulse else { s with life := { s.life with holdoff := false } })

/-- EVT_ROUTE_x written: the routes of the stack faults are fixed, index 0x03FF has none (R467, R468). -/
def State.writeRoute (s : State) (x v : Nat) : State :=
  let i := Reg.evtRoute x
  if (40 ≤ x && x < 44) || !implemented i then s else s.setReg i (storeFields (fieldsOf i) (s.reg i) v)

def execEvtRoute (x : BitVec 9) (v : Word) (s : State) : Out := .next (if s.active then s.writeRoute x.toNat v.toNat else s)

/-- The bits of KPR_WATCH_HIT0 and 1 for the armed entries that name x (R484); each entry is kept with its source for R487. -/
def State.watchHit (s : State) (x : Nat) : State :=
  let m := ((s.watching x).map fun k => 2 ^ k).sum
  let s1 := s.setReg32 Reg.kprWatchHit (s.reg32 Reg.kprWatchHit ||| m)
  let new := ((s.watching x).map fun k => 512 * k + x).filter fun c => !s1.fab.bootPosts.contains c
  { s1 with fab := { s1.fab with bootPosts := s1.fab.bootPosts ++ new } }

/-- R485. -/
def execWatchHitDormant (src : BitVec 9) (s : State) : Out :=
  let x := src.toNat
  .next (if s.mode == .dormant && watchDormant x && !(s.watching x).isEmpty then (s.watchHit x).wake 2 else s)

/-- R486: the part stays in SHIP. -/
def execWatchHitShip (src : BitVec 9) (s : State) : Out :=
  let x := src.toNat
  .next (if s.mode == .ship && watchShip x && !(s.watching x).isEmpty then s.watchHit x else s)

end Sys2Proof.Machine
end

