-- ==== Sys2Proof/Machine/Inputs.lean ====
section
/-! DEFINITION. The meanings of the commands of the PoE front end, the inputs, the selector and VSYS (04). -/

namespace Sys2Proof.Machine

/-- Anything but OFF: the analog inputs are watched (01, Power domains; in SHIP for the wake of R72). -/
def State.watched (s : State) : Bool := s.mode != .off

def State.setPoe (s : State) (p : Poe) : State := { s with pp := { s.pp with poe := p } }

/-- The overvoltage threshold in mV (R133). -/
def ovThreshold : InputId → Nat
  | .poe | .aux => 58500
  | .c1 | .c2 => 22000

/-- The floor in force, in mV. -/
def State.floorMv (s : State) (i : InputId) : Nat := (s.setpoints.floor.get i.ix) * 100

/-! The PoE front end. -/

/-- P_alloc as `POE_ALLOC` shows it, once a class is assigned; POE_ALLOC_CHANGED posts when it changes (R124, R157). -/
def State.setAlloc (s : State) : State :=
  let a := if s.pp.poe.events == 0 then s.pp.poe.alloc else s.pAlloc / 100
  (s.setPoe { s.pp.poe with alloc := a }).postIf (a != s.pp.poe.alloc) 98

/-- Under the Hold defaults the PoE limit is the default limit of the assigned class (R155). -/
def State.classDefault (s : State) : State :=
  if s.underDefaults then
    { s with pp := { s.pp with held := { s.pp.held with lim := { s.pp.held.lim with a0 := classLimit s.pp.poe.assigned } } } }
  else s

/-- R116 to R118, R124: one classification event before power-on; the signature of the requested class answers it. -/
def execPoeClassEvent (clsOhm : Option Nat) (s : State) : Out :=
  let p := s.pp.poe
  let c := clsOhm.bind clsOf
  let n := min 5 (p.events + 1)
  let q := c.getD 1
  let p1 : Poe := { p with events := n, requested := q, assigned := assignedClass n q, sig := classSignature q n, clsBad := c.isNone }
  .next (if p.hsg != .off then s else (((s.setPoe p1).postIf (p1.demoted && !p.demoted) 97).setAlloc).classDefault)

/-- R119, R120: above 36.0 V after classification; the gate turns on with the inrush limited. -/
def execHotSwapOn (mv : Nat) (s : State) : Out :=
  let p := s.pp.poe
  .next (if decide (36000 < mv) && p.hsg == .off && !p.hsFault && p.events != 0 then s.setPoe { p with hsg := .rising } else s)

/-- R119, R122: below 30.0 V; a new power-on counts its events afresh. DESIGN CHOICE (log 80): R122 keeps HSG off until VPP falls
below 30.0 V and does not say when HS_FAULT clears; the model clears it at that same point. -/
def execHotSwapOff (mv : Nat) (s : State) : Out :=
  let p := s.pp.poe
  .next (if mv < 30000 then
      (s.setPoe { p with hsg := .off, pg := false, ready := false, hsFault := false, events := 0, mps := false, pulse := false }).postIf p.pg 96
    else s)

/-- The inrush limit in mA (R120, R156). -/
def State.inrushMa (s : State) : Nat := (s.fld Reg.poeCfg 0 3 + 1) * 50

/-- The hot-swap MOSFET's current where ma would flow: held to the inrush limit while HSG turns on (R120). -/
def State.hotSwapMa (s : State) (ma : Nat) : Nat := if s.pp.poe.hsg == .rising then min ma s.inrushMa else ma

/-- R121: HSG is fully enhanced and the current is below 80 % of the inrush limit. -/
def execHotSwapPg (ma : Nat) (enhanced : Bool) (s : State) : Out :=
  let p := s.pp.poe
  let on := p.hsg == .on || (p.hsg == .rising && enhanced)
  .next (if p.pg || !on then s
    else if decide (5 * s.hotSwapMa ma < 4 * s.inrushMa) then (s.setPoe { p with hsg := .on, pg := true }).post 96
    else s.setPoe { p with hsg := .on })

/-- R122: above 2.2 A for 1 ms. -/
def execHotSwapFault (ma us : Nat) (s : State) : Out :=
  let p := s.pp.poe
  .next (if p.pg && decide (2200 < ma) && decide (1000 ≤ us) then
      ((s.setPoe { p with hsg := .off, pg := false, ready := false, hsFault := true, mps := false, pulse := false }).post 96).post 100
    else s)

/-- R125: from a fresh VPP measurement. -/
def execPoeLimitUpdate (mv : Nat) (s : State) : Out :=
  .next (if s.active then s.setPoe { s.pp.poe with lim := s.poeLimit mv } else s)

/-- R124, R125: `POE_DLL_ALLOC` is written. -/
def State.writeDll (s : State) (v mv : Nat) : State :=
  let i := Reg.poeDllAlloc
  let s1 := (s.setReg i (storeFields (fieldsOf i) (s.reg i) v)).setAlloc
  s1.setPoe { s1.pp.poe with lim := s1.poeLimit mv }

def execPoeDllAlloc (v : Word) (mv : Nat) (s : State) : Out := .next (if s.active then s.writeDll v.toNat mv else s)

/-- R126: the first pulse after 200 ms below 20 mA, then one every 250 ms, until the load alone draws 20 mA. -/
def execMpsPulse (ma ms : Nat) (s : State) : Out :=
  let p := s.pp.poe
  .next (if !p.pg || !s.flag Reg.poeCfg 4 || decide (20 ≤ ma) then s.setPoe { p with mps := false, pulse := false }
    else if decide ((if p.mps then 250 else 200) ≤ ms) then (s.setPoe { p with mps := true, pulse := true }).postIf (!p.mps) 99
    else s)

/-- R126: 8 ms. -/
def execMpsPulseEnd (ms : Nat) (s : State) : Out :=
  .next (if 8 ≤ ms then s.setPoe { s.pp.poe with pulse := false } else s)

/-! Validity. -/

/-- A change of an input's validity is a wake cause in SHIP and DORMANT, and there alone (R83). -/
def State.wakeInput (s : State) : State := if s.mode == .ship || s.mode == .dormant then s.wake 3 else s

/-- An input is valid: it wakes the part in SHIP and DORMANT, and is connected at once when none is (R83, R129, R137,
R142, R148). A port that sources during a test goes on unchanged (R278). -/
def State.becomeValid (s : State) (i : InputId) : State :=
  let s1 := ({ s with pp := { s.pp with ov := s.pp.ov.set i.ix false } } : State).setValid i true
  let s2 := s1.wakeInput
  let s3 := if s2.pp.conn.isNone then s2.connectBest else if s2.pp.inelig then s2.leaveIneligible else s2
  if s3.active && !s3.pp.isolated then ((s3.retarget).readvertise .c1).readvertise .c2 else s3

/-- An input ceases to be valid; in SHIP and DORMANT that is a wake cause (R83, R134). -/
def State.becomeInvalid (s : State) (i : InputId) : State :=
  let s1 := s.setValid i false
  (if s1.seq.wait == .restart then { s1 with seq := { s1.seq with wait := .none } } else s1).wakeInput

/-- The voltage and time of R129 and R133; a port that became sink by a swap needs 100 us (R361). -/
def State.qualifies (s : State) (i : InputId) (mv us : Nat) : Bool :=
  let swapped : Bool := match i with
    | .c1 => s.pdp.p1.swapped
    | .c2 => s.pdp.p2.swapped
    | _ => false
  let top := if s.pp.ov.get i.ix then ovThreshold i - 1000 else ovThreshold i
  decide (s.floorMv i ≤ mv ∧ mv < top) && decide ((if swapped then 100 else s.reg Reg.pthQual * 1000) ≤ us)

/-- A swap's fresh sink is an ordinary one once its input is valid (R361). -/
def State.endSwap (s : State) (i : InputId) : State :=
  let f : PortSt → PortSt := fun c => { c with swapped := false }
  match i with
  | .c1 => { s with pdp := { s.pdp with p1 := f s.pdp.p1 } }
  | .c2 => { s with pdp := { s.pdp with p2 := f s.pdp.p2 } }
  | _ => s

/-- R129, R133, R361; the PoE input takes R123 as well. -/
def execInputQualified (i : InputId) (mv us : Nat) (s : State) : Out :=
  .next (if s.watched && s.eligible i && !s.isValid i && s.qualifies i mv us && (i != .poe || (s.pp.poe.pg && s.pp.poe.ready)) then
      (s.endSwap i).becomeValid i
    else s)

/-- R123, R129, R133: 80 ms after power-good, VPP having been good for the last `us`. -/
def execPoeValid (mv ms us : Nat) (s : State) : Out :=
  .next (if s.watched && s.pp.poe.pg && decide (80 ≤ ms) then
      let s1 := s.setPoe { s.pp.poe with ready := true }
      if s1.eligible .poe && !s1.isValid .poe && s1.qualifies .poe mv us then s1.becomeValid .poe else s1
    else s)

/-- R319: a valid input that is not connected falls below its floor. -/
def execInputInvalid (i : InputId) (mv : Nat) (s : State) : Out :=
  .next (if s.watched && s.isValid i && s.pp.conn != some i && decide (mv < s.floorMv i) then s.becomeInvalid i else s)

/-! Collapse and planned moves. -/

/-- The connected input is gone: the takeover, in every state with the analog path (R135, R136, R346). -/
def State.collapse (s : State) : State :=
  let s1 := s.takeOver
  (s1.readvertise .c1).readvertise .c2

/-- R133: the gate pair turns off and the input is invalid. -/
def State.overvoltage (s : State) (i : InputId) : State :=
  let s1 := ({ s with pp := { s.pp with ov := s.pp.ov.set i.ix true } } : State).postIf (!s.pp.ov.get i.ix) (76 + i.ix.val)
  let s2 := if s.isValid i then s1.becomeInvalid i else s1
  if s.pp.conn == some i then s2.leaveReverse.collapse else s2

def execInputOvervoltage (i : InputId) (mv : Nat) (s : State) : Out :=
  .next (if s.watched && decide (ovThreshold i ≤ mv) then s.overvoltage i else s)

/-- R132: the connected input collapses. In reverse the connected input is AUX: its reverse current is no criterion (R198),
and on a dead bus its low voltage is none until VAUX has reached 18 V (R196). -/
def execTakeover (why : Collapse) (s : State) : Out :=
  .next (match s.pp.conn with
    | none => s
    | some i =>
      match why with
        | .low mv =>
          if decide (10 * mv < 9 * s.floorMv i) && !(s.cnv.rev && s.cnv.deadBus) then ((s.becomeInvalid i).leaveReverse).collapse else s
        | .reverse uv => if decide (uv < -1500) && !s.cnv.rev then ((s.becomeInvalid i).post 83).collapse else s
        | .over mv => if decide (ovThreshold i ≤ mv) then s.overvoltage i else s)

/-- R138, R139: a higher-ranked input has stayed valid for `PTH_RETURN`. -/
def execReturnDelay (i : InputId) (ms : Nat) (s : State) : Out :=
  .next (match s.pp.conn with
    | none => s
    | some j =>
      if s.active && s.isValid i && s.eligible i && decide (s.rankKey i < s.rankKey j) && decide (s.reg Reg.pthReturn * 10 ≤ ms)
          && !s.cnv.rev && !s.pp.isolated then ((s.connectTo (some i)).readvertise .c1).readvertise .c2
      else s)

/-- R128, R141, R142: `PTH_EN` is written. -/
def State.writePthEn (s : State) (v : Nat) : State :=
  let w := storeFields (fieldsOf Reg.pthEn) (s.reg Reg.pthEn) v
  (s.setReg Reg.pthEn (clearBits w (absentBits s.part.variant Reg.pthEn))).leaveIneligible

def execPthEn (v : Word) (s : State) : Out := .next (if s.active then s.writePthEn v.toNat else s)

/-! Limits, the battery and VSYS. -/

/-- R144, R145, R161, R222, R237: the limit of the connected input at `vin` is reached, or no longer is; `ibat` is the charge
current it leaves. -/
def execInputCurrentLimit (ma vin : Nat) (ibat : Int) (s : State) : Out :=
  .next (match s.pp.conn with
    | none => s
    | some i =>
      let hit := decide (lowInputLimit vin (s.inputLimit i) * 10 ≤ ma)
      let s1 : State := { s with pp := { s.pp with ilim := hit } }
      ((s1.reLimit).halfRate ibat).postIf (hit && !s.pp.ilim) 67)

/-- R131, R222, R237: the converter holds the input at its floor, or no longer does; `ibat` is the charge current it leaves. -/
def execInputVoltageRegulation (mv : Nat) (ibat : Int) (s : State) : Out :=
  .next (match s.pp.conn with
    | none => s
    | some i =>
      let hit := decide (mv ≤ s.floorMv i)
      let s1 : State := { s with pp := { s.pp with vfloor := hit } }
      ((s1.reLimit).halfRate ibat).postIf (hit && !s.pp.vfloor) 68)

/-- R146: the FET is on with VSYS 30 mV below VBAT above the strapped cutoff; once VSYS is above VBAT the battery no longer
supplements, and the ideal diode blocks. R151 looks at the same VSYS. -/
def execBatterySupplement (vsys vbat : Nat) (s : State) : Out :=
  .next (if !s.watched || s.mode == .ship then s
    else
      let s1 := s.seeVbat vbat
      if s1.batteryCan && decide (vsys + 30 ≤ vbat) then
        (({ s1 with pp := { s1.pp with supplement := true, cutoff := false } } : State).seeVsys vsys).postIf (!s.pp.supplement) 69
      else ({ s1 with pp := { s1.pp with supplement := s1.pp.supplement && decide (vsys ≤ vbat) } } : State).seeVsys vsys)

/-- R153: below 95 % of `PTH_VSYS_MIN` for 1 ms; in force until VSYS is above it again. -/
def execVsysLow (mv us : Nat) (s : State) : Out :=
  let low := decide (mv < s.setpoints.vsysMin * 19)
  .next (if s.mode == .off || s.mode == .ship then s
    else
      let s1 := s.seeVsys mv
      if low && decide (1000 ≤ us) then ({ s1 with pp := { s1.pp with vsysLow := true } } : State).postIf (!s.pp.vsysLow) 70
      else if low then s1 else { s1 with pp := { s1.pp with vsysLow := false } })

/-- R147: the analog cutoff keeps the battery FET from conducting to VSYS, in every posture; above it the block ends. -/
def execStrappedCutoff (vbat : Nat) (s : State) : Out :=
  .next (if s.straps.chem == 0 || s.mode == .off || s.mode == .ship then s
    else
      let low := decide (vbat ≤ s.cutoffMv)
      ((({ s with pp := { s.pp with vbat := vbat, cutoff := low, supplement := s.pp.supplement && !low } } : State).refet).postIf
        (low && !s.pp.cutoff) 80).leaveHeld)

/-- 5 us; PTH_GATE_FAULT, and a test aborts (R285). -/
def execGateFault (_i : InputId) (us : Nat) (s : State) : Out :=
  .next (if s.watched && decide (5 < us) then (s.post 81).testFault else s)

end Sys2Proof.Machine
end

