-- ==== Sys2Proof/Machine/LinkUnit.lean ====
section
/-! DEFINITION. The meanings of the commands of Quiden Link and the Girth budget (10). -/

namespace Sys2Proof.Machine

/-! Sending and receiving. -/

/-- The Link is up: ACTIVE, present and not OFF (R374, R380). -/
def State.lnkUp (s : State) : Bool := s.active && s.part.variant.hasLink && s.lnk.state != .off

/-- A Link command begins: nothing of it is on the bus yet. -/
def State.lnkFresh (s : State) : State := { s with lnk := { s.lnk with sent := [] } }

/-- A frame has been received: `LNK_RSSI` shows its level. -/
def State.lnkHear (s : State) : State := (s.lnkFresh.setReg Reg.lnkRssi (Config.rssi s.free).toNat).nextFree

/-- The ACK of a frame, its sequence number echoed (R376). -/
def State.sendAck (s : State) (dst seqNo : Nat) : State :=
  let f : Frame := ⟨0xF, false, false, seqNo, s.lnk.src, dst, none, []⟩
  { s with lnk := { s.lnk with sent := s.lnk.sent ++ [f] } }

/-- What marks the frame as the one its sender sent last with an ACK request. -/
def ackKey (typ : Nat) (payload : List Byte) : List Byte := leBytes 1 typ ++ payload

/-- A repeat of the sender's last frame (R376). -/
def State.isRepeat (s : State) (src seqNo : Nat) (key : List Byte) : Bool := SMap.get (fun _ => (4, [])) s.lnk.last src == (seqNo, key)

def State.noteFrame (s : State) (src seqNo : Nat) (key : List Byte) : State :=
  { s with lnk := { s.lnk with last := SMap.set (fun _ => (4, [])) s.lnk.last src (seqNo, key) } }

/-- A frame with an ACK request reaches this node: acknowledged, and delivered once (R376). -/
def State.ackOnce (s : State) (src seqNo : Nat) (key : List Byte) (f : State → State) : State :=
  let s1 := s.sendAck src seqNo
  if s.isRepeat src seqNo key then s1 else f (s1.noteFrame src seqNo key)

/-- The frame that waits for its ACK, and those that wait for the channel, are given up. -/
def Lnk.dropFrames (l : Lnk) : Lnk := { l with txq := [], air := none }

/-- The node ID as six bytes. -/
def State.idBytes (s : State) : List Byte := leBytes 6 s.part.uid.toNat

/-- `LNK_CFG` fields. -/
def State.lnkPrio (s : State) : Nat := s.fld Reg.lnkCfg 4 4
def State.leadAllow (s : State) : Bool := s.flag Reg.lnkCfg 1
def State.lnkRetries (s : State) : Nat := s.fld Reg.lnkCfg 8 3

/-- The lead node ID; LNK_LEAD_CHANGED posts when it changes (R405). -/
def State.setLead (s : State) (id : BitVec 48) : State :=
  ({ s with lnk := { s.lnk with lead := id } } : State).postIf (s.lnk.lead != id) 353

/-- JOIN, to the lead (R380). -/
def State.sendJoin (s : State) : State := s.lnkQueue 0x3 0 true false (s.idBytes ++ leBytes 1 s.lnkPrio)

/-- TEST_REQ again, by a node that waits for a slot (R403). -/
def State.askAgain (s : State) : State :=
  match s.emg.due with
  | some d => if s.emg.waitSlot then s.lnkQueue 0x6 0 true false (leBytes 1 (testCode d.kind) ++ leBytes 4 (s.testSecs d.kind)) else s
  | none => s

/-! Girth: reports and grants. -/

/-- The demand of R394, in 100 mA. -/
def State.demandNow (s : State) : Nat :=
  if s.flag Reg.gthCfg 1 && bit s.setpoints.en 1 && !(s.isValid .poe || s.isValid .c1 || s.isValid .c2)
      && (s.chg.absent || s.socByte == 0xFF || decide (s.reg Reg.chgReserveMin < s.reg Reg.gthNeedMin))
  then s.reg Reg.gthDemand else 0

/-- Offer and demand as reported now; GTH_OFFER and GTH_DEMAND post when they change, and an offer of 0 ends a supply grant
(R393, R394, R397). -/
def State.report (s : State) : State :=
  let o := s.offerNow
  let s1 := if o == 0 then s.withdrawOffer else ({ s with lnk := { s.lnk with offer := o } } : State).postIf (s.lnk.offer != o) 369
  let d := s.demandNow
  ({ s1 with lnk := { s1.lnk with demand := d } } : State).postIf (s1.lnk.demand != d) 370

/-- STATUS byte 0 (10, STATUS payload). -/
def State.statusFlags (s : State) : Nat :=
  b2n s.emg.emergency + 2 * b2n s.testing + 4 * b2n s.emg.warn + 8 * b2n s.cnv.rev
    + 16 * b2n (s.isValid .poe || s.isValid .c1 || s.isValid .c2)

/-- The grants a beacon carries, applied to this node (R396 to R398). A supply stays ended while the offer is 0. -/
def State.applyGrants (s : State) (gs : List GrantEntry) : State :=
  let g := (gs.find? fun g => g.short == s.lnk.short && g.cur != 0 && !(g.supply && s.lnk.offer == 0)).map fun g => (g.supply, g.cur)
  if g == s.lnk.grant then s
  else match g with
    | none => s.endGrant
    | some (sup, cur) =>
      let wasSup := match s.lnk.grant with | some (true, _) => true | _ => false
      let s1 := ({ s with lnk := { s.lnk with grant := g }, cnv := { s.cnv with revI := if sup then cur else 0 } } : State).post 368
      ((s1.when (wasSup && !sup) State.stopReverse).regulateRev).leaveIneligible

/-- The lead's own report beside its members' (R395). -/
def State.reports (s : State) : List Report :=
  let own : Report := ⟨0, s.part.uid, s.lnk.offer, s.lnk.demand, s.socByte, s.reg Reg.chgReserveMin⟩
  own :: (s.lnk.members.filter fun m => m.rounds < 2).map fun m => ⟨m.short, m.id, m.offer, m.demand, m.soc, m.reserve⟩

/-- A member, the lead included, reports EMERGENCY (R400). -/
def State.zoneEmergency (s : State) : Bool := s.emg.emergency || s.lnk.members.any fun m => m.flags.toNat % 2 == 1

/-! Test slots (R400 to R402). -/

/-- The slot ends; GTH_SLOT_FREED posts. -/
def State.freeSlot (s : State) : State :=
  ({ s with lnk := { s.lnk with holder := none, slotSecs := 0 } } : State).postIf s.lnk.holder.isSome 372

/-- The lead grants the slot to the earliest request, when none holds it and no member reports EMERGENCY. -/
def State.serveSlot (s : State) : State :=
  if s.lnk.holder.isSome || s.zoneEmergency then s
  else match s.lnk.slots with
    | [] => s
    | r :: rest =>
      let s1 : State := { s with lnk := { s.lnk with slots := rest, holder := some r.short, slotSecs := r.secs } }
      if r.short == s.lnk.short then s1.slotHere else s1.lnkQueue 0x7 r.short true false (leBytes 1 (testCode r.kind))

/-- Short address a is freed; LNK_MEMBER_LEFT posts, and a slot it held ends (R385, R401). -/
def State.freeMember (s : State) (a : Nat) : State :=
  if s.lnk.members.any (·.short == a) then
    let s1 := ({ s with lnk := { s.lnk with members := s.lnk.members.filter (·.short != a),
                                            slots := s.lnk.slots.filter (·.short != a),
                                            last := SMap.set (fun _ => (4, [])) s.lnk.last a (4, []) } } : State).post 364
    if s1.lnk.holder == some a then s1.freeSlot else s1
  else s

def State.freeMembers (s : State) : List Nat → State
  | [] => s
  | a :: as => (s.freeMember a).freeMembers as

/-! The lead. -/

/-- A round ends: each member's rounds since its report; two missed rounds free its address (R385). -/
def State.closeRound (s : State) : State :=
  let ms := s.lnk.members.map fun m => { m with rounds := if m.heard then 0 else m.rounds + 1, heard := false }
  let gone := (ms.filter fun m => 2 ≤ m.rounds).map (·.short)
  ({ s with lnk := { s.lnk with members := ms } } : State).freeMembers gone

/-- The grants of the round (R395), and the lead's own (R396). -/
def State.computeRound (s : State) : State :=
  let s1 := s.closeRound.report
  let (gs, short) := computeGrants (s1.reg Reg.gthZoneMax) s1.reports
  (({ s1 with lnk := { s1.lnk with grants := gs.take 32 } } : State).postIf short 373).applyGrants (gs.take 32)

/-- The BEACON payload (10). -/
def State.beaconBytes (s : State) : List Byte :=
  [s.lnk.bc] ++ s.idBytes ++ leBytes 1 s.lnkPrio ++ leBytes 1 s.lnk.count ++ leBytes 1 (s.lnk.holder.getD 0xFF)
    ++ leBytes 1 (b2n s.zoneEmergency) ++ leBytes 1 s.lnk.grants.length
    ++ s.lnk.grants.flatMap fun g => leBytes 1 g.short ++ leBytes 1 (128 * b2n g.supply + g.cur)

/-- R378, R385, R395, R400: a lead's first beacon has BC 0. -/
def execBeaconSend (s : State) : Out :=
  .next (if !(s.lnkUp && s.lnk.state == .lead) then s
    else
      let s0 := s.lnkFresh
      let bc : Byte := if s0.lnk.count == 0 then 0 else s0.lnk.bc + 1
      let s1 : State := { s0 with lnk := { s0.lnk with bc := bc } }
      let s2 := if bc.toNat % 8 == 0 then s1.computeRound else s1
      let s3 := s2.serveSlot
      let s4 : State := { s3 with lnk := { s3.lnk with count := s3.lnk.members.length + 1 } }
      s4.lnkSend 0x1 0xFF s4.beaconBytes)

/-- To LISTEN for a time: the node has no short address and no frame waits. -/
def State.listenFor (s : State) (ms : Nat) : State :=
  ({ s with lnk := { s.lnk.dropFrames with listenMs := ms, short := 0, members := [], grants := [], holder := none, slotSecs := 0, slots := [],
                                           last := [], refused := false } } : State).lnkGo .listen

/-- LISTEN for a random time (R380). -/
def State.toListen (s : State) : State := (s.listenFor (Config.listenMs s.free)).nextFree

/-- Claim values: [priority][node ID], lower preferred. -/
def claimValue (prio : Nat) (id : BitVec 48) : Nat := prio * 2 ^ 48 + id.toNat

def State.ownClaim (s : State) : Nat := claimValue s.lnkPrio s.part.uid

/-- JOINING on a beacon (R380). -/
def State.startJoin (s : State) (b : Beacon) : State :=
  let s1 := ({ s with lnk := { s.lnk.dropFrames with bc := b.bc, count := b.members } } : State).setLead b.leadId
  (s1.lnkGo .joining).sendJoin

/-- A member's own lead beacon: what it shows, the grants, and the slot when this node holds it (R396, R402). -/
def State.memberBeacon (s : State) (b : Beacon) : State :=
  let missed := (b.bc - s.lnk.bc).toNat
  let s1 := s.bump Reg.lnkBeaconMiss (if missed == 0 then 0 else missed - 1)
  let s2 : State := { s1 with lnk := { s1.lnk with bc := b.bc, count := b.members, holder := if b.holder == 0xFF then none else some b.holder } }
  let s3 := s2.applyGrants b.grants
  if b.holder == s.lnk.short then s3.slotHere else s3

/-- R380, R396, R402; and a lead that hears a lower claim value resigns. -/
def execBeaconReceived (b : Beacon) (s : State) : Out :=
  .next (if !s.lnkUp then s
    else
      let s0 := s.lnkHear
      match s.lnk.state with
      | .listen => s0.startJoin b
      | .claiming => if s.lnk.air.isSome then s0 else s0.startJoin b
      | .joining => ({ s0 with lnk := { s0.lnk with bc := b.bc, count := b.members } } : State).setLead b.leadId
      | .member => if b.leadId == s.lnk.lead then s0.memberBeacon b else s0
      | .lead => if b.leadId != s.part.uid && claimValue b.prio b.leadId < s.ownClaim then s0.toListen.post 365 else s0
      | .off => s0)

/-- R378: a member's report, in the beacon period of its short address. -/
def execStatusSend (s : State) : Out :=
  .next (if !(s.lnkUp && s.lnk.state == .member && s.lnk.bc.toNat % 8 == s.lnk.short / 4) then s
    else
      let s1 := s.lnkFresh.report
      s1.lnkSend 0x5 0 (leBytes 1 s1.statusFlags ++ leBytes 1 s1.lnk.offer ++ leBytes 1 s1.lnk.demand ++ leBytes 1 s1.socByte
        ++ leBytes 2 (s1.reg Reg.chgReserveMin) ++ [s1.lnk.bc, 0]))

/-- R385: the lead records a report. -/
def execStatusReceived (src : Nat) (st : LinkStatus) (s : State) : Out :=
  .next (if !(s.lnkUp && s.lnk.state == .lead) then s
    else
      let s0 := s.lnkHear
      let f := fun m : Member => if m.short == src then
        { m with flags := st.flags, offer := st.offer, demand := st.demand, soc := st.soc.toNat, reserve := st.reserve.toNat, rounds := 0, heard := true } else m
      { s0 with lnk := { s0.lnk with members := s0.lnk.members.map f } })

/-! Election. -/

/-- The listening of a node in LISTEN starts again, at 300 ms (R380). -/
def State.listenAgain (s : State) : State := { s with lnk := { s.lnk with listenMs := 300 } }

/-- R380, R382, R384: `ms` without a beacon or a claim. A CLAIM frame met behind its sync counts as heard; a beacon's sync is
waited for. -/
def execListenTimeout (rx : RxNow) (ms : Nat) (s : State) : Out :=
  .next (if !(s.lnkUp && s.lnk.state == .listen && decide (s.lnk.listenMs ≤ ms)) then s
    else if !s.leadAllow then s.lnkFresh.toListen
    else match rx with
      | .nothing | .claimSync => s.lnkFresh.lnkGo .claiming
      | .claimLater => s.lnkFresh.listenAgain
      | .beaconSync => s.lnkFresh)

/-- R381, R382: the CLAIM frame. -/
def execClaimStart (freeUs : Nat) (aligned : Bool) (s : State) : Out :=
  .next (if !(s.lnkUp && s.lnk.state == .claiming && s.lnk.air.isNone && (aligned || decide (200 ≤ freeUs))) then s
    else
      let f : Frame := ⟨0x2, false, false, s.lnk.seq, 0xFE, 0xFF, some (s.lnkPrio, s.part.uid), s.idBytes ++ leBytes 1 s.lnkPrio ++ [0]⟩
      { s with lnk := { s.lnk with sent := [f], air := some (f, 0), seq := (s.lnk.seq + 1) % 4 } })

/-- R380, R384: listening restarts at 300 ms. -/
def execClaimHeard (s : State) : Out := .next (if s.lnkUp && s.lnk.state == .listen then s.lnkHear.listenAgain else s)

/-- R383: claim bit n, the first sent being the highest, is one this node sends as 1. -/
def execClaimWithdraw (bitNo : Nat) (carrier : Bool) (s : State) : Out :=
  .next (if s.lnkUp && s.lnk.state == .claiming && s.lnk.air.isSome && carrier && decide (bitNo < 52) && bit s.ownClaim (51 - bitNo) then
      s.lnkFresh.listenFor 300
    else s)

/-- A node that waits for a slot and has become lead grants its own (R275, R400; 07, When things coincide). -/
def State.ownSlot (s : State) : State :=
  match s.emg.due with
  | some d =>
    if s.emg.waitSlot then ({ s with lnk := { s.lnk with slots := s.lnk.slots ++ [⟨s.lnk.short, d.kind, s.testSecs d.kind⟩] } } : State).serveSlot
    else s
  | none => s

/-- R380: the claimant leads, at short address 0. -/
def execClaimEnd (s : State) : Out :=
  .next (if s.lnkUp && s.lnk.state == .claiming && s.lnk.air.isSome then
      let s1 := s.lnkFresh
      let l := { s1.lnk.dropFrames with short := 0, members := [], grants := [], count := 0, slots := [] }
      ((({ s1 with lnk := l } : State).setLead s.part.uid).lnkGo .lead).ownSlot
    else s)

/-- The lowest free short address of 1 to 31 (R385). -/
def Lnk.freeShort (l : Lnk) : Option Nat := ((List.range 31).map (· + 1)).find? fun a => !l.members.any (·.short == a)

/-- JOIN_ACK for a node (10, Frame types). -/
def State.joinAck (s : State) (id : BitVec 48) (a : Nat) : State := s.lnkQueue 0x4 0xFE false false (leBytes 6 id.toNat ++ leBytes 1 a)

/-- R376, R385: a node that has an address keeps it. -/
def execJoinReceived (id : BitVec 48) (prio seqNo : Nat) (s : State) : Out :=
  .next (if !(s.lnkUp && s.lnk.state == .lead) then s
    else
      s.lnkHear.ackOnce 0xFE seqNo (ackKey 0x3 (leBytes 6 id.toNat ++ leBytes 1 prio)) fun t =>
        match t.lnk.members.find? (·.id == id), t.lnk.freeShort with
        | some m, _ => t.joinAck id m.short
        | none, some a =>
          let m : Member := ⟨a, id, prio, 0, 0, 0, 0xFF, 0xFFFF, 0, true⟩
          (({ t with lnk := { t.lnk with members := t.lnk.members ++ [m] } } : State).joinAck id a).post 363
        | none, none => t.joinAck id 0xFE)

/-- R380, R403. -/
def execJoinAckReceived (id : BitVec 48) (short : Nat) (s : State) : Out :=
  .next (if !(s.lnkUp && s.lnk.state == .joining && id == s.part.uid) then s
    else
      let s0 := s.lnkHear
      if short == 0xFE then ({ s0 with lnk := { s0.lnk with refused := true } } : State).post 356
      else (({ s0 with lnk := { s0.lnk.dropFrames with short := short, refused := false, last := [] } } : State).lnkGo .member).askAgain)

/-- R380: 300 ms without JOIN_ACK, 10 s after a refusal. -/
def execJoinRetry (ms : Nat) (s : State) : Out :=
  .next (if s.lnkUp && s.lnk.state == .joining && decide ((if s.lnk.refused then 10000 else 300) ≤ ms) then
      let s1 := s.lnkFresh
      ({ s1 with lnk := { s1.lnk.dropFrames with refused := false } } : State).sendJoin
    else s)

/-- R397: 300 ms without a beacon. -/
def execBeaconGrantLoss (ms : Nat) (s : State) : Out :=
  .next (if s.lnkUp && s.lnk.state != .lead && decide (300 ≤ ms) then s.lnkFresh.endGrant else s)

/-- R380: 500 ms without a beacon. -/
def execBeaconLost (ms : Nat) (s : State) : Out :=
  .next (if s.lnkUp && s.lnk.state == .member && decide (500 ≤ ms) then
      (((s.lnkFresh.bump Reg.lnkBeaconMiss (ms / 100)).endGrant).toListen).post 355
    else s)

/-- R385, R386. -/
def execLeaveReceived (src : Nat) (lead : Bool) (s : State) : Out :=
  .next (if !s.lnkUp then s
    else match s.lnk.state with
      | .lead => s.lnkHear.freeMember src
      | .member => if lead then s.lnkHear.toListen.post 355 else s.lnkHear
      | _ => s.lnkHear)

/-! Test slots. -/

/-- R400. -/
def execTestReqReceived (src : Nat) (kind : TestKind) (secs seqNo : Nat) (s : State) : Out :=
  .next (if !(s.lnkUp && s.lnk.state == .lead) then s
    else s.lnkHear.ackOnce src seqNo (ackKey 0x6 (leBytes 1 (testCode kind) ++ leBytes 4 secs)) fun t =>
      ({ t with lnk := { t.lnk with slots := t.lnk.slots ++ [⟨src, kind, secs⟩] } } : State).serveSlot)

/-- R275, R402. -/
def execTestGrantReceived (kind : TestKind) (seqNo : Nat) (s : State) : Out :=
  .next (if s.lnkUp && s.lnk.state == .member then s.lnkHear.ackOnce 0 seqNo (ackKey 0x7 (leBytes 1 (testCode kind))) State.slotHere else s)

/-- R401. -/
def execTestEndReceived (src : Nat) (outcome : Byte) (seqNo : Nat) (s : State) : Out :=
  .next (if !(s.lnkUp && s.lnk.state == .lead) then s
    else s.lnkHear.ackOnce src seqNo (ackKey 0x8 [outcome]) fun t => if t.lnk.holder == some src then t.freeSlot.serveSlot else t)

/-- R401: the requested length x 1.01 + 60 s. -/
def execSlotTimeout (secs : Nat) (s : State) : Out :=
  .next (if s.lnkUp && s.lnk.state == .lead && s.lnk.holder.isSome && decide (s.lnk.slotSecs * 101 + 6000 ≤ secs * 100) then
      s.lnkFresh.freeSlot.serveSlot
    else s)

/-! Doorbells and data. -/

/-- Continuation entries for a payload of n bytes. -/
def contCount (n : Nat) : Nat := if n ≤ 12 then 0 else (n + 3) / 16

/-- A frame as ring entries (R389): the first byte, the type, the flags, the payload. -/
def linkEntries (b0 typ flags : Nat) (payload : List Byte) : List (List Byte) :=
  (leBytes 1 b0 ++ leBytes 1 payload.length ++ leBytes 1 typ ++ leBytes 1 flags ++ padTo 12 (payload.take 12))
    :: (List.range (contCount payload.length)).map fun k => padTo 16 (slice payload (16 * k + 12) 16)

/-- The header bytes of a received agent frame. -/
def rxHeader (f : AgentFrame) (typ own : Nat) : List Byte :=
  leBytes 1 (typ + 16 * b2n f.ackReq + 32 * b2n f.prio + 64 * f.seqNo) ++ leBytes 1 f.src ++ leBytes 1 (if f.broadcast then 0xFF else own)
    ++ leBytes 1 f.payload.length

/-- The frame joins those the Link buffer shows (R511), as many as their ring holds. -/
def State.keepRx (s : State) (ring : Nat) (bytes : List Byte) : State :=
  let n := (s.fab.ring ring).items.length
  let f := fun fs : List (List Byte) => let all := fs ++ [bytes]; all.drop (all.length - n)
  { s with lnk := { s.lnk with rx := if ring == 20 then { s.lnk.rx with p1 := f s.lnk.rx.p1 } else { s.lnk.rx with p2 := f s.lnk.rx.p2 } } }

/-- A frame is written whole into its ring, then posted; without room it is dropped (R390). -/
def State.linkStore (s : State) (f : AgentFrame) (typ ring : Nat) (payload : List Byte) : State × Bool :=
  let es := linkEntries f.src typ (b2n f.broadcast + 2 * b2n f.prio) payload
  let fits := s.ringFits ring es.length
  let s1 := s.ringWrite ring es
  (if fits then (s1.keepRx ring (rxHeader f typ s.lnk.short ++ f.payload)).post (if ring == 20 then 357 else 358) else s1, fits)

/-- The frame asks this node for an ACK: unicast, with the ACK request (R376). -/
def asksAck (f : AgentFrame) : Bool := f.ackReq && !f.broadcast

/-- The frame is no repeat of the one its sender sent last with an ACK request (R376). -/
def State.freshFrame (s : State) (f : AgentFrame) (typ : Nat) : Bool := !(asksAck f && s.isRepeat f.src f.seqNo (ackKey typ f.payload))

/-- Delivery of an agent frame, once; what was not taken is not acknowledged (R376, R390). -/
def State.linkTake (s : State) (f : AgentFrame) (typ : Nat) (deliver : State → State × Bool) : State :=
  let key := ackKey typ f.payload
  if !s.freshFrame f typ then s.sendAck f.src f.seqNo
  else match deliver s with
    | (s1, true) => if asksAck f then (s1.sendAck f.src f.seqNo).noteFrame f.src f.seqNo key else s1
    | (s1, false) => s1

/-- Bit d of DB_ALLOW is 1; it has no bit for a number above 31 (R391, R459). -/
def State.dbAllowed (s : State) (d : Nat) : Bool := decide (d < 32) && bit (s.reg (Reg.sysDballow + d / 16)) (d % 16)

/-- The frame is for this node: broadcast, or unicast to the short address it has. -/
def State.hears (s : State) (f : AgentFrame) : Bool := s.lnkUp && (s.lnk.joined || f.broadcast)

/-- R391: what follows d goes to ring 22 first; d posts when DB_ALLOW admits it. -/
def execDoorbellReceived (f : AgentFrame) (s : State) : Out :=
  .next (if !s.hears f then s
    else s.lnkHear.linkTake f 0x9 fun t =>
      let d := (f.payload.headD 0).toNat
      let rest := f.payload.drop 1
      if !t.dbAllowed d then ((t.bump Reg.lnkDbDenied 1).post 361, true)
      else if rest.isEmpty then (t.postAs d 5, true)
      else match t.linkStore f 0x9 22 rest with
        | (t1, true) => (t1.postAs d 5, true)
        | (t1, false) => (t1, false))

/-- R390. -/
def execDataReceived (f : AgentFrame) (s : State) : Out :=
  .next (if !s.hears f then s
    else s.lnkHear.linkTake f 0xA fun t => t.linkStore f 0xA (if f.prio then 22 else 20) f.payload)

/-! Transmission. -/

/-- A transmission completes with LNK_TX_STAT v: LNK_TX_DONE, or LNK_TX_FAIL for no ACK (R377, R392). -/
def State.txDone (s : State) (v : Nat) : State := (s.setReg Reg.lnkTxStat v).post (if v == 2 then 360 else 359)

/-- R377. -/
def execAckReceived (seqNo : Nat) (s : State) : Out :=
  .next (match s.lnk.air with
    | some (f, _) =>
      if s.lnkUp && f.ack && f.seq == seqNo then (({ s.lnkHear with lnk := { s.lnkHear.lnk with air := none } } : State).txDone 1) else s
    | none => s)

/-- R377: the tries of the frame in the air; past the retries it is lost. -/
def execAckTimeout (us : Nat) (s : State) : Out :=
  .next (match s.lnk.air with
    | some (f, n) =>
      if !(s.lnkUp && f.ack && decide (300 ≤ us)) then s
      else if n < s.lnkRetries then { s.lnkFresh with lnk := { s.lnkFresh.lnk with air := some (f, n + 1) } }
      else (({ s.lnkFresh with lnk := { s.lnkFresh.lnk with air := none } } : State).bump Reg.lnkNoack 1).txDone 2
    | none => s)

/-- The header bytes TYPE, SRC, DST and LEN (R375). -/
def Frame.header (f : Frame) : List Byte :=
  leBytes 1 (f.typ + 16 * b2n f.ack + 32 * b2n f.prio + 64 * f.seq) ++ leBytes 1 f.src ++ leBytes 1 f.dst ++ leBytes 1 f.payload.length

/-- The CRC over header and payload, high byte first (R375). -/
def Frame.crc (f : Frame) : List Byte := (leBytes 2 (algCcitt.value (f.header ++ f.payload))).reverse

/-- The bits of a number, highest first, and of bytes, each LSB first. -/
def bitsHigh (n x : Nat) : List Bool := ((List.range n).map (bit x)).reverse
def bitsOnBus (bs : List Byte) : List Bool := bs.flatMap fun b => (List.range 8).map (bit b.toNat)

/-- A frame bit by bit in the order of R375: preamble, sync, claim field and re-preamble of a CLAIM, header, payload, CRC. The
sync word goes highest bit first, as the claim field does (log 86). -/
def Frame.onBus (f : Frame) : List Bool :=
  List.replicate 16 false ++ bitsHigh 16 (if f.claim.isSome then 0x5E1B else 0xA7C3)
    ++ (match f.claim with | some (prio, id) => bitsHigh 52 (claimValue prio id) ++ List.replicate 8 false | none => [])
    ++ bitsOnBus (f.header ++ f.payload ++ f.crc)

/-- The bus time of a frame in us, its ACK included (R375, R376). -/
def Frame.airUs (f : Frame) : Nat := 800 + 80 * f.payload.length + (if f.ack then 1000 else 0)

/-- The frame gains the open window: free for 100 us and its least backoff, and it ends in time (R379). -/
def Frame.gains (f : Frame) (freeUs leftUs : Nat) : Bool := decide ((if f.prio then 100 else 900) ≤ freeUs) && decide (f.airUs ≤ leftUs)

/-- A frame goes on the bus; one that asks no ACK is then complete. -/
def State.putFrame (s : State) (f : Frame) (tries : Nat) : State :=
  let s1 : State := { s with lnk := { s.lnk with sent := [f], air := if f.ack then some (f, tries) else none } }
  if f.ack then s1 else s1.txDone 1

/-- The agent frame at the head of ring 21 or 23, when it is there whole: its entries' count and bytes (R389, R498). -/
def State.headFrame (s : State) (k : Nat) : Option (Nat × List Byte) :=
  let r := s.fab.ring k
  if r.count == 0 then none
  else
    let e := s.fab.getWord (r.word 0)
    let n := if s.fab.bad.contains (r.word 0) then 1 else 1 + contCount (leNat (slice e 1 1))
    if n ≤ r.count then some (n, (List.range n).flatMap fun i => s.fab.getWord (r.word i)) else none

/-- The first n entries leave ring k. -/
def State.dropEntries (s : State) (k n : Nat) : State := { s with fab := s.fab.setRing k ((s.fab.ring k).advance n) }

/-- The uncorrectable words among the first n entries of ring k. -/
def State.badEntries (s : State) (k n : Nat) : List Nat := ((List.range n).map (s.fab.ring k).word).filter s.fab.bad.contains

/-- The agent frame that ring entries spell. -/
def State.agentFrame (s : State) (bs : List Byte) (prio : Bool) : Frame :=
  let dst := leNat (slice bs 0 1)
  ⟨if leNat (slice bs 2 1) % 16 == 9 then 9 else 0xA, dst != 0xFF, prio, s.lnk.seq, s.lnk.src, dst, none, slice bs 4 (leNat (slice bs 1 1))⟩

/-- The frame at the head of ring k: uncorrectable, too long, not joined, or sent (R379, R392, R507). -/
def State.sendRing (s : State) (k freeUs leftUs : Nat) : State :=
  match s.headFrame k with
  | none => s
  | some (n, bs) =>
    let f := s.agentFrame bs (k == 23)
    let bad := s.badEntries k n
    if !bad.isEmpty then
      let s1 := s.dropEntries k n
      ({ s1 with fab := s1.fab.setRing k { s1.fab.ring k with drops := satAdd 65535 (s1.fab.ring k).drops 1 } } : State).eccFoundAll (bad.take 1)
    else if 128 < leNat (slice bs 1 1) then (s.dropEntries k n).txDone 4
    else if !s.lnk.joined then (s.dropEntries k n).txDone 3
    else if f.gains freeUs leftUs then
      let s1 := s.dropEntries k n
      ({ s1 with lnk := { s1.lnk with seq := (s1.lnk.seq + 1) % 4 } } : State).putFrame f 0
    else s

/-- R374, R377, R379: the frame in the air again, or the next: the node's own, then ring 23, then ring 21. -/
def execFrameTransmit (freeUs leftUs : Nat) (s : State) : Out :=
  .next (if !(s.active && s.part.variant.hasLink) then s
    else
      let s0 := s.lnkFresh
      match s0.lnk.air, s0.lnk.txq with
      | some (f, n), _ => if f.ack && f.gains freeUs leftUs then s0.putFrame f n else s0
      | none, f :: rest =>
        if s0.lnkUp && f.gains freeUs leftUs then ({ s0 with lnk := { s0.lnk with txq := rest } } : State).putFrame f 0 else s0
      | none, [] => if (s0.headFrame 23).isSome then s0.sendRing 23 freeUs leftUs else s0.sendRing 21 freeUs leftUs)

/-- R387, R388. -/
def execCapture (riseHalfDb : Nat) (preamble claimField : Bool) (s : State) : Out :=
  .next (if s.lnkUp && decide (12 ≤ riseHalfDb) && preamble && !claimField then
      ({ (s.lnkFresh.bump Reg.lnkCaptured 1) with lnk := { s.lnkFresh.lnk with capRecent := true } } : State).postIf (!s.lnk.capRecent) 362
    else s)

/-- R375, R404. -/
def execCrcErrorFrame (s : State) : Out := .next (if s.lnkUp then s.lnkFresh.bump Reg.lnkCrcErr 1 else s)

/-- `LNK_DB_SEND` is written (R391, R392). -/
def State.dbSend (s : State) (dst d : Nat) : State :=
  if !s.part.variant.hasLink then s
  else if !s.lnk.joined then s.txDone 3
  else s.lnkQueue 0x9 dst (dst != 0xFF) false [BitVec.ofNat 8 d]

def execLnkDbSend (_a : Agent) (dst : Byte) (d : BitVec 5) (s : State) : Out := .next (if s.active then s.lnkFresh.dbSend dst.toNat d.toNat else s)

/-- The Link goes OFF: grants end, membership and waiting frames are gone (R380, R397). -/
def State.linkOff (s : State) : State :=
  let s1 := s.endGrant
  (({ s1 with lnk := { Lnk.init with state := s1.lnk.state, lead := s1.lnk.lead, bc := s1.lnk.bc, rx := s1.lnk.rx, seq := s1.lnk.seq,
                                     sent := s1.lnk.sent } } : State).lnkGo .off)

/-- `LNK_CFG.EN` is written 0. -/
def execLnkDisable (s : State) : Out :=
  .next (if s.active && s.part.variant.hasLink then (s.lnkFresh.setFlag Reg.lnkCfg 0 false).linkOff else s)

end Sys2Proof.Machine
end

