-- ==== Sys2Proof/Machine/Power.lean ====
section
/-! DEFINITION. The requests of SYS_POWER and the entries into SHIP and DORMANT (03). -/

namespace Sys2Proof.Machine

/-- `SYS_POWER.STATUS`. -/
def State.powerStatus (s : State) (v : Nat) : State := s.setFld Reg.sysPower 12 4 v

/-- What goes into the store before SHIP and DORMANT: the interval's summary, the JOURNAL page and a seal (R549, R552,
R554, R577). -/
def State.closeLogs (s : State) : State :=
  let s1 := s.histEnd.sealNow
  s1.historyFlush (s1.tkr.hbuf.length + 1)

/-- 0xA5 written (R73, R74, R76, R386). A shutdown already under way goes on to its end. -/
def execEnterShip (s : State) : Out :=
  .next (if !s.active then s
    else if s.anyValid then s.powerStatus 2
    else if s.emg.emergency || s.testing || s.life.shipReq != .none then s.powerStatus 3
    else if s.seq.state == .stuck then s.powerStatus 4
    else
      let s1 : State := { s.powerStatus 1 with life := { s.life with shipReq := .agent }, lnk := { s.lnk with sent := [] } }
      let s2 := s1.sendLeave
      if s.seq.state == .down then s2 else s2.startShutdown 2 false)

/-- Every rail is down and discharged, and nothing moves; the SNS of a rail that is not enabled is not watched (R295). -/
def State.railsDown (s : State) : Bool := s.seq.state == .off && !s.seq.en.toList.any id && s.allDischarged

/-- SHIP: the Keeper alone has power. DESIGN CHOICE (log 30): R73 refuses SHIP at the request only, and does not say what an
input that becomes valid between the request and this entry does; the model enters SHIP all the same and forgets the input's
validity, so that it must qualify again to wake the part. -/
def State.intoShip (s : State) : State :=
  let s1 := s.digitalDown
  let port : PortSt → PortSt := fun c => { PortSt.init with roleIn := c.roleIn, cfgIn := c.cfgIn }
  { s1 with
    mode := .ship,
    pp := { PowerPath.init with held := s1.pp.held, poe := s1.pp.poe, vbat := s1.pp.vbat },
    cnv := Cnv.init,
    chg := { s1.chg with st := .idle, float := false, halfRate := false, limited := false, boardHot := false, ntcFault := false },
    seq := { s1.seq with
             en := Eight.all false, armedHi := Eight.all false, armedLo := Eight.all false, keeperFault := none, disch := Eight.all false,
             sns := Eight.all none },
    pdp := ⟨port s1.pdp.p1, port s1.pdp.p2⟩,
    lnk := { s1.lnk with sent := s.lnk.sent },
    life := { s1.life with causes := 0, wakeFailed := false, attempts := 0, waiting := false, booted := false, defaults := false, pulse := false } }

/-- R72, R73: the battery FET opens; the part's own request of R262 has its LEAVE here. -/
def execShipEntry (s : State) : Out :=
  .next (if s.active && s.life.shipReq != .none && s.railsDown then
      let s1 := if s.life.shipReq == .own then ({ s with lnk := { s.lnk with sent := [] } } : State).sendLeave else s
      s1.closeLogs.intoShip
    else s)

/-- What refuses DORMANT (R75). -/
def State.dormantBlocked (s : State) : Bool :=
  s.pdp.p1.role != .none || s.pdp.p2.role != .none || s.emg.emergency || s.testing || s.seq.state.moving || s.tkr.session.isSome || s.cnv.rev
    || s.life.shipReq != .none

/-- 0xD3 written (R75, R94, R95, R386): the power path keeps its setpoints, charging goes on. -/
def execEnterDormant (s : State) : Out :=
  .next (if !s.active then s
    else if s.dormantBlocked then s.powerStatus 3
    else
      let s1 := (({ s.powerStatus 1 with lnk := { s.lnk with sent := [] } } : State).sendLeave).closeLogs
      let s2 := s1.digitalDown
      { s2 with mode := .dormant, lnk := { s2.lnk with sent := s1.lnk.sent } })

/-- R113. -/
def execSysPowerBadKey (v : Byte) (s : State) : Out :=
  .next (if s.active && v != 0xA5 && v != 0xD3 then s.powerStatus 5 else s)

end Sys2Proof.Machine
end

