-- ==== Sys2Proof/Machine/TackRoom.lean ====
section
/-! DEFINITION. The meanings of the commands of the Tack Room: requests and replies, sessions, the JOURNAL and HISTORY pages,
scrub and wear (14). -/

namespace Sys2Proof.Machine

/-! Requests and replies (R536 to R539). -/

/-! STATUS of a reply. -/
namespace Rep
abbrev ok : Nat := 0
abbrev denied : Nat := 2
abbrev badLength : Nat := 5
abbrev badArg : Nat := 6
abbrev busy : Nat := 8
abbrev ecc : Nat := 9
abbrev badRecord : Nat := 10
abbrev hash : Nat := 11
abbrev noSession : Nat := 12
abbrev writeFail : Nat := 13
abbrev order : Nat := 14
end Rep

/-- What a request ends with: STATUS, the operation's address and value, the data entries. -/
structure Answered where
  status : Nat
  addr : Nat
  value : Nat
  data : List (List Byte)
deriving DecidableEq, Repr

/-- The reply item (14, Reply first entry); a request of one byte has TAG 0. -/
def Req.item (r : Req) (x : Answered) : ReplyItem :=
  ⟨(leBytes 1 (r.bytes.headD 0).toNat ++ leBytes 1 (r.bytes.getD 1 0).toNat ++ leBytes 1 x.status ++ leBytes 1 x.data.length
    ++ leBytes 4 x.addr ++ leBytes 4 x.value ++ [0, 0, 0, 0]) :: x.data⟩

/-- The request of agent a ends: its reply enters the reply ring, or waits for room (R539). -/
def State.reply (s : State) (a : Agent) (r : Req) (x : Answered) : State :=
  let it := r.item x
  let ring := 2 * a.val + 1
  let fits := (s.tkr.replies.get a).isEmpty && s.ringFits ring it.entries.length
  let s1 : State := { s with tkr := { s.tkr with run := s.tkr.run.set a none } }
  if fits then s1.ringWrite ring it.entries
  else
    let s2 := if s.ringFits ring it.entries.length then s1 else s1.ringWrite ring it.entries
    { s2 with tkr := { s2.tkr with replies := s2.tkr.replies.set a (s2.tkr.replies.get a ++ [it]) } }

/-- R539. -/
def execReplyDelivered (a : Agent) (s : State) : Out :=
  .next (match s.tkr.replies.get a with
    | [] => s
    | it :: rest =>
      if s.active && s.ringFits (2 * a.val + 1) it.entries.length then
        ({ s with tkr := { s.tkr with replies := s.tkr.replies.set a rest } } : State).ringWrite (2 * a.val + 1) it.entries
      else s)

/-- OP and argument bytes. -/
def Req.op (r : Req) : Nat := (r.bytes.headD 0).toNat
def Req.arg (r : Req) : List Byte := r.bytes.drop 2

/-- Argument length and the rights an operation needs on bank 0x0A: 1 read, 2 read-write (14, Operations). -/
def opSpec : Nat → Option (Nat × Nat)
  | 0x01 => some (9, 1)
  | 0x02 => some (1, 1)
  | 0x10 => some (4, 2)
  | 0x20 => some (20, 2)
  | 0x21 => some (0, 2)
  | 0x30 => some (2, 2)
  | 0x31 => some (8, 2)
  | 0x32 => some (37, 2)
  | 0x33 => some (0, 2)
  | _ => none

/-- Bytes [d, d + n) of ring SRAM overlap an allocated ring (R643). -/
def State.sramTaken (s : State) (d n : Nat) : Bool :=
  (List.range 256).any fun j =>
    let r := s.fab.ring j
    !absentRing s.part.variant j && r.size != 0 && decide (d < (r.base * 16 + r.cap) * 16 ∧ r.base * 256 < d + n)

/-- The arguments lie in their ranges (R536, R643). -/
def State.argsOk (s : State) (r : Req) : Bool :=
  let g := r.arg
  match r.op with
  | 0x01 =>
    let addr := leNat (slice g 0 4)
    let n := leNat (slice g 4 1)
    let dest := leNat (slice g 5 4)
    addr % 256 == 0 && decide (1 ≤ n ∧ n ≤ 4) && decide (addr + 256 * n ≤ 0x4000000)
      && (dest == 0xFFFFFFFF || (dest % 16 == 0 && decide (dest + 256 * n ≤ 0x100000) && !s.sramTaken dest (256 * n)))
  | 0x02 => decide (1 ≤ leNat g ∧ leNat g ≤ 3)
  | 0x10 => decide (leNat g + 256 ≤ 0x100000)
  | 0x30 => decide (leNat (slice g 0 1) ≤ 2 ∧ leNat (slice g 1 1) ≤ 1)
  | 0x31 =>
    let n := leNat (slice g 3 1)
    decide (1 ≤ n ∧ n ≤ 16) && decide (leNat (slice g 4 4) + 256 * n ≤ 0x100000)
  | _ => true

/-- Address of an operation whose arguments are refused: a READ's own, a STAGE's slot. -/
def Req.place (r : Req) : Nat :=
  match r.op with
  | 0x01 => leNat (slice r.arg 0 4)
  | 0x10 => 34 * 65536
  | _ => 0

/-- A request that starts is checked, in the order of R536; one that passes runs and is granted its planes. -/
def State.startRequest (s : State) (a : Agent) (r : Req) : State :=
  let s1 : State := { s with tkr := { s.tkr with queue := s.tkr.queue.set a ((s.tkr.queue.get a).drop 1), run := s.tkr.run.set a (some r) } }
  match opSpec r.op with
  | none => s1.reply a r ⟨Rep.badArg, 0, 0, []⟩
  | some (len, right) =>
    if !(if right == 2 then s.canWrite a 0x0A else s.canRead a 0x0A) then s1.reply a r ⟨Rep.denied, 0, 0, []⟩
    else if r.bytes.length != len + 2 then s1.reply a r ⟨Rep.badLength, 0, 0, []⟩
    else if !s.argsOk r then s1.reply a r ⟨Rep.badArg, r.place, 0, []⟩
    else s1.grantPlanes a (s.tkr.planes r)

/-- The agent's next request starts unless a floor of the background work keeps it from one of its planes (R26, R31, R500, R538). -/
def execTkrRequestStart (a : Agent) (s : State) : Out :=
  .next (match s.nextRequest a with
    | some r => if s.active && fin4.all (fun p => !(s.tkr.planes r).contains p.val || s.planeFree p) then s.startRequest a r else s
    | none => s)

/-- The request of agent a that runs, when it is operation op. -/
def State.running (s : State) (a : Agent) (op : Nat) : Option Req :=
  match s.tkr.run.get a with
  | some r => if s.active && r.op == op then some r else none
  | none => none

/-- A command that ends agent a's request of operation op. -/
def State.runOp (s : State) (a : Agent) (op : Nat) (f : Req → State × Answered) : State :=
  match s.running a op with
  | none => s
  | some r => let x := f r; x.1.reply a r x.2

/-! Reading pages. -/

/-- A read found a page of block b with corrected bits: 4 or more mark it for a refresh, more than 5 for retirement (R556, R557). -/
def State.noteFlips (s : State) (b flips : Nat) : State :=
  { s with tkr := { s.tkr with weak := if 4 ≤ flips && !s.tkr.weak.contains b then s.tkr.weak ++ [b] else s.tkr.weak,
                               worn := if 6 ≤ flips && !s.tkr.worn.contains b then s.tkr.worn ++ [b] else s.tkr.worn } }

/-- A page read that finds `flips` wrong bits: corrected up to 8; beyond that the page is uncorrectable (R540, R558). -/
def State.readPage (s : State) (pg flips : Nat) : State × List Byte × Bool :=
  let raw := fun t : State => (t.nextFree, (List.range 256).map fun o => Config.rawByte (pg * 256 + o) t.free, false)
  if s.tkr.isBad pg then raw s
  else if !s.tkr.programmed pg || flips == 0 then (s, s.page pg, true)
  else if flips ≤ 8 then ((s.bump Reg.tkrEccCorr 1).noteFlips (pg / 256) flips, s.page pg, true)
  else
    let s1 := ({ s with tkr := { s.tkr with bad := s.tkr.bad ++ [pg] } } : State).journal 0x0041 (leBytes 4 (pg * 256))
    raw (((s1.bump Reg.tkrEccUncorr 1).setReg32 Reg.tkrUncorrAddr (pg * 256)).post 458)

/-- n pages from pg on, with the wrong bits of each. -/
def State.readPages (s : State) (pg : Nat) (flips : List Nat) : Nat → State × List Byte × Bool
  | 0 => (s, [], true)
  | n + 1 =>
    let (s1, d, ok) := s.readPage pg (flips.headD 0)
    let (s2, ds, oks) := s1.readPages (pg + 1) (flips.drop 1) n
    (s2, d ++ ds, ok && oks)

/-- Bytes as entries of sixteen. -/
def entriesOf (n : Nat) (bs : List Byte) : List (List Byte) := (List.range n).map fun i => slice bs (16 * i) 16

/-- Whole words stored in ring SRAM from byte address d. -/
def State.putSram (s : State) (d : Nat) (es : List (List Byte)) : State :=
  { s with fab := (es.zipIdx).foldl (fun f e => f.putWord (d / 16 + e.2) e.1) s.fab }

/-- n bytes of ring SRAM from byte d, none where a word is uncorrectable. -/
def State.getSram (s : State) (d n : Nat) : Option (List Byte) :=
  if s.fab.bad.any fun w => d / 16 ≤ w && 16 * w < d + n then none else some (Memory.read sramDefault s.fab.sram d n)

/-- READ (R540, R643). -/
def execTkrRead (a : Agent) (flips : List Nat) (s : State) : Out :=
  .next (s.runOp a 0x01 fun r =>
    let addr := leNat (slice r.arg 0 4)
    let n := leNat (slice r.arg 4 1)
    let dest := leNat (slice r.arg 5 4)
    let (s1, d, ok) := s.readPages (addr / 256) flips n
    let es := entriesOf (16 * n) d
    let st := if ok then Rep.ok else Rep.ecc
    if dest == 0xFFFFFFFF then (s1, ⟨st, addr, n, es⟩) else (s1.putSram dest es, ⟨st, addr, n, []⟩))

/-- First page and page count of a log partition. -/
def logPart : Nat → Nat × Nat
  | 1 => (48 * 256, 32768)
  | 2 => (176 * 256, 8192)
  | _ => (208 * 256, 147456)

/-- Programmed pages of a log partition that read, in the order programmed. -/
def State.logPages (s : State) (part : Nat) : List Nat :=
  let (p, n) := logPart part
  s.tkr.prog.filter fun g => decide (p ≤ g ∧ g < p + n) && !s.tkr.isBad g

/-- Oldest and newest serial of a log partition. -/
def State.logSerials (s : State) (part : Nat) : Nat × Nat :=
  let ps := s.logPages part
  match part with
  | 1 =>
    let es := ps.filter fun p => (s.page p).take 4 != [0x53, 0x45, 0x41, 0x4C]
    (match es with | [] => 0 | p :: _ => leNat ((s.page p).take 4), if es.isEmpty then 0 else s.tkr.jserial)
  | 2 => (recSerial (s.page (ps.headD 0)), recSerial (s.page (ps.getLastD 0)))
  | _ => (leNat (slice (s.page (ps.headD 0)) 30 2), (s.tkr.hcount - s.tkr.hbuf.length) % 65536)

/-- INFO (R644); pages as store byte addresses. -/
def execTkrInfo (a : Agent) (s : State) : Out :=
  .next (s.runOp a 0x02 fun r =>
    let part := leNat r.arg
    let ps := s.logPages part
    let (lo, hi) := s.logSerials part
    let e := if ps.isEmpty then List.replicate 16 (0xFF : Byte)
      else leBytes 4 (ps.headD 0 * 256) ++ leBytes 4 (ps.getLastD 0 * 256) ++ leBytes 4 lo ++ leBytes 4 hi
    (s, ⟨Rep.ok, 0, 0, [e]⟩))

/-! Programming for agents (R541). -/

/-- STAGE (R544). -/
def execTkrStage (a : Agent) (verify : Bool) (s : State) : Out :=
  .next (s.runOp a 0x10 fun r =>
    match s.getSram (leNat r.arg) 256 with
    | none => (s, ⟨Rep.ecc, 34 * 65536, 0, []⟩)
    | some rec_ =>
      let s1 := s.eraseBlk 34
      if !verify then (s1.writeFail 34, ⟨Rep.writeFail, 34 * 65536, 0, []⟩)
      else
        let s2 := s1.program (34 * 256) rec_
        if stageOk s.part rec_ then (s2, ⟨Rep.ok, 34 * 65536, recVersion rec_, []⟩)
        else (s2.eraseBlk 34, ⟨Rep.badRecord, 34 * 65536, recVersion rec_, []⟩))

/-- Pages until the buffer is empty, and the seal that 256 entries bring (R549, R552). -/
def State.journalOut (s : State) : State :=
  let s1 := s.journalFlush (s.tkr.jbuf.length + 1)
  s1.when (256 ≤ s1.tkr.jsince) State.sealNow

/-- NOTE (R549): the reply carries its entry's SERIAL. -/
def execTkrNote (a : Agent) (s : State) : Out :=
  .next (s.runOp a 0x20 fun r =>
    ((s.journalAs 0x0080 (a.val + 1) r.arg).journalOut, ⟨Rep.ok, 0, s.tkr.jserial + s.tkr.jbuf.length + 1, []⟩))

/-- SEAL (R552). -/
def execTkrSeal (a : Agent) (s : State) : Out :=
  .next (s.runOp a 0x21 fun _ =>
    let s1 := s.sealNow
    (s1, ⟨Rep.ok, (48 * 256 + (s1.tkr.jhead + 32767) % 32768) * 256, s1.tkr.sealNo, []⟩))

/-! Sessions (R546 to R548). -/

/-- The bank a CONFIG session writes. -/
def State.spareBank (s : State) : Nat := if s.activeBank == some 35 then 36 else 35

/-- The session ends without a CLOSE that succeeded. -/
def State.sessionEnd (s : State) : State :=
  ({ s with tkr := { s.tkr with session := none } } : State).postIf s.tkr.session.isSome 463

def State.setImg (s : State) (slot : Nat) (v : Option Nat) : State :=
  { s with tkr := { s.tkr with img := if slot == 0 then { s.tkr.img with p1 := v } else { s.tkr.img with p2 := v } } }

/-- OPEN marks its target invalid: an IMAGES slot shows so, a bank is erased. -/
def execTkrOpen (a : Agent) (s : State) : Out :=
  .next (s.runOp a 0x30 fun r =>
    let kind := leNat (slice r.arg 0 1)
    let slot := leNat (slice r.arg 1 1)
    let blk := if kind == 2 then s.spareBank else if slot == 0 then 784 else 880
    if s.tkr.session.isSome then (s, ⟨Rep.busy, 0, 0, []⟩)
    else
      let s1 := if kind == 2 then s.eraseBlk blk else s.setImg slot none
      let e : Session := ⟨a, kind, slot, blk * 256, if kind == 2 then 255 else 24576, 0⟩
      ({ s1 with tkr := { s1.tkr with session := some e } }, ⟨Rep.ok, blk * 65536, 0, []⟩))

/-- Pages programmed from pg on, each block erased just before its first page (R547). -/
def State.writePages (s : State) (pg : Nat) (bs : List Byte) : Nat → State
  | 0 => s
  | n + 1 =>
    let s1 := if pg % 256 == 0 then s.eraseBlk (pg / 256) else s
    (s1.program pg (bs.take 256)).writePages (pg + 1) (bs.drop 256) n

/-- WRITE. -/
def execTkrWrite (a : Agent) (verify : Bool) (s : State) : Out :=
  .next (s.runOp a 0x31 fun r =>
    let i := leNat (slice r.arg 0 3)
    let n := leNat (slice r.arg 3 1)
    match s.tkr.session with
    | none => (s, ⟨Rep.noSession, 0, 0, []⟩)
    | some e =>
      let at_ := (e.base + i) * 256
      if e.agent != a then (s, ⟨Rep.busy, 0, 0, []⟩)
      else if i != e.next then (s, ⟨Rep.order, 0, 0, []⟩)
      else if e.pages < i + n then (s, ⟨Rep.badArg, at_, 0, []⟩)
      else match s.getSram (leNat (slice r.arg 4 4)) (256 * n) with
        | none => (s, ⟨Rep.ecc, at_, 0, []⟩)
        | some bs =>
          if !verify then (s.writeFail ((e.base + i) / 256), ⟨Rep.writeFail, at_, 0, []⟩)
          else
            let s1 := s.writePages (e.base + i) bs n
            ({ s1 with tkr := { s1.tkr with session := some { e with next := i + n } } }, ⟨Rep.ok, at_, n, []⟩))

/-- A CONFIG bank is activated (R543, R547). -/
def State.activateBank (s : State) (e : Session) : State × Answered :=
  let b := e.base / 256
  if (s.bankPairs b).isNone then (s, ⟨Rep.badRecord, b * 65536, 0, []⟩)
  else
    let s1 := s.activate b (if b == 35 then 36 else 35)
    let g := (s1.marker b).getD 0
    ((s1.journal 0x0003 (leBytes 1 2 ++ leBytes 4 g)).post 465, ⟨Rep.ok, b * 65536, g, []⟩)

/-- A patch in an IMAGES slot is checked, and with INSTALL copied and activated (R547). -/
def State.installPatch (s : State) (e : Session) (install : Bool) : State × Answered :=
  let v := s.patchVersion e.base
  let at_ := e.base * 256
  let below := match s.activePatch with | some b => decide (v < s.patchVersion (b * 256)) | none => false
  if !s.patchOk e.base then (s, ⟨Rep.badRecord, at_, 0, []⟩)
  else if !install then (s, ⟨Rep.ok, at_, v, []⟩)
  else if below then (s, ⟨Rep.badRecord, at_, v, []⟩)
  else
    let dst := if s.activePatch == some 0 then 16 else 0
    let n := 1 + (leNat (slice (s.page e.base) 8 4) + 255) / 256
    let s1 := (s.writePages (dst * 256) (s.storePages e.base n) n).activate dst (if dst == 0 then 16 else 0)
    ((s1.journal 0x0003 (leBytes 1 1 ++ leBytes 2 v)).post 465, ⟨Rep.ok, at_, v, []⟩)

/-- What CLOSE finds (R547, R548). -/
def State.closeSession (s : State) (r : Req) (e : Session) : State × Answered :=
  let len := leNat (slice r.arg 0 4)
  let at_ := e.base * 256
  let n := (len + 255) / 256
  if e.pages * 256 < len then (s, ⟨Rep.badArg, at_, 0, []⟩)
  else if s.tkr.bad.any fun p => decide (e.base ≤ p ∧ p < e.base + n) then (s, ⟨Rep.ecc, at_, 0, []⟩)
  else if sha256 ((s.storePages e.base n).take len) != slice r.arg 4 32 then (s, ⟨Rep.hash, at_, 0, []⟩)
  else match e.kind with
    | 2 => s.activateBank e
    | 1 => s.installPatch e (bit (leNat (slice r.arg 36 1)) 0)
    | _ => (s.setImg e.slot (some n), ⟨Rep.ok, at_, 0, []⟩)

/-- CLOSE ends the session whatever its STATUS (R548). -/
def execTkrClose (a : Agent) (s : State) : Out :=
  .next (s.runOp a 0x32 fun r =>
    match s.tkr.session with
    | none => (s, ⟨Rep.noSession, 0, 0, []⟩)
    | some e =>
      if e.agent != a then (s, ⟨Rep.busy, 0, 0, []⟩)
      else
        let (s1, x) := s.closeSession r e
        if x.status == Rep.ok then ({ s1 with tkr := { s1.tkr with session := none } }, x) else (s1.sessionEnd, x))

/-- ABORT. -/
def execTkrAbort (a : Agent) (s : State) : Out :=
  .next (s.runOp a 0x33 fun _ =>
    match s.tkr.session with
    | none => (s, ⟨Rep.noSession, 0, 0, []⟩)
    | some e => if e.agent != a then (s, ⟨Rep.busy, 0, 0, []⟩) else (s.sessionEnd, ⟨Rep.ok, 0, 0, []⟩))

/-- R548: 10 min without a session operation. -/
def execSessionTimeout (secs : Nat) (s : State) : Out := .next (if s.active && decide (600 ≤ secs) then s.sessionEnd else s)

/-! Pages, seals, scrub and wear. -/

/-- What the write head h of the log that starts at block `first` needs next: its block erased, or its page programmed (R551). -/
def Tkr.logOp (t : Tkr) (first h : Nat) : TkrOp :=
  if h % 256 == 0 && t.inUse (first + h / 256) then .erase (first + h / 256) else .program (first * 256 + h)

/-- R549, R552: eight entries, or 10 s since the page's first; store upkeep (R26, R27). -/
def execJournalPageProgram (secs : Nat) (s : State) : Out :=
  .next (if s.active && !s.tkr.jbuf.isEmpty && (decide (8 ≤ s.tkr.jbuf.length) || decide (10 ≤ secs)) then
      s.upkeep (s.planeOf (48 + s.tkr.jhead / 256)) (s.tkr.logOp 48 s.tkr.jhead) State.journalProgram
    else s)

/-- R554, R26, R27. -/
def execHistoryPageProgram (secs : Nat) (s : State) : Out :=
  .next (if s.active && !s.tkr.hbuf.isEmpty && (decide (8 ≤ s.tkr.hbuf.length) || decide (10 ≤ secs)) then
      s.upkeep (s.planeOf (208 + s.tkr.hhead / 256)) (s.tkr.logOp 208 s.tkr.hhead) State.historyPage
    else s)

/-- R552: 256 entries, or 24 h with an entry since the last seal. -/
def execSealTimer (secs : Nat) (s : State) : Out :=
  .next (if s.active && (decide (256 ≤ s.tkr.jsince) || (decide (86400 ≤ secs) && (s.tkr.jsince != 0 || !s.tkr.jbuf.isEmpty))) then s.sealNow else s)

/-- The scrub reads a page: pages in ascending order; the last programmed page ends the pass (R555, R558, log 51). -/
def State.scrubPage (s : State) (pg flips : Nat) : State :=
  let total := s.tkr.prog.length
  let seen := (s.tkr.prog.filter (· ≤ pg)).length
  let prog := if total == 0 then 100 else seen * 100 / total
  let s1 := (s.setReg Reg.tkrScrub prog).setReg (Reg.bgProgA + 3) prog
  let s2 : State := { s1 with tkr := { s1.tkr with scrubLate := s1.tkr.scrubLate && seen != total } }
  (s2.readPage pg flips).1

/-- R555: one page per atom, as background work on its plane (R26). -/
def execStoreScrub (page : BitVec 18) (flips : Nat) (s : State) : Out :=
  .next (if s.active && s.tkr.programmed page.toNat then s.scrubAtom (s.planeOf (page.toNat / 256)) (·.scrubPage page.toNat flips) else s)

/-- Block 39 is never erased (14, RECORDS slots). -/
def mayErase (b : Nat) : Bool := b != 39

/-- Block b is copied to a spare; its old place is erased and becomes a spare, or is retired (R556, R557). -/
def State.refresh (s : State) (b : Nat) (eraseOk : Bool) : State :=
  if s.tkr.bad.any fun p => p / 256 == b then s.retire b 4 true
  else match bestSpare s.tkr with
    | none => s
    | some sp =>
      let t := s.tkr
      let old := t.phys b
      let t1 := { t with map := SMap.set id t.map b sp, free := t.free.erase sp, weak := t.weak.erase b,
                         erases := SMap.set (fun _ => 0) t.erases old (eraseCount t old + 1) }
      if eraseOk then { s with tkr := { t1 with free := t1.free ++ [old] } }.spareCheck
      else ((({ s with tkr := { t1 with retired := t1.retired + 1 } } : State).journal 0x0040 (leBytes 2 b ++ leBytes 1 3)).post 459).spareCheck

/-- R556: a block in which a read found 4 to 8 corrected bits; a copy suspends as a page program does (R27). -/
def execBlockRefresh (b : BitVec 10) (eraseOk : Bool) (s : State) : Out :=
  .next (if s.active && mayErase b.toNat && s.tkr.weak.contains b.toNat && !s.tkr.worn.contains b.toNat then
      s.upkeep (s.planeOf b.toNat) (.copy b.toNat) (·.refresh b.toNat eraseOk)
    else s)

/-- R557's first three cases, by their causes: more than 5 corrected bits were found; a program failed its verification twice, or
an erase failed, as the command reports. An erase of a block with an uncorrectable page retires it by itself (`State.eraseBlk`). -/
def State.mayRetire (s : State) (b : Nat) : Nat → Bool
  | 1 => s.tkr.worn.contains b
  | 2 | 3 => true
  | _ => false

/-- R557, R559. -/
def execBlockRetire (b : BitVec 10) (cause : Byte) (s : State) : Out :=
  .next (if s.active && mayErase b.toNat && s.mayRetire b.toNat cause.toNat then
      s.upkeep (s.planeOf b.toNat) (.copy b.toNat) (·.retire b.toNat cause.toNat true)
    else s)

end Sys2Proof.Machine
end

