-- ==== Sys2Proof/Machine/TypeC.lean ====
section
/-! DEFINITION. The meanings of the Type-C port commands (09). A command that finds its port absent, or in a state in
which the manual lets nothing happen, changes nothing (log 12). The times of R368 are compared at their nominal values
(log 13). -/

namespace Sys2Proof.Machine

/-- A port command acts when its condition holds. -/
def State.onPort (s : State) (p : Port) (ok : Bool) (f : State → State) : Out :=
  .next (if s.part.variant.hasPort p && ok then f s else s)

/-- A message can pass: the port is attached and the digital domain runs (R369). -/
def State.pdLive (s : State) (p : Port) : Bool := s.active && (s.prt p).role != .none

/-- The port sends Soft_Reset (R367); a swap in progress is over. -/
def State.sendSoftReset (s : State) (p : Port) : State :=
  let s1 := (s.setPrt p { s.prt p with msgId := 0, next := none, wait := .softReset, swapTo := .none }).idleX p
  (s1.pdSend p Pd.softReset []).post (portSrc p + 5)

/-- A PD timer expires that ends in Hard Reset: twice, then a sink stays at its default and a source goes through error
recovery, its CC lines open (R368); the recovery ends with the next idle second (log 70). -/
def State.hardTimeout (s : State) (p : Port) : State :=
  let c := s.prt p
  if c.hardCnt < 2 then (s.setPrt p { c with hardCnt := c.hardCnt + 1 }).hardReset p true
  else if c.role == .source then
    let s1 := (s.xOff p).unattach p
    s1.setPrt p { s1.prt p with openCc := true }
  else
    let s1 := s.setPrt p { c with contract := none, next := none, wait := .none, swapTo := .none, frs := false }
    (s1.idleX p).setPortLim p (rpLim c.rp)

/-! Attach and detach. -/

/-- What a partner on CC leads to, R336's Type-C 2.2 behaviour: nothing yet, an attach in that role, or the other side tried
first. `source` says that the partner presents Rd. In a Try state the debounce is the shorter tTryCCDebounce, 10 ms (log 70). -/
inductive OnPartner where
  | stay
  | attach
  | try_ (t : TryAt)
deriving DecidableEq, Repr

def State.onPartner (s : State) (p : Port) (source : Bool) (ms : Nat) : OnPartner :=
  let c := s.prt p
  let canSource := (c.roleIn == 1 || c.roleIn == 3) && s.mayBeSource && c.cut == .none
  let canSink := c.roleIn == 2 || c.roleIn == 3
  let enough := fun (seen : Bool) (least : Nat) => if seen && decide (least ≤ ms) then OnPartner.attach else .stay
  if c.openCc || c.unsup || !(if source then canSource else canSink) then .stay
  else match c.trying with
    | .none =>
      if ms < 150 then .stay
      else if !source && c.try == 1 && canSource then .try_ .src
      else if source && c.try == 2 && canSink then .try_ .snk
      else .attach
    | .src | .waitSrc => enough source 10
    | .snk => enough (!source) 10
    | .waitSnk => enough (!source) 150

/-- Attached in a role; a source waits for VBUS below 0.8 V, a sink draws its Rp current (R127, R339, R340, R366). -/
def State.attachAs (s : State) (p : Port) (source cc2 : Bool) (rp rev : Nat) : State :=
  let s0 := s.pdFresh p
  let s1 := s0.setPrt p { s0.prt p with role := if source then .source else .sink, cc2 := cc2, rp := if source then 0 else min 3 rp,
                                        rev := 0, partnerRev := max 1 (min 2 rev), dfp := source, trying := .none, noTurnOn := source }
  let s2 := if source then s1 else s1.setPortLim p (rpLim (min 3 rp))
  (s2.post (portSrc p)).connectBest

/-- A partner debounced for tCCDebounce (R336, R337, R339, R344, R368). -/
def execAttach (p : Port) (source cc2 : Bool) (rp rev ms : Nat) (s : State) : Out :=
  s.onPort p (s.active && (s.prt p).role == .none) fun s =>
    match s.onPartner p source ms with
    | .stay => s
    | .try_ t => s.setPrt p { s.prt p with trying := t, showRp := t == .src, sent := [] }
    | .attach => s.attachAs p source cc2 rp rev

/-- R338: posts once per such partner. -/
def execUnsupportedAttach (p : Port) (s : State) : Out :=
  s.onPort p (s.active && (s.prt p).role == .none && !(s.prt p).unsup && !(s.prt p).openCc && (s.prt p).roleIn != 0) fun s =>
    (s.setPrt p { s.prt p with unsup := true, trying := .none, sent := [] }).post (portSrc p + 16)

/-- The partner has left: VBUS is discharged, whichever side the port was (R365), and the input of a sink is no longer eligible
(R127, R141). -/
def State.detached (s : State) (p : Port) : State := (((s.xOff p).unattach p).post (portSrc p + 1)).leaveIneligible

/-- A detach debounced for tPDDebounce (R365, R369, R372). -/
def execDetach (p : Port) (ms : Nat) (s : State) : Out :=
  s.onPort p (decide (15 ≤ ms) && ((s.prt p).role != .none || (s.prt p).unsup)) fun s =>
    let s0 := s.pdFresh p
    let c := s0.prt p
    if !s.active then s0.setPrt p { c with detachHold := c.role != .none, unsup := false }
    else if c.role == .none then s0.setPrt p { c with unsup := false }
    else s0.detached p

/-- The time a presentation lasts, in 10 us: tDRP shared by dcSRC.DRP; tDRPTry and tDRPTryWait in the Try states, and
tPDDebounce for a Try.SRC that found no source either (R368, log 70). -/
def State.drpTime (s : State) (p : Port) : Nat :=
  let c := s.prt p
  let duty := s.fld (Reg.pdpDrp p.ix) 8 7
  match c.trying with
  | .none => s.fld (Reg.pdpDrp p.ix) 0 7 * (if c.showRp then duty else 100 - duty)
  | .src | .waitSrc => 10000
  | .snk => 60000
  | .waitSnk => 1500

/-- What follows when a presentation's time is over. -/
def TryAt.next : TryAt → TryAt
  | .src => .waitSnk
  | .snk => .waitSrc
  | .none | .waitSnk | .waitSrc => .none

/-- An unattached dual-role port shows the other presentation (R336, R344, R363, R368). -/
def execDrpToggle (p : Port) (ms : Nat) (s : State) : Out :=
  let c := s.prt p
  s.onPort p (s.active && c.role == .none && c.roleIn == 3 && s.mayBeSource && c.cut == .none && !c.openCc && !c.unsup
      && decide (s.drpTime p ≤ 100 * ms)) fun s =>
    let rp := match c.trying with
      | .none => !c.showRp
      | t => t.next == .waitSrc
    s.setPrt p { c with showRp := rp, trying := c.trying.next, sent := [] }

/-! Sourcing. -/

/-- VBUS has been below 0.8 V since X was last on (R366). -/
def State.vbusSafe (s : State) (p : Port) (mv : Nat) : Bool := decide (mv < 800) || !(s.prt p).noTurnOn

/-- X comes on at 5.00 V without a contract. DESIGN CHOICE (log 84): R201 gives the voltage only; the limit is the current of
PDP_Cn_CFG.RP. -/
def State.sourceOn (s : State) (p : Port) : State :=
  let s1 := s.xOn p 5000 (rpAmps (s.prt p).rpSet)
  s1.setPrt p { s1.prt p with discharging := false, slow := false, noTurnOn := false, recover := false }

/-- VBUS at `mv` has been off for `ms`: X at 5.00 V, and capabilities (R340, R342, R344, R366); after a Hard Reset not before
tSrcRecover (R368), and not in a swap to sink (R360). -/
def execSourceTurnOn (p : Port) (mv ms : Nat) (s : State) : Out :=
  let c := s.prt p
  s.onPort p (s.pdLive p && c.role == .source && c.swapTo != .sink && s.mayBeSource && !(s.cnv.x.get p).run && !(s.cnv.x.get p).stopped
      && s.vbusSafe p mv && (!c.recover || decide (660 ≤ ms))) fun s =>
    let s1 := (s.pdFresh p).sourceOn p
    if (s1.prt p).swapTo == .none then s1.sendCaps p none else s1

/-- The answer to a Request (R347). -/
inductive Answer where
  | accept (k : Contract) (lim : Nat)
  | reject
  | waitNoInput
  | waitBudget
deriving DecidableEq, Repr

def State.answer (s : State) (p : Port) (r : PdRequest) (vin pload : Nat) : Answer :=
  let c := s.prt p
  match c.asked (s.reg (Reg.pdpPpsVmin p.ix)) r with
  | none => .reject
  | some (k, lim) =>
    if (match c.contract with | some h => decide (k.mv * k.ma ≤ h.mv * h.ma) | none => false) then .accept k lim
    else if s.pp.conn.isNone then .waitNoInput
    else if 1000 * s.budgetMw p vin pload < (k.mv * k.ma : Nat) then .waitBudget
    else .accept k lim

/-- A Request received as source (R347, R348); `vin` is the connected input's voltage and `pload` P_load in mW. -/
def execRequest (p : Port) (r : PdRequest) (vin pload : Nat) (s : State) : Out :=
  s.onPort p (s.pdLive p && (s.prt p).role == .source && (s.cnv.x.get p).run) fun s =>
    let s0 := s.pdRecv p false Pd.request [PdRequest.word r]
    let s1 := (s0.setPrt p { s0.prt p with wait := .none }).showBudget p (s0.budgetMw p vin pload)
    match s1.answer p r vin pload with
    | .reject => s1.pdSend p Pd.reject []
    | .waitNoInput => s1.pdSend p Pd.wait []
    | .waitBudget => (s1.pdSend p Pd.wait []).post (portSrc p + 10)
    | .accept k lim =>
      let s2 := s1.pdSend p Pd.accept []
      (s2.setPrt p { s2.prt p with next := some k }).xOn p k.mv (if k.pps then k.ma else lim)

/-- VBUS has settled within 5 % of a fixed voltage, or 100 mV of a PPS voltage (R348). -/
def settled (k : Contract) (mv : Nat) : Bool :=
  if k.pps then decide (k.mv ≤ mv + 100 ∧ mv ≤ k.mv + 100) else decide (95 * k.mv ≤ 100 * mv ∧ 100 * mv ≤ 105 * k.mv)

/-- A swap has made the port sink: it draws the Type-C default until it measures its partner's Rp (R339, log 70), and its input
qualifies in 100 us (R361). -/
def State.becomeSink (s : State) (p : Port) : State :=
  (s.setPrt p { s.prt p with role := .sink, wait := .psRdy, contract := none, next := none, offered := [], noTurnOn := false,
                             rp := 1, swapped := true }).setPortLim p (rpLim 1)

/-- PS_RDY as source: a contract takes effect (R348), or one side of a swap is done (R356). -/
def execPsRdySend (p : Port) (mv : Nat) (s : State) : Out :=
  s.onPort p (s.pdLive p && (s.prt p).role == .source) fun s =>
    let c := s.prt p
    let s0 := s.pdFresh p
    match c.swapTo, c.next with
    | .none, some k => if settled k mv then (s0.pdSend p Pd.psRdy []).contractNow p else s
    | .none, none => s
    | .source, _ =>
      if settled ⟨false, 5000, 0⟩ mv then
        let s1 := s0.pdSend p Pd.psRdy []
        ((s1.setPrt p { s1.prt p with swapTo := .none, wait := .none }).post (portSrc p + 6)).sendCaps p none
      else s
    | .sink, _ =>
      if decide (mv < 800) && !(s.cnv.x.get p).run && !c.frs then
        (s0.pdSend p Pd.psRdy []).becomeSink p
      else s

/-- R349. -/
def execPpsTimeout (p : Port) (ms : Nat) (s : State) : Out :=
  s.onPort p (s.pdLive p && (s.prt p).role == .source && (s.prt p).contract.any (·.pps) && decide (15000 ≤ ms)) fun s =>
    ((s.pdFresh p).post (portSrc p + 12)).hardReset p true

/-- R350: P_avail below the contract power for 500 ms. -/
def execBudgetShortfall (p : Port) (ms vin pload : Nat) (s : State) : Out :=
  let low := match (s.prt p).contract with
    | some k => decide (1000 * s.budgetMw p vin pload < (k.mv * k.ma : Nat))
    | none => false
  s.onPort p (s.pdLive p && (s.prt p).role == .source && low && decide (500 ≤ ms)) fun s =>
    ((s.pdFresh p).showBudget p (s.budgetMw p vin pload)).sendCaps p (some (s.budgetMw p vin pload).toNat)

/-- R368: capabilities every 150 ms, nCapsCount times, until the partner answers. -/
def execSourceCapRepeat (p : Port) (ms : Nat) (s : State) : Out :=
  let c := s.prt p
  s.onPort p (s.pdLive p && c.role == .source && (s.cnv.x.get p).run && c.contract.isNone && c.next.isNone && decide (c.capsSent < 50)
      && decide (150 ≤ ms)) fun s => (s.pdFresh p).sendCaps p none

/-! Sinking. -/

/-- R351; a source just records what it receives. -/
def execSourceCapabilities (p : Port) (pdos : List Word32) (s : State) : Out :=
  s.onPort p (s.pdLive p) fun s =>
    let s0 := s.pdRecv p false Pd.sourceCaps pdos
    let c := s0.prt p
    let s1 := s0.setPrt p { c with partner := pdos, wait := if c.wait == .sourceCap then .none else c.wait }
    if c.role == .sink then s1.sendRequest p else s1

/-- R352. -/
def execKeepalive (p : Port) (secs : Nat) (s : State) : Out :=
  s.onPort p (s.pdLive p && (s.prt p).role == .sink && (s.prt p).contract.any (·.pps)
      && decide (s.reg (Reg.pdpKeepalive p.ix) ≤ secs)) fun s => (s.pdFresh p).sendRequest p

/-- R353: the 16th Wait in a row ends the tries. -/
def execWaitReceived (p : Port) (s : State) : Out :=
  s.onPort p (s.pdLive p) fun s =>
    let s0 := s.pdRecv p false Pd.wait []
    let c := s0.prt p
    match c.wait with
    | .request =>
      (s0.setPrt p { c with wait := .none, next := none, waits := c.waits + 1 }).postIf (c.waits + 1 == 16) (portSrc p + 11)
    | .prSwap => s0.setPrt p { c with wait := .none, swapTo := .none }
    | _ => s0.sendSoftReset p

/-- R353: the retry, in steps of 10 ms. -/
def execWaitRetry (p : Port) (ms : Nat) (s : State) : Out :=
  let c := s.prt p
  s.onPort p (s.pdLive p && c.role == .sink && c.wait == .none && decide (1 ≤ c.waits ∧ c.waits < 16)
      && decide (s.reg (Reg.pdpWaitRetry p.ix) * 10 ≤ ms)) fun s => (s.pdFresh p).sendRequest p

/-- A swap that makes the port source is done (R356, R359). -/
def State.becomeSource (s : State) (p : Port) : State :=
  (s.setPrt p { s.prt p with role := .source, rp := 0, wait := .none, contract := none, next := none, offered := [] }).leaveIneligible

/-- PS_RDY received, VBUS standing at `mv` (R354, R355, R358, R359, R366). -/
def execPsRdyReceived (p : Port) (mv : Nat) (s : State) : Out :=
  s.onPort p (s.pdLive p) fun s =>
    let s0 := s.pdRecv p false Pd.psRdy []
    let c := s0.prt p
    if c.wait != .psRdy || c.role != .sink then s0.sendSoftReset p
    else match c.swapTo with
      | .none =>
        let s1 := s0.contractNow p
        if c.frsEn && c.rev == 2 then (s1.setPrt p { s1.prt p with wait := .sinkCap }).pdSend p Pd.getSinkCap [] else s1
      | .source =>
        if c.frs then
          let s1 := (s0.becomeSource p).pdSend p Pd.psRdy []
          let s2 := (s1.setPrt p { s1.prt p with swapTo := .none }).post (portSrc p + 7)
          if (s2.cnv.x.get p).run then s2.sendCaps p none else s2
        else
          let s1 := s0.becomeSource p
          if s1.vbusSafe p mv then s1.sourceOn p else s1
      | .sink =>
        let s1 := (s0.setPrt p { c with swapTo := .none, wait := .none, frs := false }).setPortLim p (rpLim c.rp)
        (s1.postIf (!c.frs) (portSrc p + 6)).connectBest

/-- A reply does not come within tSenderResponse, or PS_RDY within tPSTransition (R367, R368). -/
def execSenderResponseTimeout (p : Port) (ms : Nat) (s : State) : Out :=
  s.onPort p (s.pdLive p && (s.prt p).wait != .none && decide ((if (s.prt p).wait == .psRdy then 500 else 28) ≤ ms)) fun s =>
    let s0 := s.pdFresh p
    match (s.prt p).wait with
    | .request | .psRdy | .frSwap | .softReset | .caps => s0.hardTimeout p
    | _ => s0.setPrt p { s0.prt p with wait := .none, swapTo := .none }

/-! Swaps. -/

/-- R355: PRS, the record, an input, and no EMERGENCY; a stopped converter cannot source (R204). -/
def State.swapAllowed (s : State) (p : Port) : Bool :=
  let prs := bits (s.prt p).cfgIn 10 2
  if (s.prt p).role == .sink then bit prs 1 && s.mayBeSource && s.pp.conn.isSome && !s.emg.emergency && !(s.cnv.x.get p).stopped
  else bit prs 0

/-- An accepted swap starts (R356). -/
def State.swapStart (s : State) (p : Port) : State :=
  let c := s.prt p
  if c.role == .sink then (s.setPrt p { c with swapTo := .source, wait := .psRdy, frs := false }).leaveIneligible
  else
    let s1 := s.xStop p
    s1.setPrt p { s1.prt p with swapTo := .sink, wait := .none, frs := false }

def execPrSwapReceived (p : Port) (s : State) : Out :=
  s.onPort p (s.pdLive p) fun s =>
    let s0 := s.pdRecv p false Pd.prSwap []
    if s0.swapAllowed p && (s0.prt p).swapTo == .none then (s0.pdSend p Pd.accept []).swapStart p else s0.pdSend p Pd.reject []

/-- R357. -/
def execDrSwapReceived (p : Port) (vconn : Bool) (s : State) : Out :=
  s.onPort p (s.pdLive p) fun s => (s.pdRecv p false (if vconn then Pd.vconnSwap else Pd.drSwap) []).pdSend p Pd.reject []

/-- R332, R357: an attempt at EPR posts `PDP_Cn_UNSUPPORTED`; a Revision 2.0 partner's Revision 3 messages have no response. -/
def execNotSupportedMessage (p : Port) (epr ext : Bool) (typ : Nat) (objs : List Word32) (s : State) : Out :=
  s.onPort p (s.pdLive p) fun s =>
    let s0 := s.pdRecv p ext typ objs
    let s1 := if (s0.prt p).rev == 1 && (epr || isRev3 ext typ objs) then s0 else s0.pdSend p Pd.notSupported []
    s1.postIf epr (portSrc p + 16)

/-! Messages answered (R367). -/

/-- R358: the fast-role-swap current the partner names. -/
def execSinkCapabilities (p : Port) (pdos : List Word32) (s : State) : Out :=
  s.onPort p (s.pdLive p) fun s =>
    let s0 := s.pdRecv p false Pd.sinkCaps pdos
    let c := s0.prt p
    let i := if c.role == .sink && c.frsEn && c.rev == 2 then bits (pdos.getD 0 0).toNat 23 2 else c.frsI
    s0.setPrt p { c with snkCaps := pdos, frsI := i, wait := if c.wait == .sinkCap then .none else c.wait }

def execGetSourceCap (p : Port) (s : State) : Out :=
  s.onPort p (s.pdLive p) fun s =>
    let s0 := s.pdRecv p false Pd.getSourceCap []
    let c := s0.prt p
    if c.roleIn == 1 || c.roleIn == 3 then
      (if c.role == .source then s0.sendCaps p none else s0.pdSend p Pd.sourceCaps (s0.capsWords p (s0.capabilities p none)))
    else s0.pdSend p Pd.notSupported []

def execGetSinkCap (p : Port) (s : State) : Out :=
  s.onPort p (s.pdLive p) fun s =>
    let s0 := s.pdRecv p false Pd.getSinkCap []
    let c := s0.prt p
    if c.roleIn == 2 || c.roleIn == 3 then s0.pdSend p Pd.sinkCaps (s0.sinkWords p) else s0.pdSend p Pd.notSupported []

/-- The answer to a Revision 3 message: none to a Revision 2.0 partner (R332). -/
def State.answerRev3 (s : State) (p : Port) (ext : Bool) (typ : Nat) (objs : List Word32) : State :=
  if (s.prt p).rev == 1 then s else s.pdSendFull p ext typ objs

/-- Status: internal temperature, present input, and the OCP, OTP and OVP flags. -/
def State.statusData (s : State) (p : Port) : List Byte :=
  let x := s.cnv.x.get p
  leBytes 1 (max 1 (min 255 (signedOf (s.lastOf 19) 16 / 10)).toNat)
    ++ leBytes 1 (if s.pp.conn.isSome then 2 else 8) ++ [0]
    ++ leBytes 1 (2 * b2n x.runaway + 4 * b2n x.ot + 8 * b2n x.ovp) ++ [0, 0, 0]

def execGetStatusReceived (p : Port) (s : State) : Out :=
  s.onPort p (s.pdLive p) fun s =>
    let s0 := s.pdRecv p false Pd.getStatus []
    s0.answerRev3 p true Pd.status (extWords (s0.statusData p))

/-- PPS_Status: VBUS in 20 mV, current in 50 mA, and the current-limit flag. -/
def execGetPpsStatusReceived (p : Port) (mv ma : Nat) (s : State) : Out :=
  s.onPort p (s.pdLive p) fun s =>
    let s0 := s.pdRecv p false Pd.getPpsStatus []
    s0.answerRev3 p true Pd.ppsStatus
      (extWords (leBytes 2 (mv / 20) ++ leBytes 1 (ma / 50) ++ leBytes 1 (8 * b2n (s.cnv.x.get p).ilim)))

def execGetSourceCapExtended (p : Port) (s : State) : Out :=
  s.onPort p (s.pdLive p) fun s =>
    let s0 := s.pdRecv p false Pd.getSrcCapExt []
    s0.answerRev3 p true Pd.srcCapExt
      (extWords (leBytes 2 (s.reg (Reg.pdpVid p.ix)) ++ leBytes 2 (s.reg (Reg.pdpPid p.ix)) ++ List.replicate 21 0))

def execAlertReceived (p : Port) (ado : Word32) (s : State) : Out :=
  s.onPort p (s.pdLive p) fun s =>
    let s0 := (s.pdRecv p false Pd.alert [ado]).post (portSrc p + 13)
    if (s0.prt p).rev == 1 then s0 else (s0.setPrt p { s0.prt p with wait := .status }).pdSend p Pd.getStatus []

/-- Responder: ID header, cert stat 0, product. -/
def execDiscoverIdentity (p : Port) (s : State) : Out :=
  s.onPort p (s.pdLive p) fun s =>
    let v3 := (s.prt p).rev == 2
    let s0 := s.pdRecv p false Pd.vendor [BitVec.ofNat 32 (0xFF008001 + b2n v3 * 2 ^ 13)]
    s0.pdSend p Pd.vendor
      [BitVec.ofNat 32 (0xFF008041 + b2n v3 * 2 ^ 13), BitVec.ofNat 32 (s.reg (Reg.pdpVid p.ix)), 0,
       BitVec.ofNat 32 (s.reg (Reg.pdpPid p.ix) * 65536)]

/-- The carrier goes out at vSafe5V only, 4.75 to 5.50 V. -/
def execBistCarrierMode (p : Port) (mv : Nat) (s : State) : Out :=
  s.onPort p (s.pdLive p) fun s =>
    let s0 := s.pdRecv p false Pd.bist [BitVec.ofNat 32 (5 * 2 ^ 28)]
    s0.setPrt p { s0.prt p with bist := decide (4750 ≤ mv ∧ mv ≤ 5500) }

def execHardResetReceived (p : Port) (s : State) : Out :=
  s.onPort p (s.pdLive p) fun s => (s.pdFresh p).hardReset p false

def execSoftResetReceived (p : Port) (s : State) : Out :=
  s.onPort p (s.pdLive p) fun s =>
    let s0 := s.pdRecv p false Pd.softReset []
    let s1 := ((s0.setPrt p { s0.prt p with msgId := 0, next := none, wait := .none, swapTo := .none }).idleX p).pdSend p Pd.accept []
    let s2 := s1.post (portSrc p + 5)
    if (s2.prt p).role == .source && (s2.cnv.x.get p).run then s2.sendCaps p none else s2

def execAcceptReceived (p : Port) (s : State) : Out :=
  s.onPort p (s.pdLive p) fun s =>
    let s0 := s.pdRecv p false Pd.accept []
    let c := s0.prt p
    match c.wait with
    | .request | .frSwap => s0.setPrt p { c with wait := .psRdy }
    | .prSwap => s0.swapStart p
    | .softReset =>
      let s1 := s0.setPrt p { c with wait := .none }
      if c.role == .source && (s0.cnv.x.get p).run then s1.sendCaps p none else s1
    | _ => s0.sendSoftReset p

def execRejectReceived (p : Port) (s : State) : Out :=
  s.onPort p (s.pdLive p) fun s =>
    let s0 := s.pdRecv p false Pd.reject []
    let c := s0.prt p
    match c.wait with
    | .none | .psRdy | .caps | .softReset => s0.sendSoftReset p
    | _ => (s0.setPrt p { c with wait := .none, next := none, swapTo := .none, waits := 0 }).idleX p

/-! Fast role swap. -/

/-- R359: a swap in progress is abandoned; X comes on at the partner's current. -/
def execFrsSignal (p : Port) (us mv : Nat) (s : State) : Out :=
  s.onPort p (s.pdLive p && s.frsArmed p && decide (40 ≤ us) && decide (mv < 4750) && !(s.cnv.x.get p).stopped) fun s =>
    let s0 := s.pdFresh p
    let c := s0.prt p
    let s1 := s0.setPrt p { c with frs := true, swapTo := .source, wait := .frSwap, contract := none, next := none }
    (s1.xOn p 5000 (frsMa c.frsI)).pdSend p Pd.frSwap []

/-- R360: the connected input has collapsed and the battery cannot supplement; CC goes low, and X stops at the signal's end.
Fast role swap is of Revision 3 (R332). -/
def execFrsSend (p : Port) (s : State) : Out :=
  s.onPort p (s.pdLive p && (s.prt p).role == .source && (s.prt p).frsEn && (s.prt p).rev == 2 && (s.cnv.x.get p).run
      && s.pp.conn.isNone && !s.batteryCan) fun s =>
    let s1 := (s.pdFresh p).xStop p
    (s1.setPrt p { s1.prt p with swapTo := .sink, frs := true, wait := .none, next := none, sent := [⟨.frSwap, false, 0, 0, []⟩] }).post
      (portSrc p + 8)

/-- FR_Swap after this port's own signal (R359, R361); a Revision 2.0 partner's has no response (R332). -/
def execFrSwapReceived (p : Port) (s : State) : Out :=
  s.onPort p (s.pdLive p) fun s =>
    let s0 := s.pdRecv p false Pd.frSwap []
    let c := s0.prt p
    if c.role == .source && c.swapTo == .sink && c.frs then
      ((s0.pdSend p Pd.accept []).pdSend p Pd.psRdy []).becomeSink p
    else if c.rev == 1 then s0
    else s0.sendSoftReset p

/-- R362. -/
def execFrsFail (p : Port) (us : Nat) (s : State) : Out :=
  s.onPort p (s.pdLive p && (s.prt p).role == .sink && !s.frsArmed p && decide (40 ≤ us)) fun s =>
    (s.pdFresh p).post (portSrc p + 9)

/-! Ending sourcing. -/

/-- R265: EMERGENCY has reached the point at which PORT_SRC ends sourcing. -/
def State.mustCut (s : State) : Bool :=
  s.emg.emergency && (match s.fld Reg.emgCtl 10 2 with | 0 => true | 1 => s.emg.warn | _ => s.emg.cutoff)

/-- R363. -/
def execSrcCut (p : Port) (s : State) : Out :=
  s.onPort p (s.pdLive p && (s.prt p).role == .source && s.mustCut) fun s => (s.pdFresh p).cutPort p .emergency

/-- R365: DSCn turns off below 0.8 V. -/
def execDischargeDone (p : Port) (mv : Nat) (s : State) : Out :=
  s.onPort p ((s.prt p).discharging && decide (mv < 800)) fun s =>
    s.setPrt p { s.prt p with discharging := false, slow := false, noTurnOn := false }

/-- R365: 650 ms, once per discharge. -/
def execDischargeSlow (p : Port) (mv ms : Nat) (s : State) : Out :=
  s.onPort p ((s.prt p).discharging && !(s.prt p).slow && decide (800 ≤ mv) && decide (650 ≤ ms)) fun s =>
    (s.setPrt p { s.prt p with slow := true }).post (portSrc p + 14)

/-! Commands of `PDP_Cn_CTL` (R371). -/

/-- STATUS: 1 sent, 2 BLOCKED where the message cannot be sent (log 46). -/
def State.portCommand (s : State) (p : Port) (can : Bool) (f : State → State) : Out :=
  s.onPort p s.active fun s =>
    if can then (f (s.pdFresh p)).setFld (Reg.pdpCtl p.ix) 12 4 1 else s.setFld (Reg.pdpCtl p.ix) 12 4 2

def execPdpHardReset (p : Port) (s : State) : Out := s.portCommand p (s.pdLive p) fun s => s.hardReset p true

def execPdpSoftReset (p : Port) (s : State) : Out := s.portCommand p (s.pdLive p) fun s => s.sendSoftReset p

/-- R355: as a dual-role port only; R344 keeps a port from the source role. -/
def execPdpPrSwap (p : Port) (s : State) : Out :=
  let c := s.prt p
  s.portCommand p (s.pdLive p && c.roleIn == 3 && c.rev != 0 && (c.role == .source || (s.mayBeSource && !(s.cnv.x.get p).stopped))) fun s =>
    (s.setPrt p { s.prt p with wait := .prSwap }).pdSend p Pd.prSwap []

/-- R353: a fresh count of Waits; a source sends its capabilities anew, and a dual-role sink that knows none of its partner's
asks for them (R367, log 70). -/
def execPdpRenegotiate (p : Port) (s : State) : Out :=
  let c := s.prt p
  let ask := c.role == .sink && c.partner.isEmpty && c.roleIn == 3
  s.portCommand p (s.pdLive p && (if c.role == .sink then ask || !c.partner.isEmpty else (s.cnv.x.get p).run)) fun s =>
    if ask then (s.setPrt p { s.prt p with waits := 0, wait := .sourceCap }).pdSend p Pd.getSourceCap []
    else if c.role == .sink then (s.setPrt p { s.prt p with waits := 0 }).sendRequest p
    else s.sendCaps p none

def execPdpGetStatus (p : Port) (s : State) : Out :=
  s.portCommand p (s.pdLive p && (s.prt p).rev == 2) fun s =>
    (s.setPrt p { s.prt p with wait := .status }).pdSend p Pd.getStatus []

def execPdpGetPpsStatus (p : Port) (s : State) : Out :=
  s.portCommand p (s.pdLive p && (s.prt p).rev == 2) fun s =>
    (s.setPrt p { s.prt p with wait := .ppsStatus }).pdSend p Pd.getPpsStatus []

def execPdpGetSrcCapExt (p : Port) (s : State) : Out :=
  s.portCommand p (s.pdLive p && (s.prt p).rev == 2) fun s =>
    (s.setPrt p { s.prt p with wait := .capExt }).pdSend p Pd.getSrcCapExt []

/-- `PDP_Cn_ROLE` or `PDP_Cn_CFG` is written: bit 5 of CFG reads 1, and an unattached port takes it at once (R372). -/
def State.writeRoleCfg (s : State) (p : Port) (cfg : Bool) (v : Nat) : State :=
  let i := if cfg then Reg.pdpCfg p.ix else Reg.pdpRole p.ix
  let w := storeFields (fieldsOf i) (s.reg i) v
  let s1 := s.setReg i (if cfg then putBits w 5 1 1 else w)
  if (s1.prt p).role == .none then s1.takeSettings p else s1

def execPdpRoleCfg (p : Port) (cfg : Bool) (v : Word) (s : State) : Out :=
  s.onPort p s.active fun s => s.writeRoleCfg p cfg v.toNat

end Sys2Proof.Machine
end

