-- ==== Sys2Proof/Machine/Registers.lean ====
section
/-! DEFINITION. The window as agents read and write it: what a commit stores, the hard limits and orders it keeps, and what
each write sets off; what a fetch returns and takes (R6 to R12, R111, R416 to R421, R435, R436, R489, R503, R570). -/

namespace Sys2Proof.Machine

/-- The state a command leaves, for a write that acts as the command does. -/
def State.then_ (s : State) (f : State → Out) : State :=
  match f s with
  | .next t => t
  | _ => s

/-! What a commit stores. -/

/-- SER_AGTn_NOTIFY ignores these targets (R456). -/
def State.badNotify (s : State) (t : Nat) : Bool := t ≤ 7 || 0x78 ≤ t || t == 0x0C || (s.base ≤ t && t < s.base + 4)

/-- A register whose write is a step of its own, made after the plain ones. -/
def hasOwnWrite (i : Nat) : Bool :=
  (0x600 < i && i < 0x700) || i == Reg.seqEn || i == Reg.chgChem || i == Reg.tlmHistInterval || at_ i 0x1F10 4 4 || i == Reg.poeDllAlloc
    || at_ i 0x1701 0x200 2 || at_ i 0x1702 0x200 2 || at_ i 0x2409 0x200 4

/-- A register that a write leaves as it is: the accumulator of a busy unit, the context slots of background
work, a notify target that cannot be (R456, R517, R519). -/
def State.writeVoid (s : State) (i v : Nat) : Bool :=
  (fin4.any fun u => (i == Reg.chkAcc0 u.val || i == Reg.chkAcc1 u.val) && (s.chk.units.get u).job.isSome)
    || (0x810 ≤ i && i < 0x8C0 && 28 ≤ (i - 0x810) % 0x30 && (i - 0x810) % 0x30 < 32)
    || (at_ i 0x111 0x10 4 && s.badNotify (bits v 0 7))

/-- One register of a commit stored by its fields (R6, R9, R12). -/
def State.storeReg (s : State) (a : Agent) (i v : Nat) : State :=
  if !implemented i || absentReg s.part.variant i || hasOwnWrite i || s.writeVoid i v then s
  else if i == 0x600 then s.setAg a fun g => { g with sel := BitVec.ofNat 16 (v % 512) }
  else if i == 0xA00 then s.setAg a fun g => { g with blkSel := v % 1024 }
  else if 0x200 ≤ i && i < 0x400 then s.writeRoute (i - 0x200) v
  else s.setReg i (clearBits (storeFields (fieldsOf i) (s.reg i) v) (absentBits s.part.variant i))

def State.storeRegs (s : State) (a : Agent) (ws : List (Nat × Nat)) : State := ws.foldl (fun t w => t.storeReg a w.1 w.2) s

/-! Orders and hard limits. -/

/-- Written levels raised to the one below, then lowered to the one above: (written, value), lowest first. -/
def raiseLevels : Option Int → List (Bool × Int) → List (Bool × Int)
  | _, [] => []
  | m, (w, v) :: xs =>
    let x := match m with | some y => if w then max v y else v | none => v
    (w, x) :: raiseLevels (some x) xs

def lowerLevels : List (Bool × Int) → List (Bool × Int)
  | [] => []
  | (w, v) :: xs =>
    let ys := lowerLevels xs
    (w, match ys with | (_, y) :: _ => if w then min v y else v | [] => v) :: ys

def orderLevels (xs : List (Bool × Int)) : List Int := (lowerLevels (raiseLevels none xs)).map (·.2)

def wrote (ws : List Nat) (i : Nat) : Bool := ws.contains i

/-- The registers of an ordered family, lowest first, put in order again (R252, R297). -/
def State.orderRegs (s : State) (ws is : List Nat) (get : State → Nat → Int) (set : State → Nat → Int → State) : State :=
  if is.any (wrote ws) then
    (List.zip is (orderLevels (is.map fun i => (wrote ws i, get s i)))).foldl (fun t x => if wrote ws x.1 then set t x.1 x.2 else t) s
  else s

def State.orderZones (s : State) (ws : List Nat) : State :=
  s.orderRegs ws [0x1221, 0x1222, 0x1223, 0x1224] (fun t i => signedOf (t.reg i) 8) fun t i v => t.setReg i (bitsOf v 8)

def State.orderRail (s : State) (ws : List Nat) (k : Rail) : State :=
  let b := 0xD00 + 16 * k.val
  s.orderRegs ws [b + 8, b + 7, b + 6, b + 5, b + 4] (fun t i => t.reg i) fun t i v => t.setReg i v.toNat

def State.orderRails (s : State) (ws : List Nat) : State := fin8.foldl (fun t k => t.orderRail ws k) s

/-- R258 and R259 on the thresholds written; `old` is the state before the commit. -/
def State.orderEmg (s old : State) (ws : List Nat) : State :=
  let wrW := wrote ws Reg.emgWarn
  let wrA := wrote ws Reg.emgTestAbort
  let wrC := wrote ws Reg.emgCutoff
  let a0 := s.reg Reg.emgTestAbort
  let w0 := if wrW && !wrA then max (s.reg Reg.emgWarn) a0 else s.reg Reg.emgWarn
  let c1 := min (s.reg Reg.emgCutoff) (a0 - 1)
  let c0 : Nat :=
    if !wrC then s.reg Reg.emgCutoff
    else if s.straps.chem != 0 && decide (c1 < s.strapCut) then (if s.strapCut ≤ a0 - 1 then s.strapCut else old.reg Reg.emgCutoff) else c1
  let a := if wrA then max (c0 + 1) (min a0 w0) else a0
  let w := if wrW then max w0 a else w0
  ((s.when wrC (·.setReg Reg.emgCutoff c0)).when wrA (·.setReg Reg.emgTestAbort a)).when wrW (·.setReg Reg.emgWarn w)

/-- R181; where 0.9 x ADDn rounds down to 0, below DROP's range, DROP is kept at its least value 0.1 A (DESIGN CHOICE, log 83). -/
def State.orderShed (s : State) (ws : List Nat) : State :=
  if (List.range 6).any fun j => wrote ws (Reg.cnvShedAdd1 + j) then
    [0, 1, 2].foldl (fun t n =>
      let lim := max 1 (9 * t.reg (Reg.cnvShedAdd1 + n) / 10)
      if lim < t.reg (Reg.cnvShedDrop2 + n) then t.setReg (Reg.cnvShedDrop2 + n) lim else t) s
  else s

/-- `PTH_VSYS_MIN` within the record's limits; PTH_VSYS_BAD posts when that changes it (R111, R157). -/
def State.limitVsys (s : State) : State :=
  let v := s.reg Reg.pthVsysMin
  let w := max (s.reg Reg.sysLimVsyslo) (min (s.reg Reg.sysLimVsyshi) v)
  (s.setReg Reg.pthVsysMin w).postIf (v != w) 82

/-- The hard limits of the applied record (R111). -/
def State.hardLimits (s : State) (ws : List Nat) : State :=
  let s1 := s.when (wrote ws Reg.chgVchg) fun t => t.setReg Reg.chgVchg (limited (t.reg Reg.chgVchg) (t.reg Reg.sysLimChgv))
  let s2 := s1.when (wrote ws Reg.chgIchg) fun t => t.setReg Reg.chgIchg (limited (t.reg Reg.chgIchg) (t.reg Reg.sysLimChgi))
  s2.when (wrote ws Reg.pthVsysMin) State.limitVsys

/-- Everything a commit keeps beyond the ranges of single fields; FLOAT needs LiFePO4 (R227). -/
def State.keepOrders (s old : State) (ws : List Nat) : State :=
  let s1 := (((s.hardLimits ws).orderZones ws).orderRails ws).orderShed ws
  (s1.orderEmg old ws).when (wrote ws Reg.chgCtl && s1.fld Reg.chgChem 4 4 != 1) (·.setFlag Reg.chgCtl 1 false)

/-! What a write sets off. -/

def valueOf (ws : List (Nat × Nat)) (i : Nat) : Option Nat := (ws.find? (·.1 == i)).map (·.2)

/-- The rings' registers: RING_CFG and RING_BASE as one, then the mode, the watermark, the overflow flags and the data
registers (R492, R503, R504, R529). -/
def State.ringWrites (s : State) (a : Agent) (ws : List (Nat × Nat)) : State :=
  let cfg := (valueOf ws Reg.ringCfg).map (· % 16)
  let base := (valueOf ws Reg.ringBase).map (· % 4096)
  let s1 := if cfg.isSome || base.isSome then s.ringAlloc a cfg base else s
  let s2 := match valueOf ws Reg.ringMode with | some v => s1.ringMode a v | none => s1
  let s3 := match valueOf ws Reg.ringWmark with | some v => s2.ringWmark a v | none => s2
  let ovf : State → Nat × Nat → State := fun t w =>
    if 0x630 ≤ w.1 && w.1 < 0x640 then
      { t with fab := (List.range 16).foldl (fun f j =>
          let k := 16 * (w.1 - 0x630) + j
          if bit w.2 j then f.setRing k { f.ring k with ovf := false } else f) t.fab }
    else t
  let data := ws.filterMap fun w => if h : 0x610 ≤ w.1 ∧ w.1 < 0x618 then some ((⟨w.1 - 0x610, by omega⟩ : Fin 8), BitVec.ofNat 16 w.2) else none
  let s4 := ws.foldl ovf s3
  if data.isEmpty then s4 else s4.dataWrite a data

/-- The SNS levels that the comparators saw last, in mV (log 59). -/
def State.snsLevels (s : State) : Eight Nat :=
  let v := fun k : Rail => (s.seq.sns.get k).getD 0
  ⟨v 0, v 1, v 2, v 3, v 4, v 5, v 6, v 7⟩

/-- `SYS_POWER.REQ`. -/
def State.writePower (s : State) (v : Nat) : State :=
  if v % 256 == 0xA5 then s.then_ execEnterShip else if v % 256 == 0xD3 then s.then_ execEnterDormant
  else s.then_ (execSysPowerBadKey (BitVec.ofNat 8 v))

/-- `SEQ_CTL`. -/
def State.writeSeqCtl (s : State) (v : Nat) : State :=
  match v % 256 with
  | 0x01 => s.then_ execSeqUp
  | 0x02 => s.then_ execSeqDown
  | 0x0C => s.then_ execSeqClear
  | 0xF0 => s.then_ execSeqForceOff
  | b => s.then_ (execSeqBadCommand (BitVec.ofNat 8 b))

/-- `CNV_CTL`: CLEAR, RS_RETRY with the levels last measured, SHED_EN (R182, R186, R187). -/
def State.writeCnvCtl (s old : State) (v : Nat) : State :=
  let s1 := s.then_ (execCnvClear (BitVec.ofNat 4 (bits v 4 4)))
  let s2 := if bit v 3 then s1.retrySense else s1
  if old.flag Reg.cnvCtl 2 && !s2.flag Reg.cnvCtl 2 then s2.setPhases s2.settled else s2

/-- `CHG_CTL`: CLEAR, and a change of EN (R214, R217). -/
def State.writeChgCtl (s old : State) (v : Nat) : State :=
  let s1 := if bit v 2 then s.chgClear else s
  if old.flag Reg.chgCtl 0 != s1.flag Reg.chgCtl 0 then s1.chgEval false none else s1

/-- `CHG_CAP_NOM` is C_L until a test has left a record that carries one (R250). -/
def State.writeCapNom (s : State) : State :=
  if (s.latestRecord carriesCap).isNone then s.learnCap (s.reg Reg.chgCapNom) 0 else s

/-- `EMG_CTL`: START_FN, START_DUR, ABORT. -/
def State.writeEmgCtl (s : State) (a : Agent) (v : Nat) : State :=
  let s1 := if bit v 0 then s.then_ (execStartFn a) else s
  let s2 := if bit v 1 then s1.then_ (execStartDur a) else s1
  if bit v 2 then s2.then_ (execEmgAbort a) else s2

/-- `PDP_Cn_CTL`; 3 is a bad command (R371). -/
def State.writePdpCtl (s : State) (p : Port) (v : Nat) : State :=
  match v % 256 with
  | 1 => s.then_ (execPdpHardReset p)
  | 2 => s.then_ (execPdpSoftReset p)
  | 3 => s.then_ (execPdpPrSwap p)
  | 4 => s.then_ (execPdpRenegotiate p)
  | 5 => s.then_ (execPdpGetStatus p)
  | 6 => s.then_ (execPdpGetPpsStatus p)
  | 7 => s.then_ (execPdpGetSrcCapExt p)
  | _ => s.setFld (Reg.pdpCtl p.ix) 12 4 3

/-- `LNK_CFG.EN` written 0 turns the Link off; only a boot turns it on (R380, log 62). -/
def State.writeLnkCfg (s old : State) : State :=
  if old.flag Reg.lnkCfg 0 && !s.flag Reg.lnkCfg 0 then s.lnkFresh.linkOff else s

/-- A schedule that R269 stopped runs again when its time or its period is written; a new time is a new due instance. -/
def State.rearmTest (s : State) (k : TestKind) (time : Bool) : State :=
  let t := s.when time (·.dueOver k)
  match k with
  | .function => { t with emg := { t.emg with fnStop := false } }
  | .duration => { t with emg := { t.emg with durStop := false } }

/-- What a write of v to register i sets off, of those outside bank 0x06; `old` is the state before the commit. -/
def State.react (s old : State) (a : Agent) (i v : Nat) : State :=
  let p1 := portAt i 0x1700 0x200
  if !implemented i || absentReg s.part.variant i then s
  else if i == Reg.sysPower then s.writePower v
  else if i == Reg.kprRtc || i == Reg.kprRtc + 1 then s.setFlag Reg.kprStat 1 true
  else if i == Reg.evtDoorbell then s.ringDoorbell a (v % 32)
  else if i == Reg.seqCtl then s.writeSeqCtl v
  else if i == Reg.seqEn then s.then_ (execSeqEn (BitVec.ofNat 8 v) s.snsLevels)
  else if at_ i 0x0D08 0x10 8 then s.dischWritten (Fin.ofNat 8 ((i - 0x0D08) / 0x10))
  else if i == Reg.cnvCtl then s.writeCnvCtl old v
  else if i == 0x1106 || i == 0x1186 then (if bit v 0 then s.then_ (execCnvXnClear (portAt i 0x1100 0x80)) else s)
  else if i == Reg.chgCtl then s.writeChgCtl old v
  else if i == Reg.chgCapNom then s.writeCapNom
  else if i == Reg.emgCtl then s.writeEmgCtl a v
  else if i == Reg.emgFnNext || i == Reg.emgFnNext + 1 || i == Reg.emgFnPeriod then s.rearmTest .function (i != Reg.emgFnPeriod)
  else if i == Reg.emgDurNext || i == Reg.emgDurNext + 1 || i == Reg.emgDurPeriod then s.rearmTest .duration (i != Reg.emgDurPeriod)
  else if i == Reg.pthEn || i == Reg.gthCfg then s.leaveIneligible
  else if i == Reg.pthVsysMin || i == Reg.pthVhead then (s.refet).reLimit
  else if i == Reg.cnvRevImax then s.checkReverse
  else if (0x1203 ≤ i && i ≤ 0x120F) || (0x1226 ≤ i && i ≤ 0x1228) then s.reLimit
  else if i == Reg.poeDllAlloc then s.writeDll v (s.lastOf 0)
  else if at_ i 0x1701 0x200 2 then s.writeRoleCfg p1 true v
  else if at_ i 0x1702 0x200 2 then s.writeRoleCfg p1 false v
  else if at_ i 0x1712 0x200 2 then s.writePdpCtl p1 v
  else if i == Reg.lnkCfg then s.writeLnkCfg old
  else if i == Reg.lnkDbSend then s.lnkFresh.dbSend (v % 256) (bits v 8 5)
  else if i == Reg.tlmHistInterval then s.writeHistInterval v s.tlm.hist.secs
  else if at_ i 0x1F10 4 4 then s.writeOneshot a v
  else if i == Reg.calCtl then (if bit v 0 then s.calStart else s)
  else if at_ i 0x2408 0x200 4 then s.completeBy a (v % 512)
  else if at_ i 0x2409 0x200 4 then s.writeAgtCtl (Fin.ofNat 4 ((i - 0x2409) / 0x200)) v
  else s

/-- A commit of granted writes, in the order sent: the selection and the chemistry first, then every register, the orders,
and what the writes set off (R418, R421, R503). -/
def State.commit (s : State) (a : Agent) (ws : List (Nat × Nat)) : State :=
  let is := ws.map (·.1)
  let s0 := match valueOf ws 0x600 with | some v => s.storeReg a 0x600 v | none => s
  let s1 := match valueOf ws 0x601 with
    | some v => s0.setAg a fun g => { g with addr := BitVec.ofNat 16 v }
    | none => s0
  let s2 := match valueOf ws Reg.chgChem with | some v => s1.writeChem v | none => s1
  let s3 := (s2.storeRegs a ws).keepOrders s is
  (ws.foldl (fun t w => t.react s a w.1 w.2) (s3.ringWrites a ws)).checkOffer

/-- The part of a register outside its own agent's reach: who alone may write it (R436, R489, R570). -/
def ownerOf (i : Nat) : Option Agent :=
  if 0x110 ≤ i && i < 0x150 && i % 16 < 4 then some (Fin.ofNat 4 ((i - 0x110) / 16))
  else if 0x2400 ≤ i && i < 0x2C00 && i % 0x200 ≤ 8 && implemented i then some (Fin.ofNat 4 ((i - 0x2400) / 0x200))
  else if 0x1F10 ≤ i && i < 0x1F20 then some (Fin.ofNat 4 ((i - 0x1F10) / 4))
  else none

/-- A register another agent reads as 0 (R489, R570). -/
def hiddenFrom (a : Agent) (i : Nat) : Bool :=
  (0x1F10 ≤ i || 0x2400 ≤ i) && (match ownerOf i with | some n => n != a | none => false)

/-! Reads. -/

/-- The registers that a read of register i latches for the agent (R598, R599). -/
def latchedBy (i : Nat) : List Nat :=
  if i == 0x84 || i == 0x86 || i == 0x402 || i == 0x1300 || i == 0x1408 || i == 0x140A || i == 0x903 || i == 0x905 || i == 0x90A || i == 0x2205
      || at_ i 0x2402 0x200 4 || at_ i 0x2404 0x200 4 || at_ i 0x802 0x30 4
      || (0x810 ≤ i && i < 0x8C0 && (i - 0x810) % 0x30 < 0x20 && i % 2 == 0)
      || at_ i 0x8C1 8 4 || at_ i 0x8C3 8 4 || at_ i 0x8C5 8 4 then [i + 1]
  else if i == 0x1C02 || (0x1D00 ≤ i && i < 0x1D80 && i % 4 == 0) then [i + 1, i + 2]
  else []

/-- The RC fields of register i clear (R6); drops count for the ring the agent has selected. -/
def State.readClear (s : State) (a : Agent) (i : Nat) : State :=
  let f := s.fab
  let dead := absentRing s.part.variant (s.selRing a)
  if i == Reg.evtUnrouted then { s with fab := { f with unrouted := 0 } }
  else if i == Reg.evtMerged then { s with fab := { f with merged := 0 } }
  else if i == Reg.ringDrops then (if dead then s else { s with fab := f.setRing (s.selRing a) { f.ring (s.selRing a) with drops := 0 } })
  else if i == Reg.ringEccCorr then { s with fab := { f with eccCorr := 0 } }
  else if i == Reg.ringEccUncorr then { s with fab := { f with eccUncorr := 0 } }
  else if at_ i 0x240B 0x200 4 then { s with fab := { f with faults := f.faults.set (Fin.ofNat 4 ((i - 0x240B) / 0x200)) 0 } }
  else (fieldsOf i).foldl (fun t x => if x.kind == .rc then t.setFld i x.lsb x.width 0 else t) s

/-! The configuration bank. -/

/-- One pair of the configuration bank (R545, R596): `on` on a boot that includes POWER_ON, where retained fields load too.
The boot's own selection stands in agent slot 0, which the port has not yet used. -/
def State.bootPair (s : State) (on : Bool) (i v : Nat) : State :=
  let fs := fieldsOf i
  let store : Nat → Nat := fun w => storeBoot fs (fun f => on || !f.retained) w v
  if !fs.any (fun f => f.kind == .rw && (on || !f.retained)) || absentReg s.part.variant i || (0x610 ≤ i && i < 0x618) || i == 0xA00
      || s.writeVoid i v then s
  else if i == 0x600 then s.setAg 0 fun g => { g with sel := BitVec.ofNat 16 (v % 512) }
  else if i == 0x601 then s.setAg 0 fun g => { g with addr := BitVec.ofNat 16 v }
  else if i == Reg.ringCfg then s.ringAlloc 0 (some (v % 16)) none
  else if i == Reg.ringBase then s.ringAlloc 0 none (some (v % 4096))
  else if i == Reg.ringMode then s.ringMode 0 v
  else if i == Reg.ringWmark then s.ringWmark 0 v
  else if 0x200 ≤ i && i < 0x400 then s.writeRoute (i - 0x200) v
  else if i == Reg.chgChem then s.writeChem v
  else
    let w := clearBits (store (s.reg i)) (absentBits s.part.variant i)
    (s.setReg i (if at_ i 0x1701 0x200 2 then putBits w 5 1 1 else w)).keepOrders s [i]

def State.bootPairs (s : State) (on : Bool) : List Byte → State
  | a :: b :: c :: d :: rest => (s.bootPair on (leNat [a, b]) (leNat [c, d])).bootPairs on rest
  | _ => s

/-- The pairs of the bank in block b (R545); the boot's selection is discarded at the end. -/
def State.loadBank (s : State) (on : Bool) (b n : Nat) : State :=
  let bs := (s.storePages (b * 256 + 1) ((4 * n + 255) / 256)).take (4 * n)
  (s.bootPairs on bs).setAg 0 fun _ => SerAgent.init

/-! Fetches. -/

/-- Agent a fetches register i, `first` of its read: the word, and what the fetch takes (R416, R420, R472, R505). -/
def State.fetchReg (s : State) (a : Agent) (i : Nat) (first : Bool) : State × Nat :=
  if !implemented i || absentReg s.part.variant i || hiddenFrom a i then (s, 0)
  else
    let s1 := if at_ i 0x2400 0x200 4 then s.claimBy a else if i == Reg.ringData && first then s.dataRead a else s
    let word := match (s1.ser.ag.get a).latches.find? (·.1 == i) with
      | some l => l.2.toNat
      | none => s1.peek a i
    let s2 := (latchedBy i).foldl (fun t j =>
      t.setAg a fun g => { g with latches := g.latches.filter (·.1 != j) ++ [(j, BitVec.ofNat 16 (s1.peek a j))] }) s1
    (s2.readClear a i, word)

end Sys2Proof.Machine
end

