-- ==== Sys2Proof/Machine/Serial.lean ====
section
/-! DEFINITION. The transactions of the serial port: window writes and reads, commands, PEC and the order of refusals (11). A
transaction of an agent is one step, as its STOP leaves it; `ser.reply` holds the bytes the port put on the bus. -/

namespace Sys2Proof.Machine

/-- Address byte of agent slot a, read or write (R59, R410). -/
def State.addrByte (s : State) (a : Agent) (read : Bool) : Byte := BitVec.ofNat 8 (2 * (s.base + a.val) + b2n read)

/-- The agent slot that a 7-bit address reaches; the port answers at no other address but the Alert Response Address
(R406, R408, R410). -/
def State.slotAt (s : State) (addr : Nat) : Option Agent :=
  if s.base ≤ addr && addr < s.base + 4 then some (Fin.ofNat 4 (addr - s.base)) else none

/-- A transaction addressed to agent slot a: outside ACTIVE it is not acknowledged (R82, R440). What it puts on the bus is
kept, the bus is free after it, and calls that it has answered end. -/
def State.transact (s : State) (f : State → State × List Byte) : Out :=
  .next (if !s.active then s
    else
      let r := f s
      if r.1.active then ({ r.1 with ser := { r.1.ser with reply := r.2, acked := true, frame := .none, busBusy := false } } : State).attnSettle
      else r.1)

/-! PEC. -/

/-- The last byte of a write does not match the PEC of what came before it (R428, R429). -/
def State.pecWrong (s : State) (a : Agent) (bytes : List Byte) : Bool :=
  s.pecOn a && bytes.getLast? != some (pec (s.addrByte a false :: bytes.dropLast))

/-- R429: the transaction is discarded and counted; SER_PEC_ERR_n posts when PEC_ERR rises (R457). -/
def State.pecError (s : State) (a : Agent) : State :=
  let i := Reg.serAgtStat a.val
  (((s.setFlag i 5 true).bump (Reg.serAgtPecerrs a.val) 1).setStatus a 3).postIf (!s.flag i 5) (420 + a.val)

/-- What a write carries before its PEC byte. -/
def State.body (s : State) (a : Agent) (bytes : List Byte) : List Byte := if s.pecOn a then bytes.dropLast else bytes

/-- What a read of n bytes shows: the data, the PEC byte of the whole transaction when PEC is on, then 0xFF (R423, R430). -/
def State.shown (s : State) (a : Agent) (written data : List Byte) (n : Nat) : List Byte :=
  let head := if written.isEmpty then [] else s.addrByte a false :: written
  let all := if s.pecOn a then data ++ [pec (head ++ s.addrByte a true :: data)] else data
  (all ++ List.replicate n 0xFF).take n

/-! Window writes. -/

/-- Pairs of data bytes as registers, low byte first; a final odd byte is discarded (R415, R417). -/
def dataWords : List Byte → List Nat
  | l :: h :: rest => leNat [l, h] :: dataWords rest
  | _ => []

/-- The last value of place k of the write page among words. -/
def lastOfPlace (ws : List Nat) (k : Nat) : Nat :=
  match ws[16 * ((ws.length - 1 - k) / 16) + k]? with
  | some v => v
  | none => 0

/-- The register writes of a page from index p (R417). -/
def pageWrites (p : Nat) (ws : List Nat) : List (Nat × Nat) :=
  (List.range (min 16 ws.length)).map fun k => ((p + k) % 16384, lastOfPlace ws k)

/-- The pointer that b0 and b1 spell (R414). -/
def pointerOf (b0 b1 : Byte) : Nat := b0.toNat % 64 * 256 + b1.toNat

/-- Why one register of a transaction is refused (R431 to R433, R436). -/
inductive Refused where
  | no | pec | rights
deriving DecidableEq, Repr

def State.writeRefused (s : State) (a : Agent) (i : Nat) : Refused :=
  if s.pecMissing a (i / 256) then .pec
  else if !s.canWrite a (i / 256) then .rights
  else match ownerOf i with
    | some n => if n == a then .no else .rights
    | none => .no

def State.readRefused (s : State) (a : Agent) (i : Nat) : Refused :=
  if s.pecMissing a (i / 256) then .pec else if s.canRead a (i / 256) then .no else .rights

/-- What the refusals of a transaction leave behind: the flags, the first denied access, the status (R427, R431, R433). -/
def State.settleRefusals (s : State) (a : Agent) (pec : Bool) (denied : Option Nat) : State :=
  let s1 := match denied with | some i => s.denied a i | none => s
  if pec then (s1.pecRefused a).setStatus a 4 else s1.setStatus a (if denied.isSome then 2 else 0)

/-- A window write's commit at STOP (R418, R419). -/
def State.windowWrite (s : State) (a : Agent) (p : Nat) (data : List Byte) : State :=
  let words := dataWords data
  let ws := pageWrites p words
  let granted := ws.filter fun w => s.writeRefused a w.1 == .no
  let s1 := (s.setAg a fun g => { g with ptr := (p + words.length % 16) % 16384 }).commit a granted
  if !s1.active then s1
  else s1.settleRefusals a (ws.any fun w => s.writeRefused a w.1 == .pec) ((ws.find? fun w => s.writeRefused a w.1 == .rights).map (·.1))

/-- R414, R417 to R419, R429, R642. -/
def execWindowWrite (a : Agent) (bytes : List Byte) (s : State) : Out :=
  s.transact fun s =>
    (if bytes.length < 2 then s.setStatus a 0
     else if s.pecWrong a bytes then s.pecError a
     else match s.body a bytes with
       | b0 :: b1 :: data => s.windowWrite a (pointerOf b0 b1) data
       | _ => s.setStatus a 0, [])

/-! Window reads. -/

/-- What a fetch loop has gathered. -/
structure Fetched where
  st : State
  bytes : List Byte

/-- A refusal of register p in a read: its flag, and the status where it stands higher (R427, R431, R433). -/
def State.refuseRead (s : State) (a : Agent) (p : Nat) : Refused → State
  | .no => s
  | .pec => (s.pecRefused a).setStatus a 4
  | .rights => let t := s.denied a p; if s.fld (Reg.serAgtStat a.val) 0 4 == 4 then t else t.setStatus a 2

/-- A pop of RING_DATA0 that R496 or R497 refuses. -/
def State.popDenied (s : State) (a : Agent) : Bool :=
  let k := s.selRing a
  !s.rawSel a && !absentRing s.part.variant k && agentsPop k && !s.mayPop a k

/-- n registers from index p, each checked for itself; the pointer goes with them (R416, R419). -/
def fetchLoop (a : Agent) (first : Bool) : Nat → Nat → Fetched → Fetched
  | 0, _, r => r
  | n + 1, p, r =>
    let next := (p + 1) % 16384
    let t := r.st.setAg a fun g => { g with ptr := p }
    match t.readRefused a p with
    | .no =>
      let den := p == Reg.ringData && first && t.popDenied a
      let (s1, w) := t.fetchReg a p first
      fetchLoop a false n next ⟨s1.when den (·.refuseRead a p .rights), r.bytes ++ leBytes 2 w⟩
    | x => fetchLoop a false n next ⟨t.refuseRead a p x, r.bytes ++ [0, 0]⟩

/-- n registers are fetched from index p for a read of `clocked` bytes; the status is that of the read from its start. -/
def State.windowRead (s : State) (a : Agent) (written : List Byte) (p n clocked : Nat) : State × List Byte :=
  let r := fetchLoop a true n p ⟨s.setStatus a 0, []⟩
  (r.st.setAg a fun g => { g with ptr := (p + n) % 16384 }, s.shown a written r.bytes clocked)

/-- How many registers a read of `clocked` bytes fetches; with PEC on never more than N (R416, R430). -/
def State.fetchCount (s : State) (a : Agent) (n clocked : Nat) : Nat :=
  if s.pecOn a then min n ((clocked + 1) / 2) else (clocked + 1) / 2

/-- N of the third write byte (R430). -/
def readCount : List Byte → Nat
  | _ :: _ :: b :: _ => if b.toNat == 0 || 128 < b.toNat then 128 else b.toNat
  | _ => 1

/-- R412, R416, R419, R430. A write part without b1 leaves the pointer where it was. -/
def execWindowRead (a : Agent) (bytes : List Byte) (clocked : Nat) (s : State) : Out :=
  s.transact fun s =>
    let p := match bytes with
      | b0 :: b1 :: _ => pointerOf b0 b1
      | _ => (s.ser.ag.get a).ptr
    s.windowRead a bytes p (s.fetchCount a (readCount bytes) clocked) clocked

/-- A current-pointer read; one of B+0 whose START falls together with an attention START is an attention frame, and the port
completes that (R450). -/
def execCurrentPointerRead (a : Agent) (clocked : Nat) (s : State) : Out :=
  s.transact fun s =>
    match s.ser.frame, a.val with
    | .attention m, 0 => (s, ([BitVec.ofNat 8 m] ++ List.replicate clocked 0xFF).take clocked)
    | _, _ => s.windowRead a [] (s.ser.ag.get a).ptr (s.fetchCount a 1 clocked) clocked

/-! Commands. -/

/-- A command's refusal by the bank that governs it; the access is recorded as the command's code (R431 to R434). -/
def State.cmdRefused (s : State) (a : Agent) (bank : Nat) (write : Bool) : Refused :=
  if s.pecMissing a bank then .pec else if (if write then s.canWrite a bank else s.canRead a bank) then .no else .rights

def State.refuseCmd (s : State) (a : Agent) (code : Nat) : Refused → State
  | .no => s
  | .pec => (s.pecRefused a).setStatus a 4
  | .rights => (s.denied a (0x8000 + code)).setStatus a 2

/-- A command that writes: its length, its rights, then what it does with its bytes (R423, R426, R427). -/
def State.writeCommand (s : State) (a : Agent) (code bank : Nat) (tx : CmdTx) (lenOk : List Byte → Bool) (f : State → List Byte → State) : Out :=
  s.transact fun s =>
    match tx.clocked with
    | some n => (s.setStatus a 5, List.replicate n 0xFF)
    | none =>
      let bytes := BitVec.ofNat 8 code :: tx.written
      let body := (s.body a bytes).drop 1
      (if s.pecWrong a bytes then s.pecError a
       else if !lenOk body then s.setStatus a 5
       else match s.cmdRefused a bank true with
         | .no => f s body
         | r => s.refuseCmd a code r, [])

/-- A command that reads: `zero` is what a refused read shows, `data` what it shows, `f` its effect once the first byte is
acknowledged (R423, R426, R434). -/
def State.readCommand (s : State) (a : Agent) (code bank : Nat) (tx : CmdTx) (zero data : List Byte) (f : State → State) : Out :=
  s.transact fun s =>
    let bytes := BitVec.ofNat 8 code :: tx.written
    match tx.clocked with
    | none => (if s.pecWrong a bytes then s.pecError a else s.setStatus a 5, [])
    | some n =>
      if !tx.written.isEmpty then (s.setStatus a 5, List.replicate n 0xFF)
      else match s.cmdRefused a bank false with
        | .no => ((if 2 ≤ n then f s else s).setStatus a 0, s.shown a bytes data n)
        | r => (s.refuseCmd a code r, s.shown a bytes zero n)

/-- The bank of agent n's claim registers. -/
def ownBank (a : Agent) : Nat := 0x24 + 2 * a.val

def execSummary (a : Agent) (tx : CmdTx) (s : State) : Out :=
  s.readCommand a 0x01 (ownBank a) tx [0, 0] (leBytes 2 (s.summary a)) id

def execIdent (a : Agent) (tx : CmdTx) (s : State) : Out :=
  s.readCommand a 0x02 0 tx [0] (8 :: [Reg.sysId, Reg.sysRev, Reg.sysUnits, Reg.sysStraps].flatMap fun i => leBytes 2 (s.peek a i)) id

/-- R427: always permitted, and the status stays. -/
def execStatus (a : Agent) (tx : CmdTx) (s : State) : Out :=
  s.transact fun s =>
    (s, match tx.clocked with
      | none => []
      | some n => if tx.written.isEmpty then s.shown a [0x03] (leBytes 1 (s.fld (Reg.serAgtStat a.val) 0 4)) n else List.replicate n 0xFF)

def execPendingCmd (a : Agent) (tx : CmdTx) (s : State) : Out :=
  s.readCommand a 0x04 1 tx [0] (leBytes 1 (s.peek a Reg.serPending % 16)) id

/-- R472 to R474, R426. -/
def execClaim (a : Agent) (tx : CmdTx) (s : State) : Out :=
  s.readCommand a 0x10 (ownBank a) tx [0] (8 :: (claimRec (best (s.claimable a))).bytes) fun s => s.claimBy a

/-- R475 to R477. -/
def execComplete (a : Agent) (tx : CmdTx) (s : State) : Out :=
  s.writeCommand a 0x11 (ownBank a) tx (·.length == 2) fun s b =>
    if 511 < leNat b then s.setStatus a 6 else (s.completeBy a (leNat b)).setStatus a 0

/-- R424, R459. -/
def execDoorbell (a : Agent) (tx : CmdTx) (s : State) : Out :=
  s.writeCommand a 0x12 4 tx (·.length == 1) fun s b =>
    if 31 < leNat b then s.setStatus a 6 else (s.ringDoorbell a (leNat b)).setStatus a 0

/-- A block of lo to hi bytes behind its count byte. -/
def blockOk (lo hi : Nat) : List Byte → Bool
  | c :: data => c.toNat == data.length && decide (lo ≤ data.length ∧ data.length ≤ hi)
  | [] => false

/-- R38, R425, R495. -/
def execRingPush (a : Agent) (tx : CmdTx) (s : State) : Out :=
  s.writeCommand a 0x20 6 tx (fun b => blockOk 17 241 b && b.length % 16 == 2) fun s b =>
    let k := leNat (slice b 1 1)
    let es := (List.range ((b.length - 2) / 16)).map fun i => slice b (2 + 16 * i) 16
    if absentRing s.part.variant k then s.setStatus a 1
    else if !agentsPush k then s.setStatus a 6
    else if s.ringFits k es.length then (s.agentPush a k es).setStatus a 0
    else s.setStatus a 7

/-- The items a pop of at most `max` entries looks at: place, size, and an uncorrectable word among those to take. -/
def popLooks (f : Fabric) (r : Ring) : List Nat → Nat → Nat → List (Nat × Nat × Option Nat)
  | [], _, _ => []
  | n :: ns, off, max =>
    if max == 0 then []
    else
      match (List.range (min n max)).find? fun i => f.bad.contains (r.word (off + i)) with
      | some i => (off, n, some (r.word (off + i))) :: popLooks f r ns (off + n) max
      | none => (off, n, none) :: popLooks f r ns (off + n) (max - min n max)

/-- R426: the count byte is not acknowledged; only the uncorrectable items go, and the others close up. -/
def State.discardBad (s : State) (k max : Nat) : State :=
  let r := s.fab.ring k
  let looks := popLooks s.fab r r.items 0 max
  let bad := looks.filterMap fun x => x.2.2
  let kept := looks.filter fun x => x.2.2.isNone
  let from_ := kept.flatMap fun x => (List.range x.2.1).map fun i => r.word (x.1 + i)
  let lost := ((looks.filter fun x => x.2.2.isSome).map fun x => x.2.1).sum
  if lost == 0 then s
  else
    let r1 := { r with head := (r.head + lost) % r.cap, items := kept.map (fun x => x.2.1) ++ r.items.drop looks.length,
                       drops := satAdd 65535 r.drops bad.length }
    let f := s.fab.putEntries r1 0 (from_.map s.fab.getWord)
    let still := (List.range from_.length).filterMap fun i => if s.fab.bad.contains (from_.getD i 0) then some (r1.word i) else none
    (({ s with fab := ({ f with bad := f.bad ++ still.filter (!f.bad.contains ·) } : Fabric).setRing k r1.rearm } : State).eccFoundAll bad)

/-- R423 to R426, R495 to R497. -/
def execRingPop (a : Agent) (tx : CmdTx) (s : State) : Out :=
  s.transact fun s =>
    let bytes := BitVec.ofNat 8 0x21 :: tx.written
    let k := leNat (slice tx.written 1 1)
    let max := leNat (slice tx.written 2 1)
    match tx.clocked with
    | none => (if s.pecWrong a bytes then s.pecError a else s.setStatus a 5, [])
    | some n =>
      let none_ := s.shown a bytes [0] n
      if !(blockOk 2 2 tx.written) then (s.setStatus a 5, List.replicate n 0xFF)
      else match s.cmdRefused a 6 true with
        | .no =>
          if max == 0 || 15 < max then (s.setStatus a 6, List.replicate n 0xFF)
          else if absentRing s.part.variant k then (s.setStatus a 1, none_)
          else if !agentsPop k then (s.setStatus a 6, none_)
          else if !s.mayPop a k then (s.refuseCmd a 0x21 .rights, none_)
          else
            let (s1, es) := s.agentPop k max
            let out := s.shown a bytes (BitVec.ofNat 8 (16 * es.length) :: es.flatten) n
            ((if 2 ≤ n then s1 else if n == 1 then s.discardBad k max else s).setStatus a 0, out)
        | r => (s.refuseCmd a 0x21 r, none_)

/-- R536, R537: a request is queued, at most four of an agent. -/
def execTkrReq (a : Agent) (tx : CmdTx) (s : State) : Out :=
  s.writeCommand a 0x30 9 tx (blockOk 1 255) fun s b =>
    let q := s.tkr.queue.get a
    if 4 ≤ s.tkr.held a then s.setStatus a 7
    else ({ s with tkr := { s.tkr with queue := s.tkr.queue.set a (q ++ [⟨s.tkr.reqNo, b.drop 1⟩]), reqNo := s.tkr.reqNo + 1 } } : State).setStatus a 0

/-! Transactions without effect, and broken ones. -/

/-- R411 and the framing table. -/
def execQuickCommand (_a : Agent) (_read : Bool) (s : State) : Out := s.transact fun s => (s, [])

/-- A first byte that the port acknowledges: a window pointer, or an implemented command code (First-byte decode, R422). -/
def firstByteAcked (b : Byte) : Bool :=
  (0x80 ≤ b.toNat && b.toNat < 0xC0) || [0x01, 0x02, 0x03, 0x04, 0x10, 0x11, 0x12, 0x20, 0x21, 0x30].contains b.toNat

/-- R411: the rest of the transaction is ignored. -/
def execUnackedFirstByte (_a : Agent) (b : Byte) (s : State) : Out :=
  .next (if s.active && !firstByteAcked b then { s with ser := { s.ser with reply := [], acked := false, frame := .none, busBusy := false } } else s)

/-- R413. -/
def execBusError (_a : Agent) (s : State) : Out :=
  s.transact fun s => ((s.bump Reg.serBusErrs 1).post 430, [])

/-- R439. -/
def execBusTimeout (_a : Agent) (ms : Nat) (s : State) : Out :=
  s.transact fun s => (if s.flag Reg.serCfg 4 && decide (25 ≤ ms) then (s.bump Reg.serTimeouts 1).post 429 else s, [])

end Sys2Proof.Machine
end

