-- ==== Sys2Proof/Machine/Attention.lean ====
section
/-! DEFINITION. Calling an agent's attention: ALERT_N and the Alert Response Address, attention frames, notify frames (11). -/

namespace Sys2Proof.Machine

/-- An attention row: it acts in ACTIVE, after calls that are no longer due have ended. -/
def State.calling (s : State) (f : State → State) : Out := .next (if s.active then f s.attnSettle else s)

/-- ALERT_N goes low (R443). -/
def State.alertLow (s : State) : State := { s with ser := { s.ser with alert := true } }

/-- Agent a is called as its mode says; one that has fallen back is called by ALERT_N (R441 to R443, R448). -/
def State.callAgent (s : State) (a : Agent) : State :=
  let byAlert := s.agtMode a == 1 || (s.ser.ag.get a).fallback
  if s.agtMode a == 0 && !byAlert then s
  else
    let s1 := s.setAg a fun g => { g with called := true, want := !byAlert, tries := 0 }
    if byAlert then s1.alertLow else s1

/-- R442. -/
def execAttentionDue (a : Agent) (s : State) : Out :=
  s.calling fun s => if s.attnCall a && !(s.ser.ag.get a).called then s.callAgent a else s

/-- R442: `ms` since the repeat interval last began, with the call, a SUMMARY command, a claim of the agent, or a won ARA (R444). -/
def execAttentionRepeat (a : Agent) (ms : Nat) (s : State) : Out :=
  s.calling fun s => if (s.ser.ag.get a).called && decide (s.reg Reg.serRepeat ≤ ms) then s.callAgent a else s

/-! The Alert Response Address. -/

/-- R445: the answer is B << 1; a lower byte of another device on the bus wins. -/
def execAraRead (others : List Byte) (s : State) : Out :=
  s.calling fun s =>
    if !s.ser.alert then { s with ser := { s.ser with reply := [], acked := false, frame := .none, busBusy := false } }
    else
      let own : Byte := BitVec.ofNat 8 (2 * s.base)
      let won := others.all fun b => decide (own.toNat ≤ b.toNat)
      let out := if s.flag Reg.serCfg 5 then [own, pec [0x19, own]] else [own]
      { s with ser := { s.ser with alert := !won, reply := if won then out else [], acked := true, frame := .none, busBusy := false } }

/-! Frames. -/

/-- tBUF of SER_CFG.SPEED in nanoseconds (R446, R458). -/
def State.tBuf (s : State) : Nat := match s.fld Reg.serCfg 0 2 with | 0 => 4700 | 1 => 1300 | _ => 500

/-- The bus has been free long enough: tBUF, 50 us after a boot, 100 us after a lost arbitration or a NACK (R409, R446, R449,
R453). -/
def State.busFree (s : State) (ns : Nat) : Bool :=
  decide (s.tBuf ≤ ns) && (!s.ser.busBusy || decide (50000 ≤ ns)) && (!s.ser.backoff || decide (100000 ≤ ns))

/-- The lowest agent for which a frame is to be sent (R455). -/
def State.firstWanting (s : State) : Option Agent := fin4.find? fun a => (s.ser.ag.get a).want && s.attnCall a

/-- Mode-2 agents called in band (R446, step 5). -/
def State.bandMask (s : State) : Nat :=
  let b : Agent → Bool := fun a => s.agtMode a == 2 && !(s.ser.ag.get a).fallback && s.attnCall a
  Four.toNat ⟨b 0, b 1, b 2, b 3⟩

/-- The agents of a mask, changed. -/
def State.setMasked (s : State) (m : Nat) (f : SerAgent → SerAgent) : State :=
  fin4.foldl (fun t a => if bit m a.val then t.setAg a f else t) s

/-- R446: the frame starts; it answers every agent of its mask. -/
def execAttentionFrame (freeNs : Nat) (s : State) : Out :=
  s.calling fun s =>
    match s.firstWanting with
    | none => s
    | some a =>
      if s.agtMode a == 2 && s.busFree freeNs then
        let s1 := s.setMasked s.bandMask fun g => { g with want := false, called := true }
        { s1 with ser := { s1.ser with frame := .attention s.bandMask, backoff := false, busBusy := false,
                                       reply := [BitVec.ofNat 8 (2 * s.base + 1), BitVec.ofNat 8 s.bandMask] } }
      else s

/-- R448. -/
def execAttentionFallback (us : Nat) (s : State) : Out :=
  s.calling fun s =>
    match s.ser.frame with
    | .attention m =>
      if 50 ≤ us then
        let s1 := s.setMasked m fun g => { g with fallback := true, want := false }
        ({ s1 with ser := { s1.ser with frame := .none, alert := true, reply := [] } } : State).post 428
      else s
    | _ => s

/-- R449. -/
def execAttentionArbLoss (s : State) : Out :=
  s.calling fun s =>
    match s.ser.frame with
    | .attention m =>
      let s1 := s.setMasked m fun g => { g with want := true }
      { s1 with ser := { s1.ser with frame := .none, backoff := true, reply := [] } }
    | _ => s

/-- The bytes of a notify frame (R451). -/
def State.notifyBytes (s : State) (a : Agent) : List Byte :=
  let head := [BitVec.ofNat 8 (2 * s.fld (Reg.serAgtNotify a.val) 0 7), BitVec.ofNat 8 (2 * s.base)] ++ leBytes 2 (s.summary a)
  if s.pecOn a then head ++ [pec head] else head

/-- R451, R455. -/
def execNotifyFrame (a : Agent) (freeNs : Nat) (s : State) : Out :=
  s.calling fun s =>
    if s.firstWanting == some a && s.agtMode a == 3 && s.busFree freeNs then
      let s1 := s.setAg a fun g => { g with want := false }
      { s1 with ser := { s1.ser with frame := .notify a, backoff := false, busBusy := false, reply := s.notifyBytes a } }
    else s

/-- R452. -/
def execNotifyArbLoss (s : State) : Out :=
  s.calling fun s =>
    match s.ser.frame with
    | .notify a =>
      let s1 := s.setAg a fun g => { g with want := true }
      { s1 with ser := { s1.ser with frame := .none, backoff := true, reply := [] } }
    | _ => s

/-- R453: after three retries the agent falls back to ALERT_N. -/
def execNotifyNack (s : State) : Out :=
  s.calling fun s =>
    match s.ser.frame with
    | .notify a =>
      let n := (s.ser.ag.get a).tries
      let s1 : State := { s with ser := { s.ser with frame := .none, backoff := true, reply := [] } }
      if n < 3 then s1.setAg a fun g => { g with want := true, tries := n + 1 }
      else ((s1.setAg a fun g => { g with fallback := true, tries := 0 }).alertLow).post (424 + a.val)
    | _ => s

/-- R454. -/
def execNotifyStretchTimeout (ms : Nat) (s : State) : Out :=
  s.calling fun s =>
    match s.ser.frame with
    | .notify _ => if 25 ≤ ms then { s with ser := { s.ser with frame := .none, reply := [] } } else s
    | _ => s

end Sys2Proof.Machine
end

