-- ==== Sys2Proof/Machine/Life.lean ====
section
/-! DEFINITION. The passages between the states, the boot, the Keeper and the watchdog (03). -/

namespace Sys2Proof.Machine

/-! Power arrives and goes. -/

/-- The VSAFE and CHEM straps as the Keeper samples them (R61, R62, R64, R65). -/
def State.sampleStraps (s : State) (vsafe chem : Option Nat) : State :=
  let v := (strapCode vsafe).filter (· ≤ 7)
  let c := strapCode chem
  { s with straps := { s.straps with bad := v.isNone || c.isNone, vsafe := v.getD 0, chem := c.getD 0 }, regs := [] }

/-- The setpoints of a power path that has had none: the Hold defaults for its VSAFE target (R155). -/
def State.firstSetpoints (s : State) : State :=
  let h := Setpoints.init (vsafeTarget s.straps.vsafe)
  { s with pp := { s.pp with held := { h with lim := { h.lim with a0 := classLimit s.pp.poe.assigned } } }, cnv := { s.cnv with goal := h.tgt, tgt := h.tgt } }

/-- The inputs of a mask that this variant has. -/
def State.maskInputs (s : State) (m : BitVec 4) : List InputId :=
  InputId.all.filter fun i => m.getLsbD i.ix.val && (match i with
    | .c1 => s.part.variant.hasPort .c1
    | .c2 => s.part.variant.hasPort .c2
    | _ => true)

/-- R62, R72: from OFF, to HOLD when an input is valid, else to SHIP. -/
def execPowerOn (validMask : BitVec 4) (vsafe chem : Option Nat) (bats : Nat) (s : State) : Out :=
  .next (if s.mode != .off then s
    else
      let is := s.maskInputs validMask
      let s1 := is.foldl (fun t i => t.setValid i true) ((s.sampleStraps vsafe chem).firstSetpoints.seeVbat bats)
      if is.isEmpty then { s1 with mode := .ship, life := { s1.life with kind := .powerOn, causes := 1 } }
      else (s1.holdEntry .powerOn 1).powerUpPath)

/-- The supply of the Keeper: the higher of BATS and VBIAS (R48). -/
def keeperSupply (bats vbias : Nat) : Nat := max bats vbias

/-- R48, R72, R608: the higher of BATS and VBIAS is below the Keeper's falling threshold. What needs power is gone; the store,
its wear tables and the fuses stay. DESIGN CHOICE (log 43): R62 keeps the VSAFE, CHEM and ADR codes only until VKPR
collapses and says nothing of them in OFF; the model leaves the old codes standing there until the next sampling, and
nothing reads them before. -/
def execKeeperPowerLoss (bats vbias : Nat) (s : State) : Out :=
  .next (if Config.kprFall ≤ keeperSupply bats vbias then s else { State.reset with
    part := s.part, straps := s.straps, tkr := (s.tkr.broken s.arb.susp.toList).afterHold, cal := Cal.init s.part,
    life := { Life.init with fuseFloor := s.life.fuseFloor }, emg := { Emg.init with serial := s.emg.serial }, pending := s.pending,
    fab := { Fabric.init with stamp := s.fab.stamp }, free := s.free })

/-- R72, R83: an input becomes valid, or WAKE_N is low. -/
def execShipWake (input : Option InputId) (s : State) : Out :=
  .next (if s.mode != .ship then s
    else match input with
      | none => s.wake 1
      | some i => if s.eligible i then s.becomeValid i else s)

/-! Watchdog. -/

/-- The period of a channel in ms (03, Watchdog channels). -/
def State.wdgPeriod (s : State) : WdgCh → Nat
  | .s => 16 * 2 ^ s.fld Reg.wdgCfg 0 4
  | .e => 2 ^ s.fld Reg.wdgCfg 4 3

def State.wdgWarned (s : State) : WdgCh → Bool
  | .s => s.life.sWarned
  | .e => s.life.eWarned

/-- R98 to R100: a first period has ended without service. -/
def execWatchdogWarn (ch : WdgCh) (ms : Nat) (s : State) : Out :=
  .next (if s.active && s.life.armed && !s.wdgWarned ch && decide (s.wdgPeriod ch ≤ ms) then
      match ch with
      | .s => ({ s with life := { s.life with sWarned := true } } : State).post 32
      | .e => ({ s with life := { s.life with eWarned := true } } : State).post 33
    else s)

/-- R101: service ends the period in progress; after a warning it cancels the reset. -/
def execWatchdogService (ch : WdgCh) (s : State) : Out :=
  .next (if s.active && s.life.armed then
      (match ch with
       | .s => { s with life := { s.life with sWarned := false } }
       | .e => { s with life := { s.life with eWarned := false } })
    else s)

/-- The digital domain resets (R95, R102). -/
def State.watchdogFires (s : State) : State := (s.digitalDown.watchdogDown).holdEntry .watchdog 1

/-- R100: a second full period. -/
def execWatchdogReset (ch : WdgCh) (ms : Nat) (s : State) : Out :=
  .next (if s.active && s.life.armed && s.wdgWarned ch && decide (s.wdgPeriod ch ≤ ms) then s.watchdogFires else s)

/-- R72; charging stops (R95). -/
def execBrownout (s : State) : Out :=
  .next (if s.active then ({ s.digitalDown with chg := s.digitalDown.chg.stopped } : State).holdEntry .brownout 0x40 else s)

/-- R104: the TBO has been without an edge for 1 ms, which posts for each silence; a shorter time shows an edge, which ends
the silence before. -/
def execTboLost (us : Nat) (s : State) : Out :=
  .next (if s.active && s.life.armed then
      ({ s with life := { s.life with tboSilent := decide (1000 ≤ us) } } : State).postIf (decide (1000 ≤ us)) 33
    else s)

/-- R104: silent for one further period of channel E. -/
def execTboLostReset (ms : Nat) (s : State) : Out :=
  .next (if s.active && s.life.tboSilent && decide (s.wdgPeriod .e ≤ ms) then s.watchdogFires else s)

/-- R105. -/
def execLfoLost (us : Nat) (s : State) : Out :=
  .next (if s.mode != .off && !s.life.lfoBackup && decide (1000 ≤ us) then
      ({ s with life := { s.life with lfoBackup := true } } : State).post 34
    else s)

/-- R106. -/
def execLfoRestored (edges : Nat) (s : State) : Out :=
  .next (if 64 ≤ edges then { s with life := { s.life with lfoBackup := false } } else s)

/-! Wakes. -/

/-- R84. -/
def execWakeNLow (us : Nat) (s : State) : Out :=
  .next (if decide (10 ≤ us) && !s.life.pulse then s.wake 1 else s)

/-- R85, R86: `low` is WAKE_N 20 us after its release. -/
def execRemoteWakePulseEnd (low : Bool) (s : State) : Out :=
  .next (if !s.life.pulse then s
    else
      let s1 : State := { s with life := { s.life with pulse := false } }
      s1.when low (·.wake 1))

/-- R88: the TBO is not ready within 2 ms of the attempt's start, or VDDC not within 1 ms of TBO ready; the operands are the
times each has taken, ready or not. -/
def attemptFails (tboUs vddcUs : Nat) : Bool := decide (2000 < tboUs) || decide (1000 < vddcUs)

/-- R88 to R90: a retry waits, or after the third the wake has failed. -/
def execWakeAttemptFail (tboUs vddcUs vbat : Nat) (s : State) : Out :=
  .next (if s.mode != .hold || s.life.booted || s.life.wakeFailed || s.life.waiting || !attemptFails tboUs vddcUs then s
    else if s.life.attempts < 3 then { s with life := { s.life with attempts := s.life.attempts + 1, waiting := true } }
    else ({ s with life := { s.life with attempts := 0, wakeFailed := true } } : State).holdDefaults vbat |>.bump8 Reg.kprWakeFails)

/-- R89. -/
def execWakeRetry (ms : Nat) (s : State) : Out :=
  .next (if s.life.waiting && decide (10 ≤ ms) then { s with life := { s.life with waiting := false } } else s)

/-- R91. -/
def execWakeFailRetry (secs : Nat) (s : State) : Out :=
  .next (if s.mode == .hold && s.life.wakeFailed && decide (60 ≤ secs) then s.wake 5 else s)

/-- R93: the boot has not completed within tHOLD_MAX. -/
def execHoldTimeout (ms vbat : Nat) (s : State) : Out :=
  .next (if s.mode == .hold && !s.life.defaults && decide (500 ≤ ms) then s.holdDefaults vbat else s)

/-- R114: the alarm fires; in HOLD it merges into the boot (R83). -/
def execRtcAlarm (s : State) : Out :=
  .next (if s.mode != .off && s.flag Reg.kprCfg 1 && s.rtc == s.reg32 Reg.kprAlarm then
      let s1 := (s.setFlag Reg.kprStat 2 true).setFlag Reg.kprCfg 1 false
      if s.mode == .ship then s1 else (s1.wake 5).post 38
    else s)

/-- `KPR_RTC0` and `KPR_RTC1` written. -/
def execRtcSet (secs : Word32) (s : State) : Out :=
  .next (if s.active then (s.setReg32 Reg.kprRtc secs.toNat).setFlag Reg.kprStat 1 true else s)

/-- R341: VBUS above 4.0 V on a port that presents Rd. -/
def execVbusWake (p : Port) (mv : Nat) (s : State) : Out :=
  let c := s.pdp.get p
  .next (if (s.mode == .ship || s.mode == .dormant) && s.part.variant.hasPort p && c.role == .none && (c.roleIn == 2 || c.roleIn == 3)
      && decide (4000 < mv) then s.wake 3
    else s)

/-! Boot, steps 1 to 4: the protection record. -/

/-- Registers from index i on. -/
def State.setFrom (s : State) (i : Nat) : List Nat → State
  | [] => s
  | v :: vs => (s.setReg i v).setFrom (i + 1) vs

/-- The stage slot, block 34 (R641): an accepted record is copied to the slot that is not active and activated; where the copy
cannot be programmed and verified (R541) the slot in force stays, the floor does not move and the record is rejected. -/
def State.stageBoot (s : State) (copyOk : Bool) : State :=
  let pg := 34 * 256
  if s.tkr.programmed pg then
    let v := if s.tkr.isBad pg then (Config.rawByte (256 * pg + 6) s.free).toNat else recVersion (s.page pg)
    let s1 := match s.slotRecord 34 with
      | some r =>
        let target := if s.activeProt == some 32 then 33 else 32
        if !copyOk then
          let t := (s.eraseBlk target).writeFail target
          { t with life := { t.life with stage := some (false, v) } }
        else
          let t := (((s.eraseBlk target).program (target * 256) r)).activate target (65 - target)
          { t with life := { t.life with fuseFloor := max t.life.fuseFloor v, stage := some (true, v) } }
      | none => { s.nextFree with life := { s.life with stage := some (false, v) } }
    s1.eraseBlk 34
  else if s.tkr.inUse 34 then s.eraseBlk 34 else s

/-- The 16-bit words of a record from offset o. -/
def recWords (r : List Byte) (o n : Nat) : List Nat := (List.range n).map fun k => leNat (slice r (o + 2 * k) 2)

/-- The readback of an applied record (R107, R113). -/
def State.applyRecord (s : State) (r : List Byte) (slot : Nat) : State :=
  let ws := recWords r 0x10 32 ++ recWords r 0x50 4 ++ recWords r 0x58 4
    ++ [leNat (slice r 0x60 1) + 256 * leNat (slice r 0x61 1), leNat (slice r 0x62 2)] ++ recWords r 0x64 2
  ((s.setFrom Reg.sysRights ws).setReg Reg.wdgCfg (leNat (slice r 0x68 1) + 16 * leNat (slice r 0x69 1))).setReg Reg.sysBoot
    (256 * recVersion r + slot)

/-- Rights of agent n in the fallback, word by word (R110): 0x00, 0x06, 0x09, 0x0A and its own two AGT banks are read-write. -/
def fallbackRights (n : Nat) : List Nat :=
  let word : Nat → Nat := fun w => ((List.range 8).map fun j =>
    let b := 8 * w + j
    (if b == 0 || b == 6 || b == 9 || b == 10 || b == 0x24 + 2 * n || b == 0x25 + 2 * n then 2 else 1) * 4 ^ j).sum
  (List.range 8).map word

/-- The fallback's readback (R110, R602). -/
def State.applyFallback (s : State) : State :=
  (s.setFrom Reg.sysRights (((List.range 4).map fallbackRights).flatten ++ [0, 0, 0, 0, 0, 0, 450, 1600, 0x000F, 0, 0, 0])).setReg Reg.sysBoot 0

/-- Protection at step 4 (R108 to R110, R641). -/
def State.protect (s : State) (copyOk : Bool) : State :=
  let s1 := s.stageBoot copyOk
  match s1.activeProt with
  | some b => s1.applyRecord (s1.page (b * 256)) (b - 31)
  | none => s1.applyFallback

/-! Boot, step 5. -/

/-- The active configuration bank (R81, R545). -/
def State.applyBank (s : State) (on : Bool) : State :=
  match s.activeBank with
  | some b => (match s.bankPairs b with
    | some n => (s.loadBank on b n).setFld Reg.sysBoot 2 2 (b - 34)
    | none => s)
  | none => s

/-- The power path passes from held setpoints to register values (R80, R111, R124, R125); a connected input that they do not
allow is left (R130, R141, R142). -/
def State.handOver (s : State) : State :=
  let s1 := s.limitVsys.setAlloc
  let s2 := s1.setPoe { s1.pp.poe with lim := min (s1.reg Reg.pthIlimPoe) (classLimit s1.pp.poe.assigned) }
  let regsNow := ({ s2 with mode := .active } : State).captureHeld.pp.held
  (({ s2 with pp := { s2.pp with held := regsNow }, life := { s2.life with defaults := false } } : State).retarget.leaveIneligible).postIf
    s2.pp.poe.clsBad 101

/-- Isolation is lifted, and a port converter that stopped may run again (R193, R204). -/
def State.liftFaults (s : State) : State :=
  let s1 := s.restore (fin4.filter fun p => (s.cnv.phases.get p).st == .isolated)
  let s2 := s1.setPhases s1.settled
  (s2.clearX .c1).clearX .c2

/-- A port at step 5: a detach of the Hold is acted on (R369), a source that the record no longer admits stops sourcing (R344),
and an unattached port takes its settings. -/
def State.bootPort (s : State) (p : Port) : State :=
  let c := s.prt p
  if !s.part.variant.hasPort p then s
  else if c.detachHold then s.detached p
  else if c.role == .source && !s.mayBeSource then (s.xOff p).unattach p
  else if c.role == .none then s.takeSettings p
  else s

/-- The charger at a boot: IDLE but from DORMANT, where charging went on or stopped at a bound (R239, R240, R243); C_L from
TESTS (R250), what the thermistors had shown is forgotten (R8), a change of it as anywhere (R218, R253); VALID goes with a power-on, a watchdog reset and SHIP (R246). -/
def State.bootCharge (s : State) : State :=
  let k := s.life.kind
  let st : ChgState := if k != .dormant then .idle else if s.chg.dormantStop then .suspend else s.chg.st
  let cap := s.storedCap
  let c : Chg := { s.chg with st := st, dormantStop := false, zone := .normal, absent := false, ntcFault := false, boardHot := false,
                              measured := false,
                              float := s.chg.float && st == .maintain, limited := s.chg.limited && st.charging, halfRate := s.chg.halfRate && st.charging }
  let serial := match s.latestRecord carriesCap with
    | some r => recSerial r.2
    | none => 0
  let s1 := (({ s with chg := c } : State).learnCap cap serial).setReg Reg.chgQrem (min (s.reg Reg.chgQrem) cap)
  if k == .dormant || k == .brownout then s1 else s1.setFlag Reg.chgSoc 15 false

/-- Steps 4 and 5 over the sampled levels. -/
def State.bootSteps (s : State) (sns : Eight Nat) (vbat : Nat) (copyOk : Bool) : State :=
  let s1 := (((s.seeVbat vbat).bootRegs.protect copyOk).applyBank (s.life.causes.getLsbD 0)).bootCharge
  let s2 := ((s1.handOver).liftFaults).adopt sns
  let s3 := (s2.bootPort .c1).bootPort .c2
  { s3 with life := { s3.life with booted := true } }

/-- The address straps sampled (R57 to R59). -/
def State.sampleAdr (s : State) (adr1 adr0 : AdrTie) : State :=
  { s with straps := { s.straps with adr := 3 * levelOf (adrLevel (2 * s.free) adr1) + levelOf (adrLevel (2 * s.free + 1) adr0) },
           free := s.free + 1 }

/-- R58, R83, and the steps 1 to 5 of the boot. -/
def execBoot (adr1 adr0 : AdrTie) (sns : Eight Nat) (vbat : Nat) (copyOk : Bool) (s : State) : Out :=
  .next (if s.mode != .hold || s.life.booted || s.life.wakeFailed || s.life.waiting then s
    else (s.sampleAdr adr1 adr0).bootSteps sns vbat copyOk)

/-! Boot, step 6. -/

/-- The state behind a posting of the absence, over the parts that no boot settles: those of the power path. -/
def PowerPath.holds (p : PowerPath) (v : Seen) (x : Nat) : Bool :=
  let valid := fun j : Fin 4 => p.valid.get j != v.valid.get j
  match x with
  | 64 => p.conn != v.conn
  | 66 => p.conn.isNone
  | 67 => p.ilim
  | 68 => p.vfloor
  | 69 => p.supplement
  | 70 => p.vsysLow
  | 71 => p.linear
  | 72 => valid 0
  | 73 => valid 1
  | 74 => valid 2
  | 75 => valid 3
  | 76 => p.ov.a0
  | 77 => p.ov.a1
  | 78 => p.ov.a2
  | 79 => p.ov.a3
  | 80 => p.cutoff
  | 82 => true
  | 84 => p.inelig
  | 96 => p.poe.pg != v.pg
  | 97 => p.poe.demoted
  | 98 => p.poe.alloc != v.alloc
  | 99 => p.poe.mps
  | 100 => p.poe.hsFault
  | 101 => p.poe.clsBad
  | _ => false

/-- The state behind a phase's posting: its failures while it is isolated, and RESTORED while it is not. -/
def PhaseCell.holds (c : PhaseCell) (k : Nat) : Bool :=
  match k with
  | 0 => c.st == .isolated && c.sense
  | 1 => c.st == .isolated && c.runaway
  | 2 => c.st == .isolated && c.ot
  | 3 => c.st == .isolated
  | 4 => c.st != .isolated
  | _ => false

/-- The same for a port converter. -/
def XCell.holds (c : XCell) (k : Nat) : Bool :=
  match k with
  | 0 => c.sense
  | 1 => c.runaway
  | 2 => c.ot
  | 3 => c.stopped
  | 4 => !c.stopped
  | 6 => c.ovp
  | _ => false

/-- The state behind a converter's posting. -/
def Cnv.holds (c : Cnv) (v : Seen) (x : Nat) : Bool :=
  if x < 160 then (c.phases.get (Fin.ofNat 4 ((x - 128) / 8))).holds (x % 8)
  else if x < 168 then c.x.p1.holds (x - 160)
  else if x < 176 then c.x.p2.holds (x - 168)
  else match x with
    | 176 => c.healthyCount == 1
    | 177 => c.healthyCount == 0
    | 178 => c.rsInt
    | 179 => !c.rsInt
    | 180 => c.ilim
    | 181 => c.ov
    | 182 => c.rev
    | 183 => !c.rev
    | 184 => c.runs != v.runs
    | _ => false

/-- A state that arose in the absence still holds (R158, R207); what is no state of those chapters posts in any case. -/
def State.stillHolds (s : State) (x : Nat) : Bool :=
  let v := s.life.seen
  if x == 34 then s.life.lfoBackup
  else if 64 ≤ x && x < 128 then s.pp.holds v x
  else if 128 ≤ x && x < 192 then s.cnv.holds v x
  else match x with
    | 192 => s.chg.st != v.chg
    | 193 => s.chg.st == .done
    | 194 => s.chg.st == .fault
    | 195 => s.chg.st == .suspend
    | 197 => s.chg.ntcFault
    | 198 => s.chg.absent
    | 199 => !s.chg.absent
    | _ => true

/-- Ascending order. -/
def insertAsc (n : Nat) : List Nat → List Nat
  | [] => [n]
  | m :: ms => if n ≤ m then n :: m :: ms else m :: insertAsc n ms

def ascending (xs : List Nat) : List Nat := xs.foldr insertAsc []

/-- The sources of the Keeper watch hits of the absence, in entry order, each once (R487). -/
def State.watchPosts (s : State) : List Nat :=
  ((ascending s.fab.bootPosts).map (· % 512)).foldl (fun l x => if l.contains x then l else l ++ [x]) []

/-- The boot postings in the order of R79. -/
def State.bootPostings (s : State) : List Nat :=
  let hits := s.watchPosts
  [35] ++ (if s.fallback then [36] else [])
    ++ (match s.life.stage with | some (true, _) => [456] | some (false, _) => [457] | none => [])
    ++ (if s.fld Reg.sysBoot 2 2 == 0 then [37] else [])
    ++ (if s.reg Reg.kprWakeFails != 0 then [44] else [])
    ++ hits ++ (ascending s.fab.absent).filter fun x => s.stillHolds x && !hits.contains x

/-- The JOURNAL entries of a boot (R549). -/
def State.bootJournal (s : State) : State :=
  let s1 := s.journal 0x0001 (leBytes 2 (s.reg Reg.kprWakeCause) ++ leBytes 2 (s.reg Reg.sysBoot) ++ leBytes 1 (s.reg Reg.kprWakeFails)
    ++ leBytes 1 (b2n s.rtcValid))
  match s.life.stage with
  | some (ok, v) => s1.journal 0x0002 (leBytes 1 (if ok then 1 else 2) ++ leBytes 1 v)
  | none => s1

/-- R288: a test that a Hold cut off is closed with outcome INTERRUPTED; what it had measured is lost. -/
def State.closeInterrupted (s : State) : State :=
  match s.openRecord with
  | none => s
  | some r =>
    let u := fun o n => leNat (slice r o n)
    let lost := fun o => (Config.lostField s.free o).toNat
    let cap := s.chg.capL
    let c : CloseData :=
      { tEnd := if s.rtcValid then s.rtc else 0, elapsed := 0xFFFFFFFF, tWarn := 0xFFFFFFFF, outcome := 7, rails := lost 0x2E, vbatMin := lost 0x32,
        vbatEnd := lost 0x34, ibatAvg := lost 0x36, qOut := lost 0x38 + 65536 * lost 0x3A, capBefore := cap, capAfter := cap,
        tempMin := lost 0x40, tempMax := lost 0x42, phases := s.cnv.healthy.toNat }
    let rec_ := s.signRecord 2 (u 7 1) (u 8 4) (u 0x12 1) (u 0x13 1) (u 0x14 4) (u 0x18 4) (u 0x20 4) (lost 0x30) (u 0x2D 1)
      (BitVec.ofNat 48 (u 0x46 6)) c
    let s1 := (({ s with emg := { s.emg with outcome := 7 } } : State).nextFree).commitRecord rec_
    (s1.advanceNext (if u 7 1 == 1 then .function else .duration)).post 232

/-- Ports at step 6: a contract begins with a Hard Reset (R96), and a detach since step 5 is acted on (R369). -/
def State.portAfterHold (s : State) (p : Port) : State :=
  let c := s.pdp.get p
  if !s.part.variant.hasPort p then s
  else if c.detachHold then s.detached p
  else if c.hadContract then s.hardReset p true
  else s

/-- The charger's state as the boot left it, then the table (R216, R253). -/
def State.chargeAfterHold (s : State) (posted : List Nat) : State :=
  let ch := s.chg.st != s.life.seen.chg
  let s1 := (s.postIf (ch && !posted.contains 192) 192).postIf (ch && s.chg.st == .suspend && !posted.contains 195) 195
  s1.chgEval false none

/-- The node runs: the watchdog is armed, the intervals start (R98, R409, R571, R578, R580). -/
def State.startRunning (s : State) : State :=
  let s1 : State := { s with
    life := { s.life with armed := true, sWarned := false, eWarned := false, tboSilent := false, holdoff := false, stage := none, causes := 0 },
    ser := { s.ser with busBusy := true } }
  s1.histStart.calStart

/-- The Link listens, and the sequencer starts by itself, where they are set to (R97, R303, R305, R380). -/
def State.startUnits (s : State) : State :=
  let s1 := if s.part.variant.hasLink && s.flag Reg.lnkCfg 0 then s.toListen else s
  if s1.flag Reg.seqCfg 0 && s1.seq.state == .off then s1.autoStart .auto else s1

/-- R77 to R79, R92, R98: step 6. -/
def execBootDone (s : State) : Out :=
  .next (if s.mode != .hold || !s.life.booted then s
    else
      let s0 := ({ s.when s.life.defaults State.handOver with mode := .active } : State).setReg Reg.kprWakeCause s.life.causes.toNat
      let posts := s0.bootPostings
      let s1 := ({ s0 with fab := { s0.fab with absent := [], bootPosts := [] } } : State).postGroup posts
      let s2 := ((s1.bootJournal).chargeAfterHold posts).postIf (s1.flag Reg.emgCtl 8 && !s1.rtcValid) 233
      let s3 := ((s2.closeInterrupted).portAfterHold .c1).portAfterHold .c2
      ((s3.resumeDown).startUnits).startRunning)

end Sys2Proof.Machine
end

