-- ==== Sys2Proof/Machine/Dispatch.lean ====
section
/-! DEFINITION. One arm per command: a direct call of its meaning. -/

namespace Sys2Proof.Machine

open Sys2Proof

def exec (i : Instr) (s : State) : Host.Outcome State Fault Refusal :=
  match i with
  | .powerOn validMask vsafeOhm chemOhm bats => Sys2Proof.Machine.execPowerOn validMask vsafeOhm chemOhm bats s
  | .keeperPowerLoss bats vbias => Sys2Proof.Machine.execKeeperPowerLoss bats vbias s
  | .shipWake input => Sys2Proof.Machine.execShipWake input s
  | .enterShip => Sys2Proof.Machine.execEnterShip s
  | .shipEntry => Sys2Proof.Machine.execShipEntry s
  | .enterDormant => Sys2Proof.Machine.execEnterDormant s
  | .sysPowerBadKey v => Sys2Proof.Machine.execSysPowerBadKey v s
  | .watchdogWarn ch ms => Sys2Proof.Machine.execWatchdogWarn ch ms s
  | .watchdogReset ch ms => Sys2Proof.Machine.execWatchdogReset ch ms s
  | .brownout => Sys2Proof.Machine.execBrownout s
  | .wakeNLow us => Sys2Proof.Machine.execWakeNLow us s
  | .boot adr1 adr0 sns vbat copyOk => Sys2Proof.Machine.execBoot adr1 adr0 sns vbat copyOk s
  | .remoteWakePulseEnd low => Sys2Proof.Machine.execRemoteWakePulseEnd low s
  | .wakeAttemptFail tboUs vddcUs vbat => Sys2Proof.Machine.execWakeAttemptFail tboUs vddcUs vbat s
  | .wakeRetry ms => Sys2Proof.Machine.execWakeRetry ms s
  | .wakeFailRetry secs => Sys2Proof.Machine.execWakeFailRetry secs s
  | .bootDone => Sys2Proof.Machine.execBootDone s
  | .holdTimeout ms vbat => Sys2Proof.Machine.execHoldTimeout ms vbat s
  | .tboLost us => Sys2Proof.Machine.execTboLost us s
  | .tboLostReset ms => Sys2Proof.Machine.execTboLostReset ms s
  | .lfoLost us => Sys2Proof.Machine.execLfoLost us s
  | .lfoRestored edges => Sys2Proof.Machine.execLfoRestored edges s
  | .rtcAlarm => Sys2Proof.Machine.execRtcAlarm s
  | .rtcSet secs => Sys2Proof.Machine.execRtcSet secs s
  | .poeClassEvent clsOhm => Sys2Proof.Machine.execPoeClassEvent clsOhm s
  | .hotSwapOn mv => Sys2Proof.Machine.execHotSwapOn mv s
  | .hotSwapOff mv => Sys2Proof.Machine.execHotSwapOff mv s
  | .hotSwapPg ma enhanced => Sys2Proof.Machine.execHotSwapPg ma enhanced s
  | .hotSwapFault ma us => Sys2Proof.Machine.execHotSwapFault ma us s
  | .poeValid mv ms us => Sys2Proof.Machine.execPoeValid mv ms us s
  | .poeLimitUpdate mv => Sys2Proof.Machine.execPoeLimitUpdate mv s
  | .poeDllAlloc v mv => Sys2Proof.Machine.execPoeDllAlloc v mv s
  | .mpsPulse ma ms => Sys2Proof.Machine.execMpsPulse ma ms s
  | .mpsPulseEnd ms => Sys2Proof.Machine.execMpsPulseEnd ms s
  | .inputQualified inp mv us => Sys2Proof.Machine.execInputQualified inp mv us s
  | .inputOvervoltage inp mv => Sys2Proof.Machine.execInputOvervoltage inp mv s
  | .takeover why => Sys2Proof.Machine.execTakeover why s
  | .returnDelay inp ms => Sys2Proof.Machine.execReturnDelay inp ms s
  | .pthEn v => Sys2Proof.Machine.execPthEn v s
  | .batterySupplement vsys vbat => Sys2Proof.Machine.execBatterySupplement vsys vbat s
  | .vsysLow mv us => Sys2Proof.Machine.execVsysLow mv us s
  | .vsysOv mv => Sys2Proof.Machine.execVsysOv mv s
  | .vsysOvResume mv => Sys2Proof.Machine.execVsysOvResume mv s
  | .cinchTrip p uv quietUs => Sys2Proof.Machine.execCinchTrip p uv quietUs s
  | .cinchRunaway p uv cycles => Sys2Proof.Machine.execCinchRunaway p uv cycles s
  | .phaseAdd ma us => Sys2Proof.Machine.execPhaseAdd ma us s
  | .phaseDrop ma us => Sys2Proof.Machine.execPhaseDrop ma us s
  | .senseLost p uv samples => Sys2Proof.Machine.execSenseLost p uv samples s
  | .driverOverTemp p dc => Sys2Proof.Machine.execDriverOverTemp p dc s
  | .remoteSenseLost vs vbias gnd us => Sys2Proof.Machine.execRemoteSenseLost vs vbias gnd us s
  | .rsRetry vs vbias gnd => Sys2Proof.Machine.execRsRetry vs vbias gnd s
  | .cnvClear mask => Sys2Proof.Machine.execCnvClear mask s
  | .reverseStart vaux => Sys2Proof.Machine.execReverseStart vaux s
  | .deadBusTimeout vaux ms => Sys2Proof.Machine.execDeadBusTimeout vaux ms s
  | .reverseStop why => Sys2Proof.Machine.execReverseStop why s
  | .portCnvFail p why => Sys2Proof.Machine.execPortCnvFail p why s
  | .cnvXnClear p => Sys2Proof.Machine.execCnvXnClear p s
  | .vbusOvp p mv => Sys2Proof.Machine.execVbusOvp p mv s
  | .vbusOvpResume p mv => Sys2Proof.Machine.execVbusOvpResume p mv s
  | .chgChem v => Sys2Proof.Machine.execChgChem v s
  | .chgClear => Sys2Proof.Machine.execChgClear s
  | .chargePermissionChange => Sys2Proof.Machine.execChargePermissionChange s
  | .qualifyDone vbat ms => Sys2Proof.Machine.execQualifyDone vbat ms s
  | .recoverDone vbat ms => Sys2Proof.Machine.execRecoverDone vbat ms s
  | .prechargeDone vbat ms => Sys2Proof.Machine.execPrechargeDone vbat ms s
  | .cvEntry vbat => Sys2Proof.Machine.execCvEntry vbat s
  | .termination vbat ma secs => Sys2Proof.Machine.execTermination vbat ma secs s
  | .recharge vbat ms => Sys2Proof.Machine.execRecharge vbat ms s
  | .requalify vbat => Sys2Proof.Machine.execRequalify vbat s
  | .chgOvervoltage vbat ms => Sys2Proof.Machine.execChgOvervoltage vbat ms s
  | .recoveryTimeout => Sys2Proof.Machine.execRecoveryTimeout s
  | .prechargeTimeout => Sys2Proof.Machine.execPrechargeTimeout s
  | .safetyTimeout => Sys2Proof.Machine.execSafetyTimeout s
  | .packRemoved => Sys2Proof.Machine.execPackRemoved s
  | .packInserted dc => Sys2Proof.Machine.execPackInserted dc s
  | .ntcMeasure t1 t2 => Sys2Proof.Machine.execNtcMeasure t1 t2 s
  | .dormantNtcSample t1 t2 => Sys2Proof.Machine.execDormantNtcSample t1 t2 s
  | .gaugeUpdate dq vbat ma avgDis => Sys2Proof.Machine.execGaugeUpdate dq vbat ma avgDis s
  | .emergencyDeclared ms => Sys2Proof.Machine.execEmergencyDeclared ms s
  | .emergencyEnded ms => Sys2Proof.Machine.execEmergencyEnded ms s
  | .emgWarn vbat ms => Sys2Proof.Machine.execEmgWarn vbat ms s
  | .emgWarnClear vbat => Sys2Proof.Machine.execEmgWarnClear vbat s
  | .emgCutoff vbat ms => Sys2Proof.Machine.execEmgCutoff vbat ms s
  | .testDue => Sys2Proof.Machine.execTestDue s
  | .testRetry mins => Sys2Proof.Machine.execTestRetry mins s
  | .testMissed => Sys2Proof.Machine.execTestMissed s
  | .slotGranted => Sys2Proof.Machine.execSlotGranted s
  | .startFn a => Sys2Proof.Machine.execStartFn a s
  | .startDur a => Sys2Proof.Machine.execStartDur a s
  | .startRecordCommit ok => Sys2Proof.Machine.execStartRecordCommit ok s
  | .testLengthReached ms => Sys2Proof.Machine.execTestLengthReached ms s
  | .emgAbort a => Sys2Proof.Machine.execEmgAbort a s
  | .testAbortVbat vbat us => Sys2Proof.Machine.execTestAbortVbat vbat us s
  | .seqUp => Sys2Proof.Machine.execSeqUp s
  | .seqDown => Sys2Proof.Machine.execSeqDown s
  | .seqClear => Sys2Proof.Machine.execSeqClear s
  | .seqForceOff => Sys2Proof.Machine.execSeqForceOff s
  | .seqBadCommand v => Sys2Proof.Machine.execSeqBadCommand v s
  | .seqEn v sns => Sys2Proof.Machine.execSeqEn v sns s
  | .startDelay k ms => Sys2Proof.Machine.execStartDelay k ms s
  | .powerGood k mv us => Sys2Proof.Machine.execPowerGood k mv us s
  | .riseTimeout k ms => Sys2Proof.Machine.execRiseTimeout k ms s
  | .railFault k mv us => Sys2Proof.Machine.execRailFault k mv us s
  | .railWarning k mv us => Sys2Proof.Machine.execRailWarning k mv us s
  | .railDischarged k mv => Sys2Proof.Machine.execRailDischarged k mv s
  | .disMaxTimeout k ms => Sys2Proof.Machine.execDisMaxTimeout k ms s
  | .disWaitStart => Sys2Proof.Machine.execDisWaitStart s
  | .seqRestart ms => Sys2Proof.Machine.execSeqRestart ms s
  | .faultLatchAbsent k mv us => Sys2Proof.Machine.execFaultLatchAbsent k mv us s
  | .vbusWake p mv => Sys2Proof.Machine.execVbusWake p mv s
  | .attach p source cc2 rp rev ms => Sys2Proof.Machine.execAttach p source cc2 rp rev ms s
  | .unsupportedAttach p => Sys2Proof.Machine.execUnsupportedAttach p s
  | .detach p ms => Sys2Proof.Machine.execDetach p ms s
  | .drpToggle p ms => Sys2Proof.Machine.execDrpToggle p ms s
  | .sourceTurnOn p mv ms => Sys2Proof.Machine.execSourceTurnOn p mv ms s
  | .request p r vin pload => Sys2Proof.Machine.execRequest p r vin pload s
  | .psRdySend p mv => Sys2Proof.Machine.execPsRdySend p mv s
  | .ppsTimeout p ms => Sys2Proof.Machine.execPpsTimeout p ms s
  | .budgetShortfall p ms vin pload => Sys2Proof.Machine.execBudgetShortfall p ms vin pload s
  | .sourceCapabilities p pdos => Sys2Proof.Machine.execSourceCapabilities p pdos s
  | .sourceCapRepeat p ms => Sys2Proof.Machine.execSourceCapRepeat p ms s
  | .keepalive p secs => Sys2Proof.Machine.execKeepalive p secs s
  | .waitReceived p => Sys2Proof.Machine.execWaitReceived p s
  | .waitRetry p ms => Sys2Proof.Machine.execWaitRetry p ms s
  | .psRdyReceived p mv => Sys2Proof.Machine.execPsRdyReceived p mv s
  | .senderResponseTimeout p ms => Sys2Proof.Machine.execSenderResponseTimeout p ms s
  | .prSwapReceived p => Sys2Proof.Machine.execPrSwapReceived p s
  | .drSwapReceived p vconn => Sys2Proof.Machine.execDrSwapReceived p vconn s
  | .notSupportedMessage p epr ext typ objs => Sys2Proof.Machine.execNotSupportedMessage p epr ext typ objs s
  | .sinkCapabilities p pdos => Sys2Proof.Machine.execSinkCapabilities p pdos s
  | .getSourceCap p => Sys2Proof.Machine.execGetSourceCap p s
  | .getSinkCap p => Sys2Proof.Machine.execGetSinkCap p s
  | .getStatusReceived p => Sys2Proof.Machine.execGetStatusReceived p s
  | .getPpsStatusReceived p mv ma => Sys2Proof.Machine.execGetPpsStatusReceived p mv ma s
  | .getSourceCapExtended p => Sys2Proof.Machine.execGetSourceCapExtended p s
  | .alertReceived p ado => Sys2Proof.Machine.execAlertReceived p ado s
  | .discoverIdentity p => Sys2Proof.Machine.execDiscoverIdentity p s
  | .bistCarrierMode p mv => Sys2Proof.Machine.execBistCarrierMode p mv s
  | .hardResetReceived p => Sys2Proof.Machine.execHardResetReceived p s
  | .softResetReceived p => Sys2Proof.Machine.execSoftResetReceived p s
  | .frsSignal p us mv => Sys2Proof.Machine.execFrsSignal p us mv s
  | .frsSend p => Sys2Proof.Machine.execFrsSend p s
  | .frsFail p us => Sys2Proof.Machine.execFrsFail p us s
  | .srcCut p => Sys2Proof.Machine.execSrcCut p s
  | .dischargeDone p mv => Sys2Proof.Machine.execDischargeDone p mv s
  | .dischargeSlow p mv ms => Sys2Proof.Machine.execDischargeSlow p mv ms s
  | .pdpHardReset p => Sys2Proof.Machine.execPdpHardReset p s
  | .pdpSoftReset p => Sys2Proof.Machine.execPdpSoftReset p s
  | .pdpPrSwap p => Sys2Proof.Machine.execPdpPrSwap p s
  | .pdpRenegotiate p => Sys2Proof.Machine.execPdpRenegotiate p s
  | .pdpGetStatus p => Sys2Proof.Machine.execPdpGetStatus p s
  | .pdpGetPpsStatus p => Sys2Proof.Machine.execPdpGetPpsStatus p s
  | .pdpGetSrcCapExt p => Sys2Proof.Machine.execPdpGetSrcCapExt p s
  | .pdpRoleCfg p cfg v => Sys2Proof.Machine.execPdpRoleCfg p cfg v s
  | .beaconSend => Sys2Proof.Machine.execBeaconSend s
  | .beaconReceived b => Sys2Proof.Machine.execBeaconReceived b s
  | .statusSend => Sys2Proof.Machine.execStatusSend s
  | .statusReceived src st => Sys2Proof.Machine.execStatusReceived src st s
  | .listenTimeout rx ms => Sys2Proof.Machine.execListenTimeout rx ms s
  | .claimStart freeUs aligned => Sys2Proof.Machine.execClaimStart freeUs aligned s
  | .claimHeard => Sys2Proof.Machine.execClaimHeard s
  | .claimWithdraw bitNo carrier => Sys2Proof.Machine.execClaimWithdraw bitNo carrier s
  | .claimEnd => Sys2Proof.Machine.execClaimEnd s
  | .joinReceived id prio seqNo => Sys2Proof.Machine.execJoinReceived id prio seqNo s
  | .joinAckReceived id short => Sys2Proof.Machine.execJoinAckReceived id short s
  | .joinRetry ms => Sys2Proof.Machine.execJoinRetry ms s
  | .beaconGrantLoss ms => Sys2Proof.Machine.execBeaconGrantLoss ms s
  | .beaconLost ms => Sys2Proof.Machine.execBeaconLost ms s
  | .leaveReceived src lead => Sys2Proof.Machine.execLeaveReceived src lead s
  | .testReqReceived src kind secs seqNo => Sys2Proof.Machine.execTestReqReceived src kind secs seqNo s
  | .testGrantReceived kind seqNo => Sys2Proof.Machine.execTestGrantReceived kind seqNo s
  | .testEndReceived src outcome seqNo => Sys2Proof.Machine.execTestEndReceived src outcome seqNo s
  | .slotTimeout secs => Sys2Proof.Machine.execSlotTimeout secs s
  | .doorbellReceived f => Sys2Proof.Machine.execDoorbellReceived f s
  | .dataReceived f => Sys2Proof.Machine.execDataReceived f s
  | .ackReceived seqNo => Sys2Proof.Machine.execAckReceived seqNo s
  | .ackTimeout us => Sys2Proof.Machine.execAckTimeout us s
  | .frameTransmit freeUs leftUs => Sys2Proof.Machine.execFrameTransmit freeUs leftUs s
  | .capture riseHalfDb preamble claimField => Sys2Proof.Machine.execCapture riseHalfDb preamble claimField s
  | .lnkDbSend a dst d => Sys2Proof.Machine.execLnkDbSend a dst d s
  | .lnkDisable => Sys2Proof.Machine.execLnkDisable s
  | .windowWrite a bytes => Sys2Proof.Machine.execWindowWrite a bytes s
  | .windowRead a bytes clocked => Sys2Proof.Machine.execWindowRead a bytes clocked s
  | .currentPointerRead a clocked => Sys2Proof.Machine.execCurrentPointerRead a clocked s
  | .summary a tx => Sys2Proof.Machine.execSummary a tx s
  | .ident a tx => Sys2Proof.Machine.execIdent a tx s
  | .status a tx => Sys2Proof.Machine.execStatus a tx s
  | .pendingCmd a tx => Sys2Proof.Machine.execPendingCmd a tx s
  | .claim a tx => Sys2Proof.Machine.execClaim a tx s
  | .complete a tx => Sys2Proof.Machine.execComplete a tx s
  | .doorbell a tx => Sys2Proof.Machine.execDoorbell a tx s
  | .ringPush a tx => Sys2Proof.Machine.execRingPush a tx s
  | .ringPop a tx => Sys2Proof.Machine.execRingPop a tx s
  | .tkrReq a tx => Sys2Proof.Machine.execTkrReq a tx s
  | .quickCommand a read => Sys2Proof.Machine.execQuickCommand a read s
  | .unackedFirstByte a b => Sys2Proof.Machine.execUnackedFirstByte a b s
  | .busError a => Sys2Proof.Machine.execBusError a s
  | .busTimeout a ms => Sys2Proof.Machine.execBusTimeout a ms s
  | .araRead others => Sys2Proof.Machine.execAraRead others s
  | .attentionDue a => Sys2Proof.Machine.execAttentionDue a s
  | .attentionRepeat a ms => Sys2Proof.Machine.execAttentionRepeat a ms s
  | .attentionFrame freeNs => Sys2Proof.Machine.execAttentionFrame freeNs s
  | .attentionFallback us => Sys2Proof.Machine.execAttentionFallback us s
  | .attentionArbLoss => Sys2Proof.Machine.execAttentionArbLoss s
  | .notifyFrame a freeNs => Sys2Proof.Machine.execNotifyFrame a freeNs s
  | .notifyArbLoss => Sys2Proof.Machine.execNotifyArbLoss s
  | .notifyNack => Sys2Proof.Machine.execNotifyNack s
  | .notifyStretchTimeout ms => Sys2Proof.Machine.execNotifyStretchTimeout ms s
  | .eventPost src => Sys2Proof.Machine.execEventPost src s
  | .evtDoorbell a d => Sys2Proof.Machine.execEvtDoorbell a d s
  | .coalesceTime g us => Sys2Proof.Machine.execCoalesceTime g us s
  | .agtnClaim a => Sys2Proof.Machine.execAgtnClaim a s
  | .agtnComplete a x => Sys2Proof.Machine.execAgtnComplete a x s
  | .agtnCtlAwake a v => Sys2Proof.Machine.execAgtnCtlAwake a v s
  | .remoteWake a => Sys2Proof.Machine.execRemoteWake a s
  | .remoteWakeDeferred a ms => Sys2Proof.Machine.execRemoteWakeDeferred a ms s
  | .evtRoute x v => Sys2Proof.Machine.execEvtRoute x v s
  | .watchHitDormant src => Sys2Proof.Machine.execWatchHitDormant src s
  | .watchHitShip src => Sys2Proof.Machine.execWatchHitShip src s
  | .ringCfg a base v => Sys2Proof.Machine.execRingCfg a base v s
  | .ringDataPush a data => Sys2Proof.Machine.execRingDataPush a data s
  | .ringData0Pop a => Sys2Proof.Machine.execRingData0Pop a s
  | .rawAccess a data => Sys2Proof.Machine.execRawAccess a data s
  | .sramScrub word flips => Sys2Proof.Machine.execSramScrub word flips s
  | .chkJobStart u bg => Sys2Proof.Machine.execChkJobStart u bg s
  | .chkJobDone u => Sys2Proof.Machine.execChkJobDone u s
  | .chkUnitFailed u lanes => Sys2Proof.Machine.execChkUnitFailed u lanes s
  | .chkKat u => Sys2Proof.Machine.execChkKat u s
  | .chkAccWrite u v => Sys2Proof.Machine.execChkAccWrite u v s
  | .tkrRequestStart a => Sys2Proof.Machine.execTkrRequestStart a s
  | .tkrRead a flips => Sys2Proof.Machine.execTkrRead a flips s
  | .tkrInfo a => Sys2Proof.Machine.execTkrInfo a s
  | .tkrStage a verify => Sys2Proof.Machine.execTkrStage a verify s
  | .tkrNote a => Sys2Proof.Machine.execTkrNote a s
  | .tkrSeal a => Sys2Proof.Machine.execTkrSeal a s
  | .tkrOpen a => Sys2Proof.Machine.execTkrOpen a s
  | .tkrWrite a verify => Sys2Proof.Machine.execTkrWrite a verify s
  | .tkrClose a => Sys2Proof.Machine.execTkrClose a s
  | .tkrAbort a => Sys2Proof.Machine.execTkrAbort a s
  | .replyDelivered a => Sys2Proof.Machine.execReplyDelivered a s
  | .sessionTimeout secs => Sys2Proof.Machine.execSessionTimeout secs s
  | .journalPageProgram secs => Sys2Proof.Machine.execJournalPageProgram secs s
  | .sealTimer secs => Sys2Proof.Machine.execSealTimer secs s
  | .storeScrub page flips => Sys2Proof.Machine.execStoreScrub page flips s
  | .blockRefresh b eraseOk => Sys2Proof.Machine.execBlockRefresh b eraseOk s
  | .blockRetire b cause => Sys2Proof.Machine.execBlockRetire b cause s
  | .oneshotGo a v => Sys2Proof.Machine.execOneshotGo a v s
  | .oneshotDone a samples => Sys2Proof.Machine.execOneshotDone a samples s
  | .telemetryDue e => Sys2Proof.Machine.execTelemetryDue e s
  | .telemetryResult e samples lateUs => Sys2Proof.Machine.execTelemetryResult e samples lateUs s
  | .tlmCfg e period v => Sys2Proof.Machine.execTlmCfg e period v s
  | .historyIntervalEnd secs => Sys2Proof.Machine.execHistoryIntervalEnd secs s
  | .tlmHistInterval v secs => Sys2Proof.Machine.execTlmHistInterval v secs s
  | .calRun => Sys2Proof.Machine.execCalRun s
  | .calTrigger die mins => Sys2Proof.Machine.execCalTrigger die mins s
  | .calPassEnd gain off ratio iin ibat die => Sys2Proof.Machine.execCalPassEnd gain off ratio iin ibat die s
  | .tboTrim die => Sys2Proof.Machine.execTboTrim die s
  | .senseOffset pt uv => Sys2Proof.Machine.execSenseOffset pt uv s
  | .offsetStale pt => Sys2Proof.Machine.execOffsetStale pt s
  | .deadlineMiss a => Sys2Proof.Machine.execDeadlineMiss a s
  | .strappedCutoff vbat => Sys2Proof.Machine.execStrappedCutoff vbat s
  | .inputInvalid inp mv => Sys2Proof.Machine.execInputInvalid inp mv s
  | .inputCurrentLimit ma vin ibat => Sys2Proof.Machine.execInputCurrentLimit ma vin ibat s
  | .inputVoltageRegulation mv ibat => Sys2Proof.Machine.execInputVoltageRegulation mv ibat s
  | .cnvOutputLimit ma loop => Sys2Proof.Machine.execCnvOutputLimit ma loop s
  | .gateFault inp us => Sys2Proof.Machine.execGateFault inp us s
  | .watchdogService ch => Sys2Proof.Machine.execWatchdogService ch s
  | .vdrvUndervoltage mv => Sys2Proof.Machine.execVdrvUndervoltage mv s
  | .historyPageProgram secs => Sys2Proof.Machine.execHistoryPageProgram secs s
  | .crcErrorFrame => Sys2Proof.Machine.execCrcErrorFrame s
  | .acceptReceived p => Sys2Proof.Machine.execAcceptReceived p s
  | .rejectReceived p => Sys2Proof.Machine.execRejectReceived p s
  | .frSwapReceived p => Sys2Proof.Machine.execFrSwapReceived p s

end Sys2Proof.Machine
end

