-- ==== Sys2Proof/Safety.lean ====
section
/-! DEFINITION. The terms claims use: when a command completes, which parts of the state and which registers a command may
change, and what every state keeps. -/

namespace Sys2Proof.Safety

open Sys2Proof.Machine

/-- The command completes on s, and P holds of the state it leaves. -/
def Answers (c : Instr) (s : State) (P : State → Prop) : Prop := ∃ t, exec c s = .next t ∧ P t

/-! What every state keeps. -/

/-- The registers, both addressed memories in canonical form, and the log heads inside their partitions. -/
structure Inv (s : State) : Prop where
  regs : SMap.wf (resetWord s.part s.straps) s.regs = true
  sram : Memory.wf sramDefault s.fab.sram = true
  store : Memory.wf eraseByte s.tkr.store = true
  journal : s.tkr.jhead < 32768
  tests : s.tkr.thead < 8192
  history : s.tkr.hhead < 147456

/-- A byte of ring SRAM, and a byte of the store, as they read. -/
def sramByte (s : State) (a : Nat) : Byte := SMap.get sramDefault s.fab.sram a
def storeByte (s : State) (a : Nat) : Byte := SMap.get eraseByte s.tkr.store a

/-- Byte a of ring SRAM lies in the extent of ring k; a ring without entries counts one word. -/
def inExtent (f : Fabric) (k a : Nat) : Prop := (f.ring k).base * 256 ≤ a ∧ a < (f.ring k).base * 256 + 16 * max 1 (f.ring k).cap

/-- Byte a of the store lies in the JOURNAL, TESTS or HISTORY partition. -/
def inLogs (a : Nat) : Prop := 48 ≤ a / 65536 ∧ a / 65536 < 784

/-- Conditions under which the table of R216 lets a passage of its own happen: no EMERGENCY, charging permitted, and the
temperatures good. -/
def chargeReady (s : State) : Prop :=
  s.emg.emergency = false ∧ s.chgPermitted = true ∧ s.chg.zone ≠ .cold ∧ s.chg.zone ≠ .hot ∧ s.chg.ntcFault = false ∧ s.chg.boardHot = false

/-- The port put a control message, which has no data objects, or an extended message on CC. -/
def said (s : State) (p : Port) (ext : Bool) (typ : Nat) : Prop :=
  ∃ m ∈ (s.prt p).sent, m.signal = .message ∧ m.ext = ext ∧ m.typ = typ ∧ (ext = false → m.objs = [])

/-- The port put a data message on CC. -/
def saidData (s : State) (p : Port) (typ : Nat) : Prop :=
  ∃ m ∈ (s.prt p).sent, m.signal = .message ∧ m.ext = false ∧ m.typ = typ ∧ m.objs ≠ []

/-- From s to t source x has posted with origin o: unrouted, merged into its open entry, or a new pending entry; what a ring
write or a batch of a posting sets off posts after it (R460 to R466). -/
def posted (s t : State) (x o : Nat) : Prop :=
  let r := s.route x
  (∃ n : Nat, 1 ≤ n ∧ n ≤ postFuel ∧ t.fab.seq = s.fab.seq + BitVec.ofNat 32 n)
  ∧ (r.live = false → t.fab.seq = s.fab.seq + 1 ∧ t.fab.pend = s.fab.pend ∧ t.fab.unrouted = min 65535 (s.fab.unrouted + 1))
  ∧ (r.live = true → r.group = 0 → s.fab.isOpen x = true →
      t.fab.seq = s.fab.seq + 1 ∧ t.fab.merged = min 65535 (s.fab.merged + 1) ∧ t.fab.pend.length = s.fab.pend.length)
  ∧ (r.live = true → r.group = 0 → r.ring = false → s.fab.isOpen x = false →
      t.fab.seq = s.fab.seq + 1 ∧ ∃ e, t.fab.pend = s.fab.pend ++ [e] ∧ e.num = x ∧ e.origin = o ∧ e.prio = r.prio ∧ e.count = 1
        ∧ e.seq = s.fab.seq + 1 ∧ e.sec.toNat = s.rtc % 4294967296 ∧ (∀ a : Agent, e.bound.get a = true → bit r.mask a.val = true)
        ∧ (r.target = true → ∀ a : Agent, e.bound.get a = bit r.mask a.val))

/-- Agent a's request r has ended with x: its reply item is in the reply ring where it fits and none waits before it, and
waits otherwise (R539). -/
def replied (s t : State) (a : Agent) (r : Req) (x : Answered) : Prop :=
  t.tkr.run.get a = none ∧
  (if s.tkr.replies.get a = [] ∧ s.ringFits (2 * a.val + 1) (r.item x).entries.length = true then
    t.tkr.replies.get a = []
      ∧ (t.fab.ring (2 * a.val + 1)).items = (s.fab.ring (2 * a.val + 1)).items ++ [(r.item x).entries.length]
  else t.tkr.replies.get a = s.tkr.replies.get a ++ [r.item x])

/-- Background work of activity act may use plane p now: no request holds or waits for the plane, and the other activity's
floor does not stand in the way (R26, R31). -/
def upkeepFree (s : State) (p : Fin 4) (act : Nat) : Prop :=
  s.planeHeld p = false ∧ s.planeFg p none = false ∧ (s.arb.plane.get p).free (s.floors [3, 4]) (fun _ => 1) (some act) = true

/-- Store upkeep is granted plane p while a request waits for it, and yields to the request (R27). -/
def upkeepYields (s : State) (p : Fin 4) : Prop :=
  s.planeHeld p = false ∧ s.planeFg p none = true
    ∧ (s.arb.plane.get p).mayRun (s.floors [3, 4]) (fun _ => 1) true 4 = true ∧ (s.arb.plane.get p).due (s.floors [3, 4]) 4 = false

/-! Frames. -/

/-- The fields of the state that commands change. -/
inductive Comp where
  | straps | mode | life | regs | pp | cnv | chg | emg | seq | pdp | lnk | ser | fab | chk | tkr | tlm | cal | arb | free
deriving DecidableEq, Repr

/-- The field is the same in both states. -/
def Comp.same (s t : State) : Comp → Prop
  | .straps => t.straps = s.straps
  | .mode => t.mode = s.mode
  | .life => t.life = s.life
  | .regs => t.regs = s.regs
  | .pp => t.pp = s.pp
  | .cnv => t.cnv = s.cnv
  | .chg => t.chg = s.chg
  | .emg => t.emg = s.emg
  | .seq => t.seq = s.seq
  | .pdp => t.pdp = s.pdp
  | .lnk => t.lnk = s.lnk
  | .ser => t.ser = s.ser
  | .fab => t.fab = s.fab
  | .chk => t.chk = s.chk
  | .tkr => t.tkr = s.tkr
  | .tlm => t.tlm = s.tlm
  | .cal => t.cal = s.cal
  | .arb => t.arb = s.arb
  | .free => t.free = s.free

/-- The fields a command may change. -/
def touches : Instr → List Comp
  | .powerOn _ _ _ _ => [.straps, .mode, .life, .regs, .pp, .cnv, .chg, .fab, .tlm]
  | .keeperPowerLoss _ _ | .watchdogReset _ _ | .tboLostReset _ =>
    [.mode, .life, .regs, .pp, .cnv, .chg, .emg, .seq, .pdp, .lnk, .ser, .fab, .chk, .tkr, .tlm, .cal, .arb]
  | .shipWake _ | .poeValid _ _ _ | .inputQualified _ _ _ => [.mode, .life, .pp, .cnv, .chg, .pdp, .fab, .tlm]
  | .enterShip | .emgCutoff _ _ | .seqDown | .seqForceOff | .seqEn _ _ | .riseTimeout _ _ | .railFault _ _ _
  | .railDischarged _ _ => [.life, .regs, .pp, .cnv, .chg, .emg, .seq, .pdp, .lnk, .fab, .tkr, .tlm]
  | .shipEntry => [.mode, .life, .pp, .cnv, .chg, .emg, .seq, .pdp, .lnk, .ser, .fab, .chk, .tkr, .tlm, .cal, .arb, .free]
  | .enterDormant | .bootDone | .windowWrite _ _ =>
    [.mode, .life, .regs, .pp, .cnv, .chg, .emg, .seq, .pdp, .lnk, .ser, .fab, .chk, .tkr, .tlm, .cal, .arb, .free]
  | .sysPowerBadKey _ | .rtcSet _ | .seqBadCommand _ | .evtRoute _ _ | .chkAccWrite _ _ | .tlmCfg _ _ _ => [.regs]
  | .watchdogWarn _ _ | .tboLost _ | .lfoLost _ => [.life, .fab]
  | .brownout => [.mode, .life, .pp, .cnv, .chg, .emg, .seq, .pdp, .lnk, .ser, .fab, .chk, .tkr, .tlm, .cal, .arb]
  | .wakeNLow _ | .remoteWakePulseEnd _ | .wakeFailRetry _ | .vbusWake _ _ => [.mode, .life, .pp, .cnv, .chg, .fab, .tlm]
  | .boot _ _ _ _ _ => [.straps, .mode, .life, .regs, .pp, .cnv, .chg, .emg, .seq, .pdp, .lnk, .ser, .fab, .tkr, .tlm, .free]
  | .wakeAttemptFail _ _ _ => [.life, .regs, .pp, .cnv, .chg, .fab]
  | .wakeRetry _ | .lfoRestored _ | .remoteWake _ | .remoteWakeDeferred _ _ | .watchdogService _ => [.life]
  | .holdTimeout _ _ => [.life, .pp, .cnv, .chg, .fab]
  | .rtcAlarm | .watchHitDormant _ => [.mode, .life, .regs, .pp, .cnv, .chg, .fab, .tlm]
  | .poeClassEvent _ | .hotSwapOff _ | .hotSwapPg _ _ | .hotSwapFault _ _ | .mpsPulse _ _ => [.pp, .fab]
  | .hotSwapOn _ | .poeLimitUpdate _ | .mpsPulseEnd _ => [.pp]
  | .poeDllAlloc _ _ => [.regs, .pp, .fab]
  | .inputOvervoltage _ _ | .takeover _ => [.mode, .life, .regs, .pp, .cnv, .chg, .seq, .pdp, .fab, .tlm]
  | .returnDelay _ _ | .attach _ _ _ _ _ _ | .detach _ _ => [.pp, .cnv, .chg, .pdp, .fab, .tlm]
  | .pthEn _ => [.regs, .pp, .cnv, .chg, .fab, .tlm]
  | .batterySupplement _ _ | .vsysLow _ _ => [.pp, .cnv, .fab]
  | .vsysOv _ | .remoteSenseLost _ _ _ _ | .rsRetry _ _ _ => [.cnv, .fab]
  | .vsysOvResume _ | .vbusOvpResume _ _ | .vdrvUndervoltage _ => [.cnv]
  | .cinchTrip _ _ _ | .phaseAdd _ _ | .phaseDrop _ _ | .senseLost _ _ _ | .driverOverTemp _ _ | .cnvClear _
  | .emergencyDeclared _ | .emgWarn _ _ | .startRecordCommit _ | .testLengthReached _ | .emgAbort _ | .testAbortVbat _ _
  | .gateFault _ _ => [.regs, .pp, .cnv, .chg, .emg, .lnk, .fab, .tkr, .tlm]
  | .cinchRunaway _ _ _ => [.regs, .pp, .cnv, .chg, .emg, .pdp, .lnk, .fab, .tkr, .tlm]
  | .reverseStart _ | .packInserted _ => [.regs, .pp, .cnv, .chg, .emg, .fab, .tkr, .tlm]
  | .deadBusTimeout _ _ | .reverseStop _ | .strappedCutoff _ => [.pp, .cnv, .chg, .fab, .tlm]
  | .portCnvFail _ _ | .ppsTimeout _ _ | .senderResponseTimeout _ _ | .hardResetReceived _ | .srcCut _ | .pdpHardReset _ =>
    [.regs, .pp, .cnv, .pdp, .fab]
  | .cnvXnClear _ | .vbusOvp _ _ | .sourceTurnOn _ _ _ | .frsSignal _ _ _ | .frsSend _ | .cnvOutputLimit _ _ => [.cnv, .pdp, .fab]
  | .chgChem _ => [.regs, .pp, .cnv, .chg, .emg, .fab]
  | .chgClear | .chargePermissionChange | .qualifyDone _ _ | .recoverDone _ _ | .prechargeDone _ _ | .cvEntry _
  | .recharge _ _ | .requalify _ | .packRemoved => [.regs, .pp, .cnv, .chg, .emg, .fab, .tkr]
  | .termination _ _ _ | .chgOvervoltage _ _ | .recoveryTimeout | .prechargeTimeout | .safetyTimeout =>
    [.mode, .life, .regs, .pp, .cnv, .chg, .emg, .fab, .tkr, .tlm]
  | .ntcMeasure _ _ => [.regs, .pp, .cnv, .chg, .emg, .lnk, .fab, .tkr, .tlm, .arb]
  | .dormantNtcSample _ _ => [.pp, .cnv, .chg, .fab]
  | .gaugeUpdate _ _ _ _ | .beaconSend => [.regs, .pp, .cnv, .chg, .emg, .lnk, .fab, .tlm]
  | .emergencyEnded _ => [.emg, .pdp, .fab, .tkr]
  | .emgWarnClear _ => [.emg]
  | .testDue => [.mode, .life, .regs, .pp, .cnv, .chg, .emg, .lnk, .fab, .tkr, .tlm]
  | .testRetry _ => [.regs, .emg, .lnk, .fab, .tkr]
  | .testMissed => [.regs, .emg, .fab, .tkr]
  | .slotGranted => [.regs, .emg, .fab]
  | .startFn _ | .startDur _ => [.regs, .emg, .lnk]
  | .seqUp => [.regs, .seq, .fab]
  | .seqClear => [.regs, .seq]
  | .startDelay _ _ | .faultLatchAbsent _ _ _ => [.seq]
  | .powerGood _ _ _ | .disWaitStart | .seqRestart _ => [.seq, .fab]
  | .railWarning _ _ _ => [.regs, .pp, .cnv, .chg, .emg, .seq, .lnk, .fab, .tkr, .tlm]
  | .disMaxTimeout _ _ => [.life, .regs, .seq, .fab]
  | .unsupportedAttach _ | .sourceCapRepeat _ _ | .keepalive _ _ | .waitRetry _ _ | .frsFail _ _ | .dischargeSlow _ _ _ =>
    [.pdp, .fab]
  | .drpToggle _ _ | .dischargeDone _ _ => [.pdp]
  | .request _ _ _ _ => [.regs, .cnv, .pdp, .fab, .free]
  | .psRdySend _ _ => [.pp, .pdp, .fab]
  | .budgetShortfall _ _ _ _ | .pdpPrSwap _ | .pdpRenegotiate _ | .pdpGetStatus _ | .pdpGetPpsStatus _
  | .pdpGetSrcCapExt _ => [.regs, .pdp, .fab]
  | .sourceCapabilities _ _ | .drSwapReceived _ _ | .notSupportedMessage _ _ _ _ _ | .sinkCapabilities _ _
  | .getSourceCap _ | .getSinkCap _ | .getStatusReceived _ | .getPpsStatusReceived _ _ _ | .getSourceCapExtended _
  | .alertReceived _ _ | .discoverIdentity _ | .bistCarrierMode _ _ => [.pdp, .fab, .free]
  | .waitReceived _ | .softResetReceived _ | .rejectReceived _ => [.cnv, .pdp, .fab, .free]
  | .psRdyReceived _ _ | .prSwapReceived _ | .acceptReceived _ => [.pp, .cnv, .chg, .pdp, .fab, .tlm, .free]
  | .pdpSoftReset _ => [.regs, .cnv, .pdp, .fab]
  | .pdpRoleCfg _ _ _ => [.regs, .pdp]
  | .beaconReceived _ => [.regs, .pp, .cnv, .chg, .emg, .lnk, .fab, .tlm, .free]
  | .statusSend | .beaconGrantLoss _ => [.pp, .cnv, .chg, .lnk, .fab, .tlm]
  | .statusReceived _ _ | .claimHeard => [.regs, .lnk, .free]
  | .listenTimeout _ _ => [.lnk, .fab, .free]
  | .claimStart _ _ | .joinRetry _ => [.lnk]
  | .claimWithdraw _ _ => [.lnk, .fab]
  | .claimEnd | .slotTimeout _ => [.regs, .emg, .lnk, .fab]
  | .joinReceived _ _ _ | .joinAckReceived _ _ | .leaveReceived _ _ | .doorbellReceived _ | .dataReceived _
  | .ackReceived _ => [.regs, .lnk, .fab, .free]
  | .beaconLost _ => [.regs, .pp, .cnv, .chg, .lnk, .fab, .tlm, .free]
  | .testReqReceived _ _ _ _ | .testGrantReceived _ _ | .testEndReceived _ _ _ => [.regs, .emg, .lnk, .fab, .free]
  | .ackTimeout _ | .frameTransmit _ _ | .capture _ _ _ | .lnkDbSend _ _ _ => [.regs, .lnk, .fab]
  | .lnkDisable => [.regs, .pp, .cnv, .chg, .lnk, .fab, .tlm]
  | .windowRead _ _ _ | .currentPointerRead _ _ | .ringPush _ _ | .ringPop _ _ | .ringData0Pop _ => [.regs, .ser, .fab, .chk]
  | .summary _ _ | .ident _ _ | .pendingCmd _ _ | .claim _ _ | .complete _ _ | .doorbell _ _ | .busError _
  | .busTimeout _ _ | .agtnCtlAwake _ _ => [.regs, .ser, .fab]
  | .status _ _ | .quickCommand _ _ | .unackedFirstByte _ _ | .araRead _ | .attentionDue _ | .attentionRepeat _ _
  | .attentionFrame _ | .attentionArbLoss | .notifyFrame _ _ | .notifyArbLoss | .notifyStretchTimeout _ => [.ser]
  | .tkrReq _ _ => [.regs, .ser, .fab, .tkr]
  | .attentionFallback _ | .notifyNack | .agtnClaim _ | .agtnComplete _ _ | .ringCfg _ _ _ | .rawAccess _ _ => [.ser, .fab]
  | .eventPost _ | .evtDoorbell _ _ | .coalesceTime _ _ => [.fab]
  | .watchHitShip _ | .sramScrub _ _ => [.regs, .fab]
  | .ringDataPush _ _ => [.ser, .fab, .chk]
  | .chkJobStart _ _ | .chkUnitFailed _ _ => [.regs, .fab, .chk, .arb]
  | .chkJobDone _ => [.regs, .fab, .chk]
  | .chkKat _ => [.regs, .chk, .arb]
  | .tkrRequestStart _ | .journalPageProgram _ | .blockRefresh _ _ | .blockRetire _ _ | .historyPageProgram _ =>
    [.fab, .tkr, .arb]
  | .tkrRead _ _ => [.regs, .fab, .tkr, .free]
  | .tkrInfo _ | .tkrStage _ _ | .tkrNote _ | .tkrSeal _ | .tkrOpen _ | .tkrWrite _ _ | .tkrClose _ | .tkrAbort _
  | .replyDelivered _ | .sessionTimeout _ | .sealTimer _ => [.fab, .tkr]
  | .storeScrub _ _ => [.regs, .fab, .tkr, .arb, .free]
  | .oneshotGo _ _ => [.regs, .tlm]
  | .oneshotDone _ _ | .telemetryDue _ => [.regs, .fab, .tlm, .arb]
  | .telemetryResult _ _ _ => [.life, .regs, .pp, .cnv, .chg, .emg, .seq, .pdp, .lnk, .fab, .tkr, .tlm, .arb]
  | .historyIntervalEnd _ => [.tkr, .tlm, .free]
  | .tlmHistInterval _ _ => [.regs, .tkr, .tlm, .free]
  | .calRun | .calTrigger _ _ => [.regs, .chk, .cal, .arb]
  | .calPassEnd _ _ _ _ _ _ => [.regs, .fab, .chk, .tlm, .cal, .arb]
  | .tboTrim _ => [.cal]
  | .senseOffset _ _ => [.regs, .tlm, .cal, .arb]
  | .offsetStale _ => [.regs, .fab, .cal]
  | .deadlineMiss _ => [.regs, .fab, .tkr, .tlm]
  | .inputInvalid _ _ => [.mode, .life, .pp, .cnv, .chg, .seq, .fab, .tlm]
  | .inputCurrentLimit _ _ _ | .inputVoltageRegulation _ _ => [.pp, .chg, .fab]
  | .crcErrorFrame => [.regs, .lnk]
  | .frSwapReceived _ => [.pp, .cnv, .pdp, .fab, .free]

/-- The registers that the close of a test may write: NEXT of both schedules, the fault cause of the charger and Q_rem. -/
def closeRegs (r : Nat) : Bool :=
  r == Reg.emgFnNext || r == Reg.emgFnNext + 1 || r == Reg.emgDurNext || r == Reg.emgDurNext + 1 || r == Reg.chgFault || r == Reg.chgQrem

/-- The registers of agent a's transactions: SER_AGTn_STAT, SER_AGTn_DENY_IDX and SER_AGTn_PECERRS. -/
def agentRegs (a : Agent) (r : Nat) : Bool :=
  r == Reg.serAgtStat a.val || r == Reg.serAgtDenyIdx a.val || r == Reg.serAgtPecerrs a.val

/-- The stored registers a command may write; where it may set every register to its reset value, all of them. -/
def mayWrite : Instr → Nat → Bool
  | .powerOn _ _ _ _, _ | .keeperPowerLoss _ _, _ | .watchdogReset _ _, _ | .tboLostReset _, _ | .boot _ _ _ _ _, _ => true
  | .windowWrite _ _, _ | .windowRead _ _ _, _ | .currentPointerRead _ _, _ => true
  | .bootDone, r => closeRegs r || r == Reg.kprWakeCause || r == Reg.pdpHresets 0 || r == Reg.pdpHresets 1
    || r == Reg.bgProgA + 1 || r == Reg.bgProgA + 2 || r == Reg.pthVsysMin
  | .enterShip, r => closeRegs r || r == Reg.sysPower
  | .enterDormant, r | .sysPowerBadKey _, r | .disMaxTimeout _ _, r => r == Reg.sysPower
  | .wakeAttemptFail _ _ _, r => r == Reg.kprWakeFails
  | .rtcAlarm, r => r == Reg.kprStat || r == Reg.kprCfg
  | .rtcSet _, r => r == Reg.kprRtc || r == Reg.kprRtc + 1 || r == Reg.kprStat
  | .poeDllAlloc _ _, r => r == Reg.poeDllAlloc
  | .inputOvervoltage _ _, r | .takeover _, r => r == Reg.pthTakeovers
  | .pthEn _, r => r == Reg.pthEn
  | .gateFault _ _, r | .phaseAdd _ _, r | .phaseDrop _ _, r | .senseLost _ _ _, r | .driverOverTemp _ _, r | .cnvClear _, r
  | .emergencyDeclared _, r | .emgWarn _ _, r | .testLengthReached _, r | .testAbortVbat _ _, r | .testDue, r | .testRetry _, r
  | .testMissed, r | .emgCutoff _ _, r | .riseTimeout _ _, r | .railDischarged _ _, r | .railFault _ _ _, r | .railWarning _ _ _, r => closeRegs r
  | .cinchTrip (.main p) _ _, r => closeRegs r || r == Reg.cnvPCinchCnt p.val
  | .cinchTrip (.x p) _ _, r => r == Reg.cnvXCinchCnt p.ix
  | .cinchRunaway (.main _) _ _, r => closeRegs r
  | .cinchRunaway (.x p) _ _, r | .portCnvFail p _, r => r == Reg.pdpHresets p.ix
  | .chgChem _, r =>
    r == Reg.chgChem || r == Reg.chgVchg || r == Reg.chgVrecov || r == Reg.chgVpre || r == Reg.chgVrechg || r == Reg.emgWarn
      || r == Reg.emgTestAbort || r == Reg.emgCutoff || r == Reg.chgCtl || r == Reg.chgReserveMin || r == Reg.chgSoc
  | .chgClear, r | .chargePermissionChange, r | .qualifyDone _ _, r | .recoverDone _ _, r | .prechargeDone _ _, r | .cvEntry _, r
  | .recharge _ _, r | .requalify _, r | .chgOvervoltage _ _, r | .recoveryTimeout, r | .prechargeTimeout, r | .safetyTimeout, r
  | .packRemoved, r | .packInserted _, r | .reverseStart _, r => r == Reg.chgFault
  | .termination _ _ _, r => r == Reg.chgFault || r == Reg.chgQrem || r == Reg.chgReserveMin || r == Reg.chgSoc
  | .ntcMeasure _ _, r => closeRegs r || r == Reg.chgTemp || r == Reg.chgTemp + 1
  | .gaugeUpdate _ _ _ _, r =>
    r == Reg.chgQacc || r == Reg.chgQacc + 1 || r == Reg.chgQrem || r == Reg.chgVbat || r == Reg.chgIbat || r == Reg.chgSoc
      || r == Reg.chgReserveMin
  | .slotGranted, r | .startFn _, r | .startDur _, r => r == Reg.emgCtl
  | .startRecordCommit _, r => r == Reg.emgCtl
  | .emgAbort _, r => closeRegs r || r == Reg.emgCtl
  | .seqUp, r | .seqClear, r | .seqBadCommand _, r => r == Reg.seqStat
  | .seqDown, r | .seqForceOff, r => closeRegs r || r == Reg.seqStat
  | .seqEn _ _, r => closeRegs r || r == Reg.seqStat || r == Reg.seqEn
  | .request p _ _ _, r | .budgetShortfall p _ _ _, r => r == Reg.pdpBudget p.ix
  | .ppsTimeout p _, r | .senderResponseTimeout p _, r | .hardResetReceived p, r | .srcCut p, r => r == Reg.pdpHresets p.ix
  | .pdpHardReset p, r => r == Reg.pdpCtl p.ix || r == Reg.pdpHresets p.ix
  | .pdpSoftReset p, r | .pdpPrSwap p, r | .pdpRenegotiate p, r | .pdpGetStatus p, r | .pdpGetPpsStatus p, r
  | .pdpGetSrcCapExt p, r => r == Reg.pdpCtl p.ix
  | .pdpRoleCfg p cfg _, r => r == (if cfg then Reg.pdpCfg p.ix else Reg.pdpRole p.ix)
  | .beaconSend, r | .slotTimeout _, r | .claimEnd, r => r == Reg.emgCtl
  | .beaconReceived _, r => r == Reg.emgCtl || r == Reg.lnkBeaconMiss || r == Reg.lnkRssi
  | .statusReceived _ _, r | .claimHeard, r | .joinReceived _ _ _, r | .joinAckReceived _ _, r | .leaveReceived _ _, r
  | .dataReceived _, r => r == Reg.lnkRssi
  | .beaconLost _, r => r == Reg.lnkBeaconMiss
  | .testReqReceived _ _ _ _, r | .testGrantReceived _ _, r | .testEndReceived _ _ _, r => r == Reg.emgCtl || r == Reg.lnkRssi
  | .doorbellReceived _, r => r == Reg.lnkRssi || r == Reg.lnkDbDenied
  | .ackReceived _, r => r == Reg.lnkRssi || r == Reg.lnkTxStat
  | .ackTimeout _, r => r == Reg.lnkNoack || r == Reg.lnkTxStat
  | .frameTransmit _ _, r | .lnkDbSend _ _ _, r => r == Reg.lnkTxStat
  | .capture _ _ _, r => r == Reg.lnkCaptured
  | .crcErrorFrame, r => r == Reg.lnkCrcErr
  | .lnkDisable, r => r == Reg.lnkCfg
  | .summary a _, r | .ident a _, r | .pendingCmd a _, r | .claim a _, r | .complete a _, r | .doorbell a _, r | .ringPush a _, r
  | .ringPop a _, r | .tkrReq a _, r => agentRegs a r
  | .busError _, r => r == Reg.serBusErrs
  | .busTimeout _ _, r => r == Reg.serTimeouts
  | .agtnCtlAwake a _, r => r == Reg.agtCtl a.val
  | .evtRoute x _, r => r == Reg.evtRoute x.toNat
  | .watchHitDormant _, r | .watchHitShip _, r => r == Reg.kprWatchHit || r == Reg.kprWatchHit + 1
  | .ringData0Pop a, r => r == Reg.serAgtStat a.val || r == Reg.serAgtDenyIdx a.val
  | .sramScrub _ _, r => r == Reg.bgProgA + 5
  | .chkJobStart u _, r =>
    r == Reg.chkAcc0 u.val || r == Reg.chkAcc0 u.val + 1 || (Reg.chkCtx u.val 14 ≤ r && r < Reg.chkCtx u.val 14 + 4)
  | .chkAccWrite u _, r => r == Reg.chkAcc0 u.val || r == Reg.chkAcc0 u.val + 1
  | .chkJobDone _, r => r / 256 == 8
  | .tkrRead _ _, r => r == Reg.tkrEccCorr || r == Reg.tkrEccUncorr || r == Reg.tkrUncorrAddr || r == Reg.tkrUncorrAddr + 1
  | .storeScrub _ _, r =>
    r == Reg.tkrEccCorr || r == Reg.tkrEccUncorr || r == Reg.tkrUncorrAddr || r == Reg.tkrUncorrAddr + 1 || r == Reg.tkrScrub
      || r == Reg.bgProgA + 3
  | .oneshotGo a _, r => r == Reg.tlmOsCtl a.val || r == Reg.tlmOsStat a.val || r == Reg.tlmOsResult a.val
  | .oneshotDone a _, r => r == Reg.tlmOsStat a.val || r == Reg.tlmOsResult a.val || r == Reg.tlmOsSpread a.val
  | .telemetryDue _, r | .deadlineMiss _, r => r == Reg.tlmLateCnt || r == Reg.bgLate
  | .telemetryResult e _ _, r =>
    closeRegs r || r == Reg.tlmLateCnt || r == Reg.bgLate || r == Reg.tlmLastE + e.toNat || r == Reg.tlmLimitStat + e.toNat / 16
      || ((e.toNat == 6 || e.toNat == 7) && (r == Reg.chgVbat || r == Reg.chgIbat))
      || (11 ≤ e.toNat && e.toNat ≤ 18 && r == Reg.railSns (e.toNat - 11))
  | .tlmCfg e period _, r => r == (if period then Reg.tlmPeriod else Reg.tlmCfg) + e.toNat
  | .tlmHistInterval _ _, r => r == Reg.tlmHistInterval
  | .calPassEnd _ _ _ _ _ _, r =>
    r == Reg.calLast || r == Reg.calLast + 1 || r == Reg.calPasses || r == Reg.calClockErr || r == Reg.calOfsS + 6 || r == Reg.calOfsS + 7
      || r == Reg.calOfsAgeS + 6 || r == Reg.calOfsAgeS + 7 || r == Reg.bgProgA + 1 || r == Reg.bgProgA + 2
  | .calRun, r | .calTrigger _ _, r => r == Reg.bgProgA + 1 || r == Reg.bgProgA + 2
  | .chkKat _, r | .chkUnitFailed _ _, r => r == Reg.bgProgA + 2
  | .offsetStale _, r => r == Reg.bgLate
  | .senseOffset p _, r => r == Reg.calOfsS + p.val || r == Reg.calOfsAgeS + p.val
  | _, _ => false

/-- From s to t only the fields and the registers of c changed; the part and the queue never do. -/
def Frame (c : Instr) (s t : State) : Prop :=
  t.part = s.part ∧ t.pending = s.pending ∧ (∀ x, x ∉ touches c → x.same s t) ∧ ∀ r, mayWrite c r = false → t.reg r = s.reg r

/-- The families, by their file of spec/. -/
inductive Family where
  | life | inputs | converters | charging | emergency | sequencer | ports | link | serial | fabric | rings | tackRoom | measure
deriving DecidableEq, Repr

def family : Instr → Family
  | .powerOn _ _ _ _ | .keeperPowerLoss _ _ | .shipWake _ | .enterShip | .shipEntry | .enterDormant | .sysPowerBadKey _
  | .watchdogWarn _ _ | .watchdogReset _ _ | .brownout | .wakeNLow _ | .boot _ _ _ _ _ | .remoteWakePulseEnd _
  | .wakeAttemptFail _ _ _ | .wakeRetry _ | .wakeFailRetry _ | .bootDone | .holdTimeout _ _ | .tboLost _
  | .tboLostReset _ | .lfoLost _ | .lfoRestored _ | .rtcAlarm | .rtcSet _ | .watchdogService _ => .life
  | .poeClassEvent _ | .hotSwapOn _ | .hotSwapOff _ | .hotSwapPg _ _ | .hotSwapFault _ _ | .poeValid _ _ _
  | .poeLimitUpdate _ | .poeDllAlloc _ _ | .mpsPulse _ _ | .mpsPulseEnd _ | .inputQualified _ _ _
  | .inputOvervoltage _ _ | .takeover _ | .returnDelay _ _ | .pthEn _ | .batterySupplement _ _ | .vsysLow _ _
  | .strappedCutoff _ | .inputInvalid _ _ | .inputCurrentLimit _ _ _ | .inputVoltageRegulation _ _ | .gateFault _ _ => .inputs
  | .vsysOv _ | .vsysOvResume _ | .cinchTrip _ _ _ | .cinchRunaway _ _ _ | .phaseAdd _ _ | .phaseDrop _ _
  | .senseLost _ _ _ | .driverOverTemp _ _ | .remoteSenseLost _ _ _ _ | .rsRetry _ _ _ | .cnvClear _
  | .reverseStart _ | .deadBusTimeout _ _ | .reverseStop _ | .portCnvFail _ _ | .cnvXnClear _ | .vbusOvp _ _
  | .vbusOvpResume _ _ | .cnvOutputLimit _ _ | .vdrvUndervoltage _ => .converters
  | .chgChem _ | .chgClear | .chargePermissionChange | .qualifyDone _ _ | .recoverDone _ _ | .prechargeDone _ _
  | .cvEntry _ | .termination _ _ _ | .recharge _ _ | .requalify _ | .chgOvervoltage _ _ | .recoveryTimeout
  | .prechargeTimeout | .safetyTimeout | .packRemoved | .packInserted _ | .ntcMeasure _ _ | .dormantNtcSample _ _
  | .gaugeUpdate _ _ _ _ => .charging
  | .emergencyDeclared _ | .emergencyEnded _ | .emgWarn _ _ | .emgWarnClear _ | .emgCutoff _ _ | .testDue
  | .testRetry _ | .testMissed | .slotGranted | .startFn _ | .startDur _ | .startRecordCommit _
  | .testLengthReached _ | .emgAbort _ | .testAbortVbat _ _ => .emergency
  | .seqUp | .seqDown | .seqClear | .seqForceOff | .seqBadCommand _ | .seqEn _ _ | .startDelay _ _ | .powerGood _ _ _
  | .riseTimeout _ _ | .railFault _ _ _ | .railWarning _ _ _ | .railDischarged _ _ | .disMaxTimeout _ _
  | .disWaitStart | .seqRestart _ | .faultLatchAbsent _ _ _ => .sequencer
  | .vbusWake _ _ | .attach _ _ _ _ _ _ | .unsupportedAttach _ | .detach _ _ | .drpToggle _ _ | .sourceTurnOn _ _ _
  | .request _ _ _ _ | .psRdySend _ _ | .ppsTimeout _ _ | .budgetShortfall _ _ _ _ | .sourceCapabilities _ _
  | .sourceCapRepeat _ _ | .keepalive _ _ | .waitReceived _ | .waitRetry _ _ | .psRdyReceived _ _
  | .senderResponseTimeout _ _ | .prSwapReceived _ | .drSwapReceived _ _ | .notSupportedMessage _ _ _ _ _
  | .sinkCapabilities _ _ | .getSourceCap _ | .getSinkCap _ | .getStatusReceived _ | .getPpsStatusReceived _ _ _
  | .getSourceCapExtended _ | .alertReceived _ _ | .discoverIdentity _ | .bistCarrierMode _ _ | .hardResetReceived _
  | .softResetReceived _ | .frsSignal _ _ _ | .frsSend _ | .frsFail _ _ | .srcCut _ | .dischargeDone _ _
  | .dischargeSlow _ _ _ | .pdpHardReset _ | .pdpSoftReset _ | .pdpPrSwap _ | .pdpRenegotiate _ | .pdpGetStatus _
  | .pdpGetPpsStatus _ | .pdpGetSrcCapExt _ | .pdpRoleCfg _ _ _ | .acceptReceived _ | .rejectReceived _
  | .frSwapReceived _ => .ports
  | .beaconSend | .beaconReceived _ | .statusSend | .statusReceived _ _ | .listenTimeout _ _ | .claimStart _ _
  | .claimHeard | .claimWithdraw _ _ | .claimEnd | .joinReceived _ _ _ | .joinAckReceived _ _ | .joinRetry _
  | .beaconGrantLoss _ | .beaconLost _ | .leaveReceived _ _ | .testReqReceived _ _ _ _ | .testGrantReceived _ _
  | .testEndReceived _ _ _ | .slotTimeout _ | .doorbellReceived _ | .dataReceived _ | .ackReceived _ | .ackTimeout _
  | .frameTransmit _ _ | .capture _ _ _ | .lnkDbSend _ _ _ | .lnkDisable | .crcErrorFrame => .link
  | .windowWrite _ _ | .windowRead _ _ _ | .currentPointerRead _ _ | .summary _ _ | .ident _ _ | .status _ _
  | .pendingCmd _ _ | .claim _ _ | .complete _ _ | .doorbell _ _ | .ringPush _ _ | .ringPop _ _ | .tkrReq _ _
  | .quickCommand _ _ | .unackedFirstByte _ _ | .busError _ | .busTimeout _ _ | .araRead _ | .attentionDue _
  | .attentionRepeat _ _ | .attentionFrame _ | .attentionFallback _ | .attentionArbLoss | .notifyFrame _ _
  | .notifyArbLoss | .notifyNack | .notifyStretchTimeout _ => .serial
  | .eventPost _ | .evtDoorbell _ _ | .coalesceTime _ _ | .agtnClaim _ | .agtnComplete _ _ | .agtnCtlAwake _ _
  | .remoteWake _ | .remoteWakeDeferred _ _ | .evtRoute _ _ | .watchHitDormant _ | .watchHitShip _ => .fabric
  | .ringCfg _ _ _ | .ringDataPush _ _ | .ringData0Pop _ | .rawAccess _ _ | .sramScrub _ _ | .chkJobStart _ _
  | .chkJobDone _ | .chkUnitFailed _ _ | .chkKat _ | .chkAccWrite _ _ => .rings
  | .tkrRequestStart _ | .tkrRead _ _ | .tkrInfo _ | .tkrStage _ _ | .tkrNote _ | .tkrSeal _ | .tkrOpen _
  | .tkrWrite _ _ | .tkrClose _ | .tkrAbort _ | .replyDelivered _ | .sessionTimeout _ | .journalPageProgram _
  | .sealTimer _ | .storeScrub _ _ | .blockRefresh _ _ | .blockRetire _ _ | .historyPageProgram _ => .tackRoom
  | .oneshotGo _ _ | .oneshotDone _ _ | .telemetryDue _ | .telemetryResult _ _ _ | .tlmCfg _ _ _
  | .historyIntervalEnd _ | .tlmHistInterval _ _ | .calRun | .calTrigger _ _ | .calPassEnd _ _ _ _ _ _ | .tboTrim _
  | .senseOffset _ _ | .offsetStale _ | .deadlineMiss _ => .measure

/-- The frame of every command of a family. -/
def FrameOf (f : Family) : Prop := ∀ (c : Instr) (s t : State), family c = f → exec c s = .next t → Frame c s t

end Sys2Proof.Safety
end

