-- ==== Sys2Proof/Certificates/Slice0/Obligations.lean ====
section
/-! DEFINITION. The statements for the provers, by family: what the machine as a whole keeps, each family's frame, what each
command does where its conditions hold, and rules of the manual as they stand. -/

open Sys2Proof Sys2Proof.Machine Sys2Proof.Safety

/-! The machine as a whole. -/

/-- A step with a command in front runs it on the rest of the queue (this row's step). -/
def Obligations.StepRunsFront : Prop :=
  ∀ (s : State) (c : Instr) (rest : List Instr), s.pending = c :: rest → step s = exec c { s with pending := rest }

/-- With no command waiting one second passes: the clock of the Keeper counts it in every state but OFF (log 1). -/
def Obligations.IdleSecondPasses : Prop :=
  ∀ s : State, s.pending = [] → s.mode ≠ .off →
    ∃ t, step s = .next t ∧ t.rtc = (s.rtc + 1) % 4294967296 ∧ t.mode = s.mode ∧ t.pending = [] ∧ t.seq = s.seq ∧ t.tkr = s.tkr

/-- Every command answers with a next state: this part has a status, a posting or no effect where a processor would fault. -/
def Obligations.EveryCommandAnswers : Prop := ∀ (c : Instr) (s : State), ∃ t, exec c s = .next t

/-- Reset: OFF, an empty queue, every register at its reset value, no EN high, both memories blank, no entry pending. -/
def Obligations.ResetState : Prop :=
  State.reset.mode = .off ∧ State.reset.pending = []
    ∧ (∀ r, State.reset.reg r = (resetWord State.reset.part State.reset.straps r).toNat)
    ∧ (∀ k, State.reset.enHigh k = false) ∧ (∀ a, sramByte State.reset a = 0) ∧ (∀ a, storeByte State.reset a = 0xFF)
    ∧ State.reset.fab.pend = [] ∧ (∀ a : Agent, State.reset.fab.stack.get a = [])

/-- The invariant holds at reset. -/
def Obligations.ResetMeetsInv : Prop := Inv State.reset

/-- Every step keeps the registers, the ring SRAM and the store in canonical form, and the log heads in range. -/
def Obligations.StepKeepsInv : Prop := ∀ s t : State, Inv s → step s = .next t → Inv t

/-- What manufacture fixes never changes, and a command leaves the queue to the step. -/
def Obligations.PartAndQueueStay : Prop := ∀ (c : Instr) (s t : State), exec c s = .next t → t.part = s.part ∧ t.pending = s.pending

/-- The passages of R72's table. -/
def Obligations.ModePassages : Prop :=
  ∀ (c : Instr) (s t : State), exec c s = .next t → t.mode = s.mode ∨
    (s.mode, t.mode) ∈ ([(.off, .hold), (.off, .ship), (.ship, .hold), (.dormant, .hold), (.active, .ship), (.active, .dormant),
      (.active, .hold), (.hold, .active)] : List (Mode × Mode)) ∨ ((∃ bats vbias, c = .keeperPowerLoss bats vbias) ∧ t.mode = .off)

/-- The VERSION floor in the fuses never falls (R108, R641), whatever command comes. -/
def Obligations.FuseFloorNeverFalls : Prop :=
  ∀ (c : Instr) (s t : State), exec c s = .next t → s.life.fuseFloor ≤ t.life.fuseFloor

/-- A byte of ring SRAM outside the extent of every ring changes only by a raw write, by the destination of a Tack Room READ,
or when the SRAM loses its content. -/
def Obligations.SramFrame : Prop :=
  ∀ (c : Instr) (s t : State), exec c s = .next t →
    (match c with
     | .rawAccess _ _ | .windowWrite _ _ | .tkrRead _ _ | .keeperPowerLoss _ _ | .shipEntry | .enterDormant | .watchdogReset _ _
     | .tboLostReset _ | .brownout => False
     | _ => True) →
    ∀ a, (∀ k, ¬ inExtent s.fab k a) → sramByte t a = sramByte s a

/-- A byte of the store outside the log partitions changes only by STAGE, OPEN, WRITE and CLOSE, by the stage slot at a boot,
and by the wear management of its block. -/
def Obligations.StoreFrame : Prop :=
  ∀ (c : Instr) (s t : State), Inv s → exec c s = .next t →
    (match c with
     | .tkrStage _ _ | .tkrOpen _ | .tkrWrite _ _ | .tkrClose _ | .boot _ _ _ _ _ | .blockRefresh _ _ | .blockRetire _ _ => False
     | _ => True) →
    ∀ a, ¬ inLogs a → storeByte t a = storeByte s a

/-- The memory frame of the commands that store to the bytes named here: a raw write stores the sixteen bytes of the word at
RING_ADDR and no other. -/
def Obligations.RawWriteFrame : Prop :=
  ∀ (s t : State) (a : Agent) (d : List (Fin 8 × Word)), exec (.rawAccess a (some d)) s = .next t →
    ∀ b, ¬ (16 * (s.ser.ag.get a).addr.toNat ≤ b ∧ b < 16 * (s.ser.ag.get a).addr.toNat + 16) → sramByte t b = sramByte s b

/-! Frames, family by family. -/

/-- Life cycle, inputs, power path and converters. -/
def Obligations.PowerFrame : Prop := FrameOf .life ∧ FrameOf .inputs ∧ FrameOf .converters

/-- Charging, emergency and tests, rail sequencing. -/
def Obligations.ReserveFrame : Prop := FrameOf .charging ∧ FrameOf .emergency ∧ FrameOf .sequencer

/-- Ports and the Link. -/
def Obligations.PortsAndLinkFrame : Prop := FrameOf .ports ∧ FrameOf .link

/-- The serial port, the event fabric, rings and Check units. -/
def Obligations.FabricFrame : Prop := FrameOf .serial ∧ FrameOf .fabric ∧ FrameOf .rings

/-- The Tack Room, measurement and background work. -/
def Obligations.StoreAndMeasureFrame : Prop := FrameOf .tackRoom ∧ FrameOf .measure

/-! 03, life cycle. -/

/-- Leaving ACTIVE: what loses power, SHIP, DORMANT, the watchdog and the brownout (R72 to R76, R95, R100, R104, R113). The
Keeper's threshold within R608's range is free (log 87); what a watchdog reset keeps follows log 43. -/
def Obligations.LeavingActive : Prop :=
  (∀ (s : State) (bats vbias : Nat), max bats vbias < Config.kprFall →
      Answers (.keeperPowerLoss bats vbias) s fun t => t.mode = .off ∧ t.regs = [] ∧ t.tkr.store = s.tkr.store ∧ t.tkr.erases = s.tkr.erases
        ∧ t.life.fuseFloor = s.life.fuseFloor ∧ ∀ k, t.enHigh k = false)
  ∧ (∀ (s : State) (bats vbias : Nat), Config.kprFall ≤ max bats vbias → exec (.keeperPowerLoss bats vbias) s = .next s)
  ∧ (∀ s : State, s.mode = .active → s.anyValid = false → s.emg.emergency = false → s.testing = false → s.life.shipReq = .none →
      s.seq.state ≠ .stuck →
      Answers .enterShip s fun t => t.fld Reg.sysPower 12 4 = 1 ∧ t.life.shipReq = .agent ∧ t.mode = .active
        ∧ (s.seq.state = .down ∨ (∃ k, s.seq.en.get k = true ∧ s.seq.disch.get k = false) → t.seq.state = .down)
        ∧ (s.seq.state ≠ .down → highest s.seq.en = none → t.seq.state = .off))
  ∧ (∀ s : State, s.mode = .active → s.life.shipReq ≠ .none → s.railsDown = true →
      Answers .shipEntry s fun t => t.mode = .ship ∧ t.pp.batfet = .off ∧ t.pp.valid = Four.all false ∧ ∀ k, t.enHigh k = false)
  ∧ (∀ s : State, s.mode = .active → s.dormantBlocked = false →
      Answers .enterDormant s fun t => t.mode = .dormant ∧ t.fld Reg.sysPower 12 4 = 1 ∧ t.seq.en = s.seq.en
        ∧ t.chg = { s.chg with limited := t.chg.limited, halfRate := t.chg.halfRate })
  ∧ (∀ s : State, s.mode = .active → s.dormantBlocked = true → exec .enterDormant s = .next (s.setFld Reg.sysPower 12 4 3))
  ∧ (∀ (s : State) (v : Byte), s.mode = .active → v ≠ 0xA5 → v ≠ 0xD3 →
      exec (.sysPowerBadKey v) s = .next (s.setFld Reg.sysPower 12 4 5))
  ∧ (∀ s : State, s.mode = .active →
      Answers .brownout s fun t => t.mode = .hold ∧ t.life.kind = .brownout ∧ t.life.causes = 0x40 ∧ t.seq.en = s.seq.en
        ∧ t.chg.st = .idle)
  ∧ (∀ (s : State) (ch : WdgCh) (ms : Nat), s.mode = .active → s.life.armed = true → s.wdgWarned ch = true → s.wdgPeriod ch ≤ ms →
      Answers (.watchdogReset ch ms) s fun t => t.mode = .hold ∧ t.life.kind = .watchdog ∧ t.life.causes = 1 ∧ t.seq.en = s.seq.en
        ∧ ∀ r, t.reg r = if convBank r then s.reg r else (resetWord s.part s.straps r).toNat)
  ∧ (∀ (s : State) (ms : Nat), s.mode = .active → s.life.tboSilent = true → s.wdgPeriod .e ≤ ms →
      Answers (.tboLostReset ms) s fun t => t.mode = .hold ∧ t.life.kind = .watchdog ∧ t.life.causes = 1
        ∧ ∀ r, t.reg r = if convBank r then s.reg r else (resetWord s.part s.straps r).toNat)

/-- The wakes and the wake attempts (R62, R72, R83 to R93, R114, R341). -/
def Obligations.WakingUp : Prop :=
  (∀ (s : State) (m : BitVec 4) (v c : Option Nat) (bats : Nat), s.mode = .off →
      Answers (.powerOn m v c bats) s fun t => t.mode = (if s.maskInputs m = [] then .ship else .hold) ∧ t.life.causes.getLsbD 0 = true
        ∧ t.straps.chem = (strapCode c).getD 0 ∧ ∀ i ∈ s.maskInputs m, t.isValid i = true)
  ∧ (∀ s : State, s.mode = .ship → Answers (.shipWake none) s fun t => t.mode = .hold ∧ t.life.causes.getLsbD 1 = true)
  ∧ (∀ (s : State) (i : InputId), s.mode = .ship → s.eligible i = true →
      Answers (.shipWake (some i)) s fun t => t.mode = .hold ∧ t.life.causes.getLsbD 3 = true ∧ t.isValid i = true)
  ∧ (∀ (s : State) (us : Nat), 10 ≤ us → s.life.pulse = false → s.mode = .ship ∨ s.mode = .dormant →
      Answers (.wakeNLow us) s fun t => t.mode = .hold ∧ t.life.causes.getLsbD 1 = true)
  ∧ (∀ s : State, s.life.pulse = true →
      exec (.remoteWakePulseEnd false) s = .next { s with life := { s.life with pulse := false } })
  ∧ (∀ s : State, s.life.pulse = true → s.mode = .hold →
      Answers (.remoteWakePulseEnd true) s fun t => t.mode = .hold ∧ t.life.causes.getLsbD 1 = true)
  ∧ (∀ s : State, s.mode ≠ .off → s.flag Reg.kprCfg 1 = true → s.rtc = s.reg32 Reg.kprAlarm →
      Answers .rtcAlarm s fun t => t.flag Reg.kprStat 2 = true ∧ t.flag Reg.kprCfg 1 = false
        ∧ (s.mode = .dormant → t.mode = .hold ∧ t.life.causes.getLsbD 5 = true) ∧ (s.mode = .ship → t.mode = .ship))
  ∧ (∀ (s : State) (p : Port) (mv : Nat), s.mode = .ship ∨ s.mode = .dormant → s.part.variant.hasPort p = true →
      (s.pdp.get p).role = .none → (s.pdp.get p).roleIn = 2 ∨ (s.pdp.get p).roleIn = 3 → 4000 < mv →
      Answers (.vbusWake p mv) s fun t => t.mode = .hold ∧ t.life.causes.getLsbD 3 = true)
  ∧ (∀ (s : State) (tbo vddc vbat : Nat), s.mode = .hold → s.life.booted = false → s.life.wakeFailed = false → s.life.waiting = false →
      2000 < tbo ∨ 1000 < vddc → Answers (.wakeAttemptFail tbo vddc vbat) s fun t =>
        if s.life.attempts < 3 then t.life.attempts = s.life.attempts + 1 ∧ t.life.waiting = true ∧ t.life.wakeFailed = false
        else t.life.wakeFailed = true ∧ t.life.defaults = true ∧ t.reg Reg.kprWakeFails = min 255 (s.reg Reg.kprWakeFails + 1))
  ∧ (∀ (s : State) (ms : Nat), s.life.waiting = true → 10 ≤ ms →
      exec (.wakeRetry ms) s = .next { s with life := { s.life with waiting := false } })
  ∧ (∀ (s : State) (secs : Nat), s.mode = .hold → s.life.wakeFailed = true → 60 ≤ secs →
      Answers (.wakeFailRetry secs) s fun t => t.mode = .hold ∧ t.life.wakeFailed = false ∧ t.life.attempts = 0 ∧ t.life.causes.getLsbD 5 = true)
  ∧ (∀ (s : State) (ms vbat : Nat), s.mode = .hold → s.life.defaults = false → 500 ≤ ms →
      Answers (.holdTimeout ms vbat) s fun t => t.life.defaults = true ∧ t.pp.held.tgt = vsafeTarget s.straps.vsafe
        ∧ t.cnv.goal = vsafeTarget s.straps.vsafe ∧ t.chg.st = .idle ∧ t.pp.linear = false
        ∧ t.pp.batfet = (if s.straps.chem ≠ 0 ∧ s.cutoffMv < vbat then .on else .off))

/-- The boot, the watchdog in ACTIVE, the oscillators and the clock (R77 to R83, R98, R101, R104 to R106, R114). That BOOT does
steps 1 to 5 and BOOT_DONE step 6 is log 22. -/
def Obligations.BootAndClocks : Prop :=
  (∀ (s : State) (adr1 adr0 : AdrTie) (h l : Level) (sns : Eight Nat) (vbat : Nat) (ok : Bool), s.mode = .hold → s.life.booted = false →
      s.life.wakeFailed = false → s.life.waiting = false → adrRead adr1 = some h → adrRead adr0 = some l →
      Answers (.boot adr1 adr0 sns vbat ok) s fun t => t.mode = .hold ∧ t.life.booted = true ∧ t.straps.adr = 3 * levelOf h + levelOf l
        ∧ t.straps.chem = s.straps.chem)
  ∧ (∀ s : State, s.mode = .hold → s.life.booted = true →
      Answers .bootDone s fun t => t.mode = .active ∧ t.life.armed = true ∧ t.fab.absent = []
        ∧ t.reg Reg.kprWakeCause = s.life.causes.toNat)
  ∧ (∀ (s : State) (ch : WdgCh) (ms : Nat), s.mode = .active → s.life.armed = true → s.wdgWarned ch = false → s.wdgPeriod ch ≤ ms →
      Answers (.watchdogWarn ch ms) s fun t => t.wdgWarned ch = true ∧ t.mode = .active ∧ t.fab = s.postFab (match ch with | .s => 32 | .e => 33) 0)
  ∧ (∀ (s : State) (ch : WdgCh), s.mode = .active → s.life.armed = true →
      Answers (.watchdogService ch) s fun t => t.wdgWarned ch = false ∧ t.fab = s.fab ∧ t.mode = .active)
  ∧ (∀ (s : State) (us : Nat), s.mode = .active → s.life.armed = true → 1000 ≤ us →
      Answers (.tboLost us) s fun t => t.life.tboSilent = true ∧ t.fab = s.postFab 33 0)
  ∧ (∀ (s : State) (us : Nat), s.mode = .active → s.life.armed = true → us < 1000 →
      exec (.tboLost us) s = .next { s with life := { s.life with tboSilent := false } })
  ∧ (∀ (s : State) (us : Nat), s.mode ≠ .off → s.life.lfoBackup = false → 1000 ≤ us →
      Answers (.lfoLost us) s fun t => t.life.lfoBackup = true ∧ t.fab = s.postFab 34 0)
  ∧ (∀ (s : State) (n : Nat), 64 ≤ n → exec (.lfoRestored n) s = .next { s with life := { s.life with lfoBackup := false } })
  ∧ (∀ (s : State) (v : Word32), s.mode = .active →
      Answers (.rtcSet v) s fun t => t.rtc = v.toNat ∧ t.flag Reg.kprStat 1 = true)

/-- R74: a SHIP request is refused with INPUT_VALID while any input is valid, and with BLOCKED in EMERGENCY or a test. -/
def Obligations.ShipRefused : Prop :=
  ∀ s : State, s.mode = .active →
    (s.anyValid = true → exec .enterShip s = .next (s.setFld Reg.sysPower 12 4 2))
    ∧ (s.anyValid = false → s.emg.emergency = true ∨ s.testing = true → exec .enterShip s = .next (s.setFld Reg.sysPower 12 4 3))

/-! 04, inputs and power path. -/

/-- The PoE front end (R116 to R126); that HS_FAULT clears as VPP falls below 30.0 V is log 80. -/
def Obligations.PoeFrontEnd : Prop :=
  (∀ (s : State) (cls : Option Nat), s.pp.poe.hsg = .off → Answers (.poeClassEvent cls) s fun t =>
      t.pp.poe.events = min 5 (s.pp.poe.events + 1) ∧ t.pp.poe.requested = (cls.bind clsOf).getD 1
        ∧ t.pp.poe.sig = classSignature ((cls.bind clsOf).getD 1) (min 5 (s.pp.poe.events + 1))
        ∧ t.pp.poe.assigned = assignedClass (min 5 (s.pp.poe.events + 1)) ((cls.bind clsOf).getD 1)
        ∧ t.pp.poe.clsBad = (cls.bind clsOf).isNone)
  ∧ (∀ (s : State) (cls : Option Nat), s.pp.poe.hsg ≠ .off → exec (.poeClassEvent cls) s = .next s)
  ∧ (∀ (s : State) (mv : Nat), 36000 < mv → s.pp.poe.hsg = .off → s.pp.poe.hsFault = false → s.pp.poe.events ≠ 0 →
      exec (.hotSwapOn mv) s = .next { s with pp := { s.pp with poe := { s.pp.poe with hsg := .rising } } })
  ∧ (∀ (s : State) (mv : Nat), mv < 30000 → Answers (.hotSwapOff mv) s fun t =>
      t.pp.poe.hsg = .off ∧ t.pp.poe.pg = false ∧ t.pp.poe.hsFault = false ∧ t.pp.poe.events = 0
        ∧ t.fab = (if s.pp.poe.pg then s.postFab 96 0 else s.fab))
  ∧ (∀ (s : State) (ma : Nat) (enhanced : Bool), s.pp.poe.hsg = .on ∨ (s.pp.poe.hsg = .rising ∧ enhanced = true) → s.pp.poe.pg = false →
      ma < (s.fld Reg.poeCfg 0 3 + 1) * 40 →
      Answers (.hotSwapPg ma enhanced) s fun t => t.pp.poe.pg = true ∧ t.pp.poe.hsg = .on ∧ t.fab = s.postFab 96 0)
  ∧ (∀ (s : State) (ma : Nat), s.pp.poe.hsg ≠ .on → exec (.hotSwapPg ma false) s = .next s)
  ∧ (∀ (s : State) (ma us : Nat), s.pp.poe.pg = true → 2200 < ma → 1000 ≤ us →
      Answers (.hotSwapFault ma us) s fun t => t.pp.poe.hsFault = true ∧ t.pp.poe.hsg = .off ∧ t.pp.poe.pg = false
        ∧ t.fab = (s.posts [96, 100]).fab)
  ∧ (∀ (s : State) (mv ms us : Nat), s.mode = .active → s.eligible .poe = true → s.isValid .poe = false → s.pp.poe.pg = true → 80 ≤ ms →
      s.qualifies .poe mv us = true →
      Answers (.poeValid mv ms us) s fun t => t.isValid .poe = true ∧ t.pp.poe.ready = true ∧ t.mode = .active)
  ∧ (∀ (s : State) (mv : Nat), s.mode = .active → Answers (.poeLimitUpdate mv) s fun t => t.pp.poe.lim = s.poeLimit mv ∧ t.regs = s.regs)
  ∧ (∀ (s : State) (v : Word) (mv : Nat), s.mode = .active → Answers (.poeDllAlloc v mv) s fun t =>
      t.reg Reg.poeDllAlloc = storeFields (fieldsOf Reg.poeDllAlloc) (s.reg Reg.poeDllAlloc) v.toNat % 65536 ∧ t.pp.poe.lim = t.poeLimit mv)
  ∧ (∀ (s : State) (ma ms : Nat), s.pp.poe.pg = true → s.flag Reg.poeCfg 4 = true → ma < 20 → (if s.pp.poe.mps then 250 else 200) ≤ ms →
      Answers (.mpsPulse ma ms) s fun t => t.pp.poe.mps = true ∧ t.pp.poe.pulse = true
        ∧ t.fab = (if s.pp.poe.mps then s.fab else s.postFab 99 0))
  ∧ (∀ (s : State) (ms : Nat), 8 ≤ ms →
      exec (.mpsPulseEnd ms) s = .next { s with pp := { s.pp with poe := { s.pp.poe with pulse := false } } })

/-- Validity, the takeover and the planned moves (R129 to R142). -/
def Obligations.InputsAndTakeover : Prop :=
  (∀ (s : State) (i : InputId) (mv us : Nat), s.mode = .active → s.eligible i = true → s.isValid i = false → s.qualifies i mv us = true →
      i ≠ .poe ∨ (s.pp.poe.pg = true ∧ s.pp.poe.ready = true) → Answers (.inputQualified i mv us) s fun t => t.isValid i = true ∧ t.mode = .active)
  ∧ (∀ (s : State) (i : InputId) (mv : Nat), s.mode = .active → s.isValid i = true → s.pp.conn ≠ some i → mv < s.floorMv i →
      Answers (.inputInvalid i mv) s fun t => t.isValid i = false ∧ t.pp.conn = s.pp.conn ∧ t.fab = s.postFab (72 + i.ix.val) 0)
  ∧ (∀ (s : State) (i : InputId) (mv : Nat), s.mode ≠ .off → ovThreshold i ≤ mv →
      Answers (.inputOvervoltage i mv) s fun t => t.isValid i = false ∧ t.pp.ov.get i.ix = true)
  ∧ (∀ (s : State) (i : InputId) (why : Collapse), s.mode = .active → s.pp.conn = some i → s.isValid i = true → s.pp.isolated = false →
      (match why with
       | .low mv => 10 * mv < 9 * s.floorMv i ∧ (s.cnv.rev = false ∨ s.cnv.deadBus = false)
       | .reverse uv => uv < -1500 ∧ s.cnv.rev = false
       | .over mv => ovThreshold i ≤ mv) →
      Answers (.takeover why) s fun t => t.isValid i = false ∧ t.pp.conn ≠ some i ∧ t.cnv.rev = false
        ∧ t.reg Reg.pthTakeovers = min 255 (s.reg Reg.pthTakeovers + 1)
        ∧ ∀ j, t.pp.conn = some j → s.isValid j = true ∧ s.eligible j = true)
  ∧ (∀ (s : State) (i j : InputId) (ms : Nat), s.pp.conn = some j → s.mode = .active → s.isValid i = true → s.eligible i = true →
      s.rankKey i < s.rankKey j → s.reg Reg.pthReturn * 10 ≤ ms → s.cnv.rev = false → s.pp.isolated = false →
      Answers (.returnDelay i ms) s fun t => t.pp.conn = some i)
  ∧ (∀ (s : State) (v : Word), s.mode = .active → Answers (.pthEn v) s fun t =>
      t.reg Reg.pthEn = clearBits (storeFields (fieldsOf Reg.pthEn) (s.reg Reg.pthEn) v.toNat) (absentBits s.part.variant Reg.pthEn) % 65536)

/-- The limits, the battery and VSYS (R131, R144 to R147, R153), and a gate that does not follow; how SUPPLEMENT follows
VSYS is log 77, and which VBAT the comparators saw is log 92. -/
def Obligations.LimitsAndBattery : Prop :=
  (∀ (s : State) (i : InputId) (ma vin : Nat) (ibat : Int), s.pp.conn = some i →
      Answers (.inputCurrentLimit ma vin ibat) s fun t => t.pp.ilim = decide (lowInputLimit vin (s.inputLimit i) * 10 ≤ ma)
        ∧ t.chg.limited = (s.chgFlows && (t.pp.ilim || s.pp.vfloor || s.plinHolds))
        ∧ (s.chg.safetyCounts = false →
            t.fab = (if lowInputLimit vin (s.inputLimit i) * 10 ≤ ma ∧ s.pp.ilim = false then s.postFab 67 0 else s.fab)))
  ∧ (∀ (s : State) (i : InputId) (mv : Nat) (ibat : Int), s.pp.conn = some i →
      Answers (.inputVoltageRegulation mv ibat) s fun t => t.pp.vfloor = decide (mv ≤ s.floorMv i)
        ∧ t.chg.limited = (s.chgFlows && (s.pp.ilim || t.pp.vfloor || s.plinHolds))
        ∧ (s.chg.safetyCounts = false → t.fab = (if mv ≤ s.floorMv i ∧ s.pp.vfloor = false then s.postFab 68 0 else s.fab)))
  ∧ (∀ (s : State) (vsys vbat : Nat), s.mode ≠ .off → s.mode ≠ .ship → (s.seeVbat vbat).batteryCan = true → vsys + 30 ≤ vbat →
      Answers (.batterySupplement vsys vbat) s fun t => t.pp.supplement = true ∧ t.pp.batfet = .on
        ∧ t.fab = (if s.pp.supplement then s.fab else s.postFab 69 0))
  ∧ (∀ (s : State) (vsys vbat : Nat), s.mode ≠ .off → s.mode ≠ .ship → vbat < vsys →
      Answers (.batterySupplement vsys vbat) s fun t => t.pp.supplement = false ∧ t.pp.vbat = vbat
        ∧ (s.pp.conn ≠ none → s.cnv.rev = false → s.chg.st.charging = false → s.mode ≠ .hold ∨ s.life.defaults = false → t.pp.batfet = .off))
  ∧ (∀ (s : State) (mv us : Nat), s.mode ≠ .off → s.mode ≠ .ship → mv < s.setpoints.vsysMin * 19 → 1000 ≤ us →
      Answers (.vsysLow mv us) s fun t => t.pp.vsysLow = true
        ∧ (s.chgFlows = false → t.fab = (if s.pp.vsysLow then s.fab else s.postFab 70 0)))
  ∧ (∀ (s : State) (mv us : Nat), s.mode ≠ .off → s.mode ≠ .ship → s.setpoints.vsysMin * 19 ≤ mv →
      Answers (.vsysLow mv us) s fun t => t.pp.vsysLow = false ∧ t.regs = s.regs)
  ∧ (∀ (s : State) (vbat : Nat), s.straps.chem ≠ 0 → s.mode ≠ .off → s.mode ≠ .ship → vbat ≤ s.cutoffMv →
      Answers (.strappedCutoff vbat) s fun t => t.pp.cutoff = true ∧ t.pp.supplement = false
        ∧ (s.chg.st.charging = false → t.pp.batfet = .off)
        ∧ (s.chg.st.charging = false → s.pp.inelig = false → t.fab = (if s.pp.cutoff then s.fab else s.postFab 80 0)))
  ∧ (∀ (s : State) (vbat : Nat), s.straps.chem ≠ 0 → s.mode ≠ .off → s.mode ≠ .ship → s.cutoffMv < vbat →
      Answers (.strappedCutoff vbat) s fun t => t.pp.cutoff = false ∧ t.pp.vbat = vbat
        ∧ (s.pp.conn = none → s.packPresent = true → s.pp.inelig = false → t.pp.batfet = .on))
  ∧ (∀ (s : State) (i : InputId) (us : Nat), s.mode ≠ .off → 5 < us → s.emg.run = none → exec (.gateFault i us) s = .next (s.post 81))

/-! 05, converters. -/

/-- The main phases: overvoltage, Cinch, shedding, failure, and the return to service (R168 to R194). -/
def Obligations.MainPhases : Prop :=
  (∀ (s : State) (mv : Nat), s.analogOn = true → s.cnv.ov = false → s.cnv.tgt * 22 < mv ∨ 34000 < mv →
      Answers (.vsysOv mv) s fun t => t.cnv.ov = true ∧ t.fab = s.postFab 181 0 ∧ ∀ p, (t.cnv.phases.get p).iv = .off)
  ∧ (∀ (s : State) (mv : Nat), s.analogOn = true → s.cnv.ov = true → mv < s.cnv.tgt * 21 →
      exec (.vsysOvResume mv) s = .next { s with cnv := { s.cnv with ov := false, phases := spaced s.cnv.phases } })
  ∧ (∀ (s : State) (p : Phase) (uv quiet : Nat), s.mode = .active → s.cinchUv (.main p) ≤ uv → (s.cnv.phases.get p).st = .run →
      Answers (.cinchTrip (.main p) uv quiet) s fun t => (t.cnv.phases.get p).iv = .cinched ∧ t.reg (Reg.cnvPCinchCnt p.val) = min 65535 (s.reg (Reg.cnvPCinchCnt p.val) + 1)
        ∧ ∀ q, (s.cnv.phases.get q).healthy = true → (t.cnv.phases.get q).st = .run)
  ∧ (∀ (s : State) (p : Phase) (uv cycles : Nat), s.analogOn = true → 125 * s.cinchUv (.main p) ≤ 100 * uv → 2 ≤ cycles →
      (s.cnv.phases.get p).st ≠ .isolated →
      Answers (.cinchRunaway (.main p) uv cycles) s fun t => (t.cnv.phases.get p).st = .isolated ∧ (t.cnv.phases.get p).runaway = true)
  ∧ (∀ (s : State) (ma us : Nat), s.analogOn = true → s.flag Reg.cnvCtl 2 = true → 1 ≤ s.cnv.runCount → s.cnv.runCount < s.cnv.healthyCount →
      s.reg (Reg.cnvShedAdd1 + (s.cnv.runCount - 1)) * 100 < ma → s.reg Reg.cnvShedDwell * 50 ≤ us →
      Answers (.phaseAdd ma us) s fun t => t.cnv.runCount = s.cnv.runCount + 1 ∧ t.cnv.healthyCount = s.cnv.healthyCount)
  ∧ (∀ (s : State) (p : Phase) (ma us : Nat), s.cnv.lastRun = some p → s.analogOn = true → s.flag Reg.cnvCtl 2 = true → 2 ≤ s.cnv.runCount →
      ma < s.reg (Reg.cnvShedDrop2 + (s.cnv.runCount - 2)) * 100 → s.reg Reg.cnvShedDwell * 50 ≤ us →
      Answers (.phaseDrop ma us) s fun t => (t.cnv.phases.get p).st = .shed ∧ t.cnv.runCount + 1 = s.cnv.runCount)
  ∧ (∀ (s : State) (p : Phase) (uv : Int) (n : Nat), s.analogOn = true → 150000 < uv ∨ uv < -150000 → 3 ≤ n →
      (s.cnv.phases.get p).st ≠ .isolated →
      Answers (.senseLost p uv n) s fun t => (t.cnv.phases.get p).st = .isolated ∧ (t.cnv.phases.get p).sense = true)
  ∧ (∀ (s : State) (p : Phase) (dc : Int), s.analogOn = true → 1350 ≤ dc → (s.cnv.phases.get p).st ≠ .isolated →
      Answers (.driverOverTemp p dc) s fun t => (t.cnv.phases.get p).st = .isolated ∧ (t.cnv.phases.get p).ot = true)
  ∧ (∀ (s : State) (vs vb : Nat) (g : Int) (us : Nat), s.analogOn = true → s.cnv.rsInt = false → senseOut vs vb g = true → 20 ≤ us →
      Answers (.remoteSenseLost vs vb g us) s fun t => t.cnv.rsInt = true ∧ t.cnv.rsOut = true ∧ t.fab = s.postFab 178 0)
  ∧ (∀ (s : State) (vs vb : Nat) (g : Int), s.mode = .active → s.cnv.rsInt = true → senseOut vs vb g = false →
      Answers (.rsRetry vs vb g) s fun t => t.cnv.rsInt = false ∧ t.fab = s.postFab 179 0)
  ∧ (∀ (s : State) (m : BitVec 4) (p : Phase), s.mode = .active → m.getLsbD p.val = true → (s.cnv.phases.get p).st = .isolated →
      Answers (.cnvClear m) s fun t => (t.cnv.phases.get p).st ≠ .isolated ∧ (t.cnv.phases.get p).sense = false
        ∧ (t.cnv.phases.get p).runaway = false ∧ (t.cnv.phases.get p).ot = false)

/-- Reverse, the port converters, the output limit and the gate supply (R160, R163 to R165, R170, R175, R176, R195 to R199,
R204, R205, R608, R609). The cycles that CNV_OUTPUT_LIMIT brings are log 94, and RUN beside OVP is log 84. -/
def Obligations.ReverseAndPortConverters : Prop :=
  (∀ (s : State) (n vaux : Nat), s.mayReverse = true → s.lnk.grant = some (true, n) → s.cnv.rev = false →
      (18000 ≤ vaux ∧ vaux ≤ 57000) ∨ vaux < 2000 →
      Answers (.reverseStart vaux) s fun t => t.cnv.rev = true ∧ t.pp.conn = some .aux ∧ (s.batteryCan = true → t.pp.batfet = .on)
        ∧ t.cnv.deadBus = decide (vaux < 2000) ∧ t.cnv.revOut = min s.cnv.revI (s.reg Reg.cnvRevImax)
        ∧ t.cnv.revCeil = decide (s.reg Reg.cnvRevVmax * 100 ≤ vaux))
  ∧ (∀ (s : State) (vaux ms : Nat), s.cnv.rev = true → s.cnv.deadBus = true →
      (vaux < 18000 → 50 ≤ ms → Answers (.deadBusTimeout vaux ms) s fun t => t.cnv.rev = false)
      ∧ (18000 ≤ vaux → exec (.deadBusTimeout vaux ms) s =
        .next { s with cnv := { s.cnv with deadBus := false, revCeil := decide (s.reg Reg.cnvRevVmax * 100 ≤ vaux) } }))
  ∧ (∀ (s : State) (why : RevEnd), s.cnv.rev = true →
      (match why with
       | .grantEnded => ∀ n, s.lnk.grant ≠ some (true, n)
       | .condition vaux => s.mayReverse = false ∨ 57000 < vaux ∨ (vaux < 18000 ∧ s.cnv.deadBus = false)
       | .vsys mv => mv < s.setpoints.vsysMin * 20) →
      Answers (.reverseStop why) s fun t => t.cnv.rev = false ∧ t.cnv.deadBus = false)
  ∧ (∀ (s : State) (vaux : Nat), s.cnv.rev = true → s.mayReverse = true → 18000 ≤ vaux → vaux ≤ 57000 →
      Answers (.reverseStop (.condition vaux)) s fun t => t.cnv.rev = true ∧ t.cnv.deadBus = false)
  ∧ (∀ (s : State) (p : Port) (why : XFail), s.analogOn = true → s.part.variant.hasPort p = true → (s.cnv.x.get p).stopped = false →
      Answers (.portCnvFail p why) s fun t => (t.cnv.x.get p).stopped = true ∧ (t.cnv.x.get p).run = false)
  ∧ (∀ (s : State) (p : Port) (uv n : Nat), s.analogOn = true → s.part.variant.hasPort p = true → (s.cnv.x.get p).stopped = false →
      125 * s.cinchUv (.x p) ≤ 100 * uv → 2 ≤ n →
      Answers (.cinchRunaway (.x p) uv n) s fun t => (t.cnv.x.get p).stopped = true ∧ (t.cnv.x.get p).runaway = true)
  ∧ (∀ (s : State) (p : Port) (uv quiet : Nat), s.mode = .active → s.cinchUv (.x p) ≤ uv → (s.cnv.x.get p).run = true →
      Answers (.cinchTrip (.x p) uv quiet) s fun t => t.reg (Reg.cnvXCinchCnt p.ix) = min 65535 (s.reg (Reg.cnvXCinchCnt p.ix) + 1)
        ∧ (t.cnv.x.get p).run = true)
  ∧ (∀ (s : State) (p : Port), s.mode = .active → s.part.variant.hasPort p = true → (s.cnv.x.get p).stopped = true →
      Answers (.cnvXnClear p) s fun t => (t.cnv.x.get p).stopped = false ∧ (t.cnv.x.get p).sense = false
        ∧ (t.cnv.x.get p).runaway = false ∧ (t.cnv.x.get p).ot = false)
  ∧ (∀ (s : State) (p : Port) (mv : Nat), s.analogOn = true → s.part.variant.hasPort p = true → (s.cnv.x.get p).run = true →
      (s.cnv.x.get p).ovp = false → 11 * (s.cnv.x.get p).vtgt < 10 * mv →
      Answers (.vbusOvp p mv) s fun t => (t.cnv.x.get p).ovp = true ∧ (t.cnv.x.get p).run = true)
  ∧ (∀ (s : State) (p : Port) (mv : Nat), s.analogOn = true → (s.cnv.x.get p).ovp = true → 100 * mv < 105 * (s.cnv.x.get p).vtgt →
      Answers (.vbusOvpResume p mv) s fun t => (t.cnv.x.get p).ovp = false ∧ t.fab = s.fab)
  ∧ (∀ (s : State) (ma : Nat) (cs : Four Cycle), s.analogOn = true → s.mainStopped = false →
      Answers (.cnvOutputLimit ma (.main cs)) s fun t => t.cnv.phases = s.mainCycles cs ∧ t.cnv.ilim = decide (s.ilimEff * 100 ≤ ma)
        ∧ t.fab = (if s.ilimEff * 100 ≤ ma ∧ s.cnv.ilim = false then s.postFab 180 0 else s.fab))
  ∧ (∀ (s : State) (p : Port) (ma : Nat) (c : Cycle), s.analogOn = true → s.cnv.vdrvLow = false → s.part.variant.hasPort p = true →
      (s.cnv.x.get p).run = true → (s.cnv.x.get p).ovp = false →
      Answers (.cnvOutputLimit ma (.x p c)) s fun t =>
        (t.cnv.x.get p).ilim = decide (s.xLimit (s.cnv.x.get p).iset (s.cnv.x.get p).vtgt ≤ ma) ∧ (t.cnv.x.get p).run = true)
  ∧ (∀ (s : State) (mv : Nat),
      (mv < 7200 → exec (.vdrvUndervoltage mv) s = .next { s with cnv := { s.cnv with vdrvLow := true } })
      ∧ (7800 ≤ mv → exec (.vdrvUndervoltage mv) s = .next { s with cnv := { s.cnv with vdrvLow := false } }))

/-! 06, charging. -/

/-- The table of R216: each passage in its state, with its conditions; when the table is looked at is log 52, the counts of
the timers log 53, a top-off that terminates with FLOAT log 81. -/
def Obligations.ChargeTable : Prop :=
  (∀ s : State, s.mode = .active → s.emg.emergency = false → s.chgPermitted = false → s.chg.st ≠ .isolated → s.chg.st ≠ .emergency →
      Answers .chargePermissionChange s fun t => t.chg.st = .idle ∧ t.regs = s.regs)
  ∧ (∀ s : State, s.mode = .active → s.emg.emergency = false → s.chgPermitted = true → s.chg.st = .idle →
      Answers .chargePermissionChange s fun t => t.chg.st = (if s.reg Reg.chgFault = 0 then .qualify else .fault))
  ∧ (∀ s : State, s.mode = .active → s.chem ≠ 0 → s.emg.emergency = true → s.chg.st ≠ .isolated →
      Answers .chargePermissionChange s fun t => t.chg.st = .emergency)
  ∧ (∀ (s : State) (vbat ms : Nat), s.mode = .active → chargeReady s → s.chg.st = .qualify → 100 ≤ ms →
      Answers (.qualifyDone vbat ms) s fun t => t.chg.st =
        (if vbat < s.vRecov * 10 then .recover else if vbat < s.vPre * 10 then .precharge else if vbat < s.vRechg * 10 then .cc else .done))
  ∧ (∀ (s : State) (vbat ms : Nat), s.mode = .active → chargeReady s → s.chg.st = .recover → s.vRecov * 10 ≤ vbat → 1000 ≤ ms →
      Answers (.recoverDone vbat ms) s fun t => t.chg.st = .precharge ∧ t.chg.tRecov = 0)
  ∧ (∀ (s : State) (vbat ms : Nat), s.mode = .active → chargeReady s → s.chg.st = .precharge → s.vPre * 10 ≤ vbat → 1000 ≤ ms →
      Answers (.prechargeDone vbat ms) s fun t => t.chg.st = .cc ∧ t.chg.tPre = 0)
  ∧ (∀ (s : State) (vbat : Nat), s.mode = .active → chargeReady s → s.chg.st = .cc → s.vchgEff * 10 ≤ vbat →
      Answers (.cvEntry vbat) s fun t => t.chg.st = .cv)
  ∧ (∀ (s : State) (vbat : Nat) (ma : Int) (secs : Nat), s.mode = .active → chargeReady s → s.terminates vbat ma secs = true →
      Answers (.termination vbat ma secs) s fun t =>
        t.chg.st = (if s.chg.st = .cv ∧ s.floats = true then .maintain else .done) ∧ t.chg.tSafe = (if s.chg.st = .cv ∧ s.floats = true then s.chg.tSafe else 0)
        ∧ (s.chg.zone = .normal → t.emg.full = true ∧ t.reg Reg.chgQrem = s.chg.capL % 65536))
  ∧ (∀ (s : State) (vbat ms : Nat), s.mode = .active → chargeReady s → s.chg.st = .done → vbat < s.vRechg * 10 → 1000 ≤ ms →
      Answers (.recharge vbat ms) s fun t => t.chg.st = .maintain)
  ∧ (∀ (s : State) (vbat : Nat), s.mode = .active → chargeReady s → s.chg.st = .done ∨ s.chg.st = .maintain → vbat < s.vPre * 10 →
      Answers (.requalify vbat) s fun t => t.chg.st = .qualify)
  ∧ (∀ (s : State) (vbat ms : Nat), s.mode = .active → s.emg.emergency = false → s.chgPermitted = true → s.chg.st.inRun = true →
      s.reg Reg.chgVchg * 10 + s.cells * 100 < vbat → 10 ≤ ms →
      Answers (.chgOvervoltage vbat ms) s fun t => t.chg.st = .fault ∧ t.reg Reg.chgFault = 4)
  ∧ (∀ s : State, s.mode = .active → chargeReady s → s.chg.st = .recover → s.reg Reg.chgTrecov * 120 ≤ s.chg.tRecov →
      Answers .recoveryTimeout s fun t => t.chg.st = .fault ∧ t.reg Reg.chgFault = 2)
  ∧ (∀ s : State, s.mode = .active → chargeReady s → s.chg.st = .recover ∨ s.chg.st = .precharge → s.reg Reg.chgTpre * 120 ≤ s.chg.tPre →
      Answers .prechargeTimeout s fun t => t.chg.st = .fault ∧ t.reg Reg.chgFault = 1)
  ∧ (∀ s : State, s.mode = .active → chargeReady s → s.chg.safetyCounts = true → s.reg Reg.chgTsafe * 3600 ≤ s.chg.tSafe →
      Answers .safetyTimeout s fun t => t.chg.st = .fault ∧ t.reg Reg.chgFault = 3)

/-- The settings, the pack and its temperature, and the gauge (R212, R213, R215, R217, R227, R229 to R236, R240, R244);
TYPE 0 in a test or EMERGENCY is log 82. -/
def Obligations.ChargeSettingsAndGauge : Prop :=
  (∀ (s : State) (v : Word), s.mode = .active → chemOk (bits v.toNat 4 4) (bits v.toNat 0 4) = true → bits v.toNat 4 4 ≠ 0 →
      s.pp.isolated = false → s.emg.emergency = false →
      Answers (.chgChem v) s fun t => t.chg.st = .idle ∧ t.reg Reg.chgChem = bits v.toNat 4 4 * 16 + bits v.toNat 0 4
        ∧ t.reg Reg.chgVchg = vchgDefault (bits v.toNat 4 4) (bits v.toNat 0 4) % 65536
        ∧ t.reg Reg.chgVrecov = vrecovDefault (bits v.toNat 4 4) % 65536)
  ∧ (∀ (s : State) (v : Word), s.mode = .active → bits v.toNat 4 4 = 0 →
      Answers (.chgChem v) s fun t => t.chg.st = .idle ∧ t.reg Reg.chgChem = 0 ∧ t.flag Reg.chgSoc 15 = false ∧ t.reg Reg.chgReserveMin = 0)
  ∧ (∀ (s : State) (v : Word), chemOk (bits v.toNat 4 4) (if bits v.toNat 4 4 == 0 then 0 else bits v.toNat 0 4) = false →
      exec (.chgChem v) s = .next s)
  ∧ (∀ s : State, s.mode = .active → s.emg.emergency = false → s.chgPermitted = true → s.chg.st = .fault →
      Answers .chgClear s fun t => t.chg.st = .qualify ∧ t.reg Reg.chgFault = 0 ∧ t.chg.tRecov = 0 ∧ t.chg.tPre = 0 ∧ t.chg.tSafe = 0)
  ∧ (∀ s : State, s.mode = .active → s.emg.emergency = false → s.chg.st ≠ .isolated → s.chg.st ≠ .emergency → s.chg.absent = false →
      Answers .packRemoved s fun t => t.chg.absent = true ∧ t.chg.st = .idle)
  ∧ (∀ (s : State) (dc : Int), s.mode = .active → ntcValid dc = true → s.chg.absent = true →
      Answers (.packInserted dc) s fun t => t.chg.absent = false ∧ t.reg Reg.chgFault = 0)
  ∧ (∀ (s : State) (a : Int) (t2 : Option Int), s.mode = .active → s.arb.adc.free (s.floors [0, 1]) s.adcNeed none = true →
      Answers (.ntcMeasure (some a) t2) s fun t => t.chg.zone = s.packZone (some a) t2 ∧ t.chg.ntcFault = s.ntcFaulty (some a) t2
        ∧ t.signed Reg.chgTemp = signedOf (bitsOf a 16) 16 ∧ t.emg.run.isSome = (s.emg.run.isSome && !(s.ntcFaulty (some a) t2
          || s.packZone (some a) t2 == .cold || s.packZone (some a) t2 == .hot)))
  ∧ (∀ (s : State) (t1 t2 : Option Int), s.mode = .dormant → s.chg.dormantStop = false → s.crossed t1 = true →
      Answers (.dormantNtcSample t1 t2) s fun t => t.chg.dormantStop = s.chg.st.inRun ∧ t.fab = s.postFab 196 0)
  ∧ (∀ (s : State) (dq ma : Int) (vbat avg : Nat), s.mode = .active →
      Answers (.gaugeUpdate dq vbat ma avg) s fun t => t.reg Reg.chgVbat = min 4095 (vbat / 10) ∧ t.reg32 Reg.chgQacc = bitsOf (s.qacc + dq) 32
        ∧ t.reg Reg.chgIbat = bitsOf ma 16 ∧ t.reg Reg.chgQrem ≤ s.chg.capL)

/-! 07, emergency and tests. -/

/-- EMERGENCY, its warning and its cutoff (R254 to R264, R281, R287, R293). -/
def Obligations.EmergencyCommands : Prop :=
  (∀ (s : State) (ms : Nat), s.mode = .active → s.emg.emergency = false → s.anyValid = false → 20 ≤ ms →
      Answers (.emergencyDeclared ms) s fun t => t.emg.emergency = true ∧ t.emg.cutoff = false ∧ t.emg.emgSecs = 0 ∧ t.emg.run = none
        ∧ t.emg.outcome = (if s.emg.run = none then s.emg.outcome else 6)
        ∧ (s.emg.run = none → s.chem ≠ 0 → s.chg.st ≠ .isolated → t.chg.st = .emergency))
  ∧ (∀ (s : State) (ms : Nat), s.mode = .active → s.emg.emergency = true → s.pp.conn ≠ none → 1000 ≤ ms →
      Answers (.emergencyEnded ms) s fun t => t.emg.emergency = false ∧ t.emg.cutoff = false ∧ t.emg.emgSecs = 0 ∧ t.pp = s.pp)
  ∧ (∀ (s : State) (vbat ms : Nat), s.mode = .active → s.chem ≠ 0 → s.emg.warn = false → vbat ≤ s.packMv (s.reg Reg.emgWarn) → 1000 ≤ ms →
      Answers (.emgWarn vbat ms) s fun t => t.emg.warn = true ∧ t.emg.run = none ∧ t.reg Reg.chgQrem = 0
        ∧ t.emg.outcome = (if s.emg.run = none then s.emg.outcome else 2))
  ∧ (∀ (s : State) (vbat : Nat), s.mode = .active → s.emg.warn = true → s.packMv (s.reg Reg.emgWarn + 10) < vbat →
      exec (.emgWarnClear vbat) s = .next { s with emg := { s.emg with warn := false } })
  ∧ (∀ (s : State) (k : Rail) (vbat ms : Nat), s.mode = .active → s.chem ≠ 0 → vbat ≤ s.packMv (s.reg Reg.emgCutoff) → 10 ≤ ms →
      (s.emg.emergency = false → exec (.emgCutoff vbat ms) s = .next (s.post 227))
      ∧ (s.emg.emergency = true → s.emg.cutoff = false → s.comingDown = false → highest s.seq.en = some k → s.seq.disch.get k = false →
          Answers (.emgCutoff vbat ms) s fun t => t.emg.cutoff = true ∧ t.seq.state = .down ∧ t.seq.cause = 3 ∧ t.seq.dir = 2
            ∧ t.seq.en = s.seq.en.set k false))

/-- The schedule of the tests: due, deferred, missed, granted, or started by an agent (R266 to R276, R290, R294);
the marks of a deferral are log 95, an agent's wait beside a due test log 58. -/
def Obligations.TestSchedule : Prop :=
  (∀ (s : State) (k : TestKind), s.dueKind = some k → s.mode = .dormant → Answers .testDue s fun t => t.mode = .hold ∧ t.life.causes.getLsbD 5 = true)
  ∧ (∀ (s : State) (k : TestKind), s.dueKind = some k → s.emg.deferred = false → s.emg.due = none → s.testReady k = true →
      s.rtc - s.nextOf k < s.reg Reg.emgDeferMax * 3600 →
      Answers .testDue s fun t => ∃ d, t.emg.due = some d ∧ d.kind = k ∧ d.origin = 0 ∧ d.tDue = s.nextOf k
        ∧ d.start = !s.part.variant.hasLink ∧ t.emg.waitSlot = s.part.variant.hasLink ∧ t.emg.deferred = false)
  ∧ (∀ (s : State) (k : TestKind), s.mode = .active → s.dueKind = some k → s.emg.deferred = false → s.emg.due = none → s.emg.run = none →
      s.testReady k = false → s.rtc - s.nextOf k < s.reg Reg.emgDeferMax * 3600 →
      Answers .testDue s fun t => t.emg.deferred = true ∧ t.emg.due = none ∧ t.emg.run = none)
  ∧ (∀ (s : State) (k : TestKind) (mins : Nat), s.dueKind = some k → s.emg.deferred = true → s.emg.due = none → s.testReady k = true →
      s.reg Reg.emgRetry * 5 ≤ mins → s.rtc - s.nextOf k < s.reg Reg.emgDeferMax * 3600 →
      Answers (.testRetry mins) s fun t => ∃ d, t.emg.due = some d ∧ d.kind = k ∧ d.origin = 0 ∧ d.start = !s.part.variant.hasLink
        ∧ t.emg.deferred = false)
  ∧ (∀ (s : State) (k : TestKind), s.dueKind = some k → s.mode = .active → s.reg Reg.emgDeferMax * 3600 ≤ s.rtc - s.nextOf k →
      Answers .testMissed s fun t => t.emg.outcome = 8 ∧ t.emg.serial = s.emg.serial + 1
        ∧ (match k with | .function => t.emg.fnDefer | .duration => t.emg.durDefer) = false
        ∧ ((∀ d, s.emg.due = some d → d.origin = 0) → t.emg.due = none ∧ t.emg.waitSlot = false))
  ∧ (∀ (s : State) (d : Due), s.lnk.joined = true → s.emg.due = some d → s.emg.waitSlot = true → s.testReady d.kind = true →
      Answers .slotGranted s fun t => t.emg.due = some { d with start := true, slot := true, lead := s.lnk.lead } ∧ t.emg.waitSlot = false)
  ∧ (∀ (s : State) (a : Agent), s.testReady .function = true → s.emg.due = none →
      Answers (.startFn a) s fun t => t.fld Reg.emgCtl 12 4 = (if s.part.variant.hasLink then 4 else 1)
        ∧ ∃ d, t.emg.due = some d ∧ d.kind = .function ∧ d.origin = a.val + 1 ∧ d.start = !s.part.variant.hasLink)
  ∧ (∀ (s : State) (a : Agent), s.testReady .duration = true → s.emg.due = none →
      Answers (.startDur a) s fun t => t.fld Reg.emgCtl 12 4 = (if s.part.variant.hasLink then 4 else 1)
        ∧ ∃ d, t.emg.due = some d ∧ d.kind = .duration ∧ d.origin = a.val + 1 ∧ d.start = !s.part.variant.hasLink)

/-- A test starts and closes (R277 to R285, R289). -/
def Obligations.TestRuns : Prop :=
  (∀ (s : State) (d : Due), s.mode = .active → s.emg.due = some d → d.start = true → s.testReady d.kind = true → s.testsStuck = false →
      Answers (.startRecordCommit true) s fun t => t.pp.isolated = true ∧ t.pp.conn = none ∧ (s.batteryCan = true → t.pp.batfet = .on)
        ∧ t.chg.st = .isolated
        ∧ t.emg.serial = s.emg.serial + 1 ∧ t.emg.due = none ∧ t.emg.elapsed = 0
        ∧ ∃ r, t.emg.run = some r ∧ r.kind = d.kind ∧ r.serial = s.emg.serial + 1 ∧ r.origin = d.origin)
  ∧ (∀ (s : State) (r : Run) (ms : Nat), s.mode = .active → s.emg.run = some r → r.secs * 1010 ≤ ms →
      Answers (.testLengthReached ms) s fun t => t.emg.run = none ∧ t.emg.outcome = (if s.allGood = true then 1 else 4) ∧ t.pp.isolated = false ∧ t.emg.elapsed = ms / 1000)
  ∧ (∀ (s : State) (r : Run) (a : Agent), s.mode = .active → s.emg.run = some r →
      Answers (.emgAbort a) s fun t => t.emg.run = none ∧ t.emg.outcome = 5 ∧ t.pp.isolated = false ∧ t.fld Reg.emgCtl 12 4 = 5)
  ∧ (∀ (s : State) (r : Run) (vbat us : Nat), s.mode = .active → s.emg.run = some r → vbat ≤ s.packMv (s.reg Reg.emgTestAbort) → 1000 ≤ us →
      Answers (.testAbortVbat vbat us) s fun t => t.emg.run = none ∧ t.emg.outcome = 3 ∧ t.pp.isolated = false)

/-! 08, rail sequencing. -/

/-- UP refused, with its status (R303, R304). In HELD, UP is R324's end of that state (log 59): it is BLOCKED there while a rail is
unsupervised (R326), and refused for R303's other conditions. -/
def Obligations.UpRefused : Prop :=
  ∀ s : State, s.mode = .active →
    (s.seq.state ≠ .off → s.seq.state ≠ .held ∨ s.seq.anyUnsup = true → exec .seqUp s = .next (s.setFld Reg.seqStat 13 3 2))
    ∧ (s.seq.state = .held → s.seq.anyUnsup = false →
        (s.seq.latch = true → exec .seqUp s = .next (s.setFld Reg.seqStat 13 3 4))
        ∧ (s.seq.latch = false → s.pp.vsysLow = true ∨ (s.anyValid = false ∧ s.emg.warn = true) →
            exec .seqUp s = .next (s.setFld Reg.seqStat 13 3 3)))
    ∧ (s.seq.state = .off → s.seq.latch = true → exec .seqUp s = .next (s.setFld Reg.seqStat 13 3 4))
    ∧ (s.seq.state = .off → s.seq.latch = false →
        s.allDischarged = false ∨ s.pp.vsysLow = true ∨ (s.anyValid = false ∧ s.emg.warn = true) →
        exec .seqUp s = .next (s.setFld Reg.seqStat 13 3 3))

/-- R329: where DOWN, CLEAR and FORCE_OFF are accepted, and BLOCKED elsewhere. -/
def Obligations.CommandsBlocked : Prop :=
  ∀ s : State, s.mode = .active →
    (s.seq.state = .up ∨ s.seq.state = .on ∨ s.seq.state = .held → Answers .seqDown s fun t => t.fld Reg.seqStat 13 3 = 1)
    ∧ (s.seq.state ≠ .up → s.seq.state ≠ .on → s.seq.state ≠ .held → exec .seqDown s = .next (s.setFld Reg.seqStat 13 3 2))
    ∧ (s.seq.state ≠ .off → exec .seqClear s = .next (s.setFld Reg.seqStat 13 3 2))
    ∧ (s.seq.state ≠ .stuck → exec .seqForceOff s = .next (s.setFld Reg.seqStat 13 3 2))

/-- The commands of SEQ_CTL and SEQ_EN that are accepted, and the starts without an agent (R303, R305, R306, R309, R312, R318,
R328, R329); UP in HELD and the enable of a rail in HELD are log 59. -/
def Obligations.SequencerCommands : Prop :=
  (∀ s : State, s.mode = .active → s.mayStart = true → s.allDischarged = true →
      Answers .seqUp s fun t => t.fld Reg.seqStat 13 3 = 1 ∧ t.seq.en = s.seq.en
        ∧ (match fin8.find? s.railEn with
           | some k => t.seq.state = .up ∧ t.seq.dir = 1 ∧ t.seq.cur = some k
           | none => t.seq.state = .on))
  ∧ (∀ s : State, s.mode = .active → s.seq.state = .held → s.seq.anyUnsup = false → s.seq.latch = false → s.pp.vsysLow = false →
      s.anyValid = true ∨ s.emg.warn = false →
      Answers .seqUp s fun t => t.fld Reg.seqStat 13 3 = 1 ∧ t.seq.en = s.seq.en
        ∧ (match fin8.find? fun k => s.railEn k && !s.seq.pg.get k with
           | some k => t.seq.state = .up ∧ t.seq.dir = 1 ∧ t.seq.cur = some k
           | none => t.seq.state = .on))
  ∧ (∀ (s : State) (k : Rail), s.mode = .active → s.seq.state = .up ∨ s.seq.state = .on ∨ s.seq.state = .held → highest s.seq.en = some k →
      s.seq.disch.get k = false → Answers .seqDown s fun t => t.seq.state = .down ∧ t.seq.cause = 1 ∧ t.seq.dir = 2 ∧ t.seq.en = s.seq.en.set k false
        ∧ t.seq.pg.get k = false ∧ t.fld Reg.seqStat 13 3 = 1)
  ∧ (∀ s : State, s.mode = .active → s.seq.state = .off →
      Answers .seqClear s fun t => t.seq = { s.seq with latch := false, bits := Eight.all 0 } ∧ t.fld Reg.seqStat 13 3 = 1)
  ∧ (∀ s : State, s.mode = .active → s.seq.state = .stuck →
      Answers .seqForceOff s fun t => t.seq.state = .off ∧ (∀ k, t.seq.en.get k = false) ∧ t.fld Reg.seqStat 13 3 = 1 ∧ t.seq.cause = s.seq.cause)
  ∧ (∀ (s : State) (v : Byte), s.mode = .active → v ∉ ([0x01, 0x02, 0x0C, 0xF0] : List Byte) →
      exec (.seqBadCommand v) s = .next (s.setFld Reg.seqStat 13 3 5))
  ∧ (∀ (s : State) (v : Byte) (sns : Eight Nat), s.mode = .active → s.seq.state = .off →
      Answers (.seqEn v sns) s fun t => t.reg Reg.seqEn = v.toNat ∧ t.seq.state = .off ∧ t.seq.en = s.seq.en
        ∧ ∀ k, t.seq.disch.get k = decide (sns.get k < s.reg (Reg.railDisch k.val)))
  ∧ (∀ (s : State) (v : Byte) (sns : Eight Nat), s.mode = .active → s.seq.state = .held →
      Answers (.seqEn v sns) s fun t => t.reg Reg.seqEn = v.toNat)
  ∧ (∀ (s : State) (v : Byte) (sns : Eight Nat), s.mode = .active → s.seq.state ≠ .off → s.seq.state ≠ .held →
      exec (.seqEn v sns) s = .next (s.setFld Reg.seqStat 13 3 2))
  ∧ (∀ s : State, s.mode = .active → s.seq.wait = .auto ∨ (s.seq.wait = .restart ∧ s.flag Reg.seqCfg 1 = true ∧ s.anyValid = true) →
      s.mayStart = true → s.allDischarged = true →
      Answers .disWaitStart s fun t => t.seq.wait = .none ∧ t.seq.state = (if fin8.any s.railEn then .up else .on))
  ∧ (∀ (s : State) (ms : Nat), s.mode = .active → s.seq.cause = 3 → s.flag Reg.seqCfg 1 = true → s.anyValid = true → 200 ≤ ms →
      s.seq.wait = .none → s.mayStart = true →
      Answers (.seqRestart ms) s fun t =>
        if s.allDischarged then t.seq.state = (if fin8.any s.railEn then .up else .on)
        else t.seq.state = .off ∧ t.seq.wait = .restart ∧ t.fab = s.postFab 262 0)

/-- Rails that rise, fall and fail (R298 to R302, R306 to R316, R321). -/
def Obligations.RailCommands : Prop :=
  (∀ (s : State) (k : Rail) (ms : Nat), s.mode = .active → s.seq.state = .up → s.seq.cur = some k → s.seq.rise = none →
      s.reg (Reg.railStart k.val) ≤ ms →
      Answers (.startDelay k ms) s fun t => t.seq.en = s.seq.en.set k true ∧ t.seq.rise = some k ∧ t.seq.armedHi.get k = true
        ∧ t.seq.disch = s.seq.disch ∧ t.seq.pg = s.seq.pg ∧ t.fab = s.fab)
  ∧ (∀ (s : State) (k : Rail) (mv us : Nat), s.mode = .active → s.seq.en.get k = true → s.seq.unsup.get k = false → s.seq.pg.get k = false →
      s.withinWarn k mv = true → s.warnDgl k ≤ us →
      Answers (.powerGood k mv us) s fun t => t.seq.pg = s.seq.pg.set k true ∧ t.seq.armedLo.get k = true ∧ t.seq.en = s.seq.en ∧ t.seq.warned.get k = false
        ∧ (s.seq.state = .up → s.seq.cur = some k →
            (match fin8.find? fun j => k < j && s.railEn j && !s.seq.pg.get j with
             | some j => t.seq.state = .up ∧ t.seq.cur = some j
             | none => t.seq.state = .on)))
  ∧ (∀ (s : State) (k : Rail) (ms : Nat), s.mode = .active → s.seq.rise = some k → s.seq.pg.get k = false → s.reg (Reg.railRise k.val) ≤ ms →
      Answers (.riseTimeout k ms) s fun t => bit (t.seq.bits.get k) 4 = true
        ∧ (s.seq.state = .up → t.seq.latch = true ∧ t.seq.cause = 5 ∧ t.seq.rail = k.val + 1
            ∧ ∀ j, highest s.seq.en = some j → s.seq.disch.get j = false → t.seq.state = .down ∧ t.seq.en = s.seq.en.set j false)
        ∧ (s.seq.state = .down → s.seq.latch = false → t.seq.latch = true ∧ t.seq.cause = s.seq.cause ∧ t.seq.rail = k.val + 1
            ∧ t.seq.state = .down))
  ∧ (∀ (s : State) (k : Rail) (mv us : Nat), s.mode = .active → s.faultQualified k mv us = true →
      Answers (.railFault k mv us) s fun t => t.seq.pg.get k = false ∧ bit (t.seq.bits.get k) (if s.faultHi k < mv then 2 else 3) = true
        ∧ t.emg.run = none
        ∧ (s.seq.state = .on → t.seq.latch = true ∧ t.seq.cause = 4 ∧ t.seq.rail = k.val + 1
            ∧ (highest s.seq.en = none → t.seq.state = .off)
            ∧ ∀ j, highest s.seq.en = some j → (s.seeSns k mv).seq.disch.get j = false → t.seq.state = .down)
        ∧ (s.seq.state = .stuck → t.seq.state = .stuck ∧ t.seq.cause = s.seq.cause))
  ∧ (∀ (s : State) (k : Rail) (mv us : Nat), s.mode = .active → s.seq.armedLo.get k = true → s.seq.warned.get k = false →
      s.withinWarn k mv = false → s.warnDgl k ≤ us →
      Answers (.railWarning k mv us) s fun t => t.seq.warned.get k = true ∧ bit (t.seq.bits.get k) (if s.warnHi k < mv then 0 else 1) = true
        ∧ t.seq.state = s.seq.state ∧ t.seq.en = s.seq.en ∧ t.emg.run = none)
  ∧ (∀ (s : State) (k : Rail) (mv : Nat), s.mode ≠ .off → s.mode ≠ .ship → mv < s.reg (Reg.railDisch k.val) →
      Answers (.railDischarged k mv) s fun t => t.seq.disch.get k = true ∧ t.seq.sns.get k = some mv
        ∧ (s.mode = .active → s.seq.state = .down → s.seq.cur = some k → s.seq.en.get k = false →
            (match highest s.seq.en with
             | some j => s.seq.disch.get j = false → t.seq.en = s.seq.en.set j false ∧ t.seq.cur = some j ∧ t.seq.state = .down
             | none => t.seq.state = .off ∧ t.seq.dir = 0)))
  ∧ (∀ (s : State) (k : Rail) (mv : Nat), s.mode ≠ .off → s.mode ≠ .ship → s.reg (Reg.railDisch k.val) ≤ mv →
      Answers (.railDischarged k mv) s fun t => t.seq.disch.get k = false ∧ t.seq.sns.get k = some mv)
  ∧ (∀ (s : State) (k : Rail) (ms : Nat), s.mode = .active → s.seq.state = .down → s.seq.cur = some k → s.seq.en.get k = false →
      s.seq.disch.get k = false → s.reg (Reg.railDisMax k.val) ≤ ms →
      Answers (.disMaxTimeout k ms) s fun t => t.seq.state = .stuck ∧ t.seq.rail = k.val + 1 ∧ t.seq.en = s.seq.en
        ∧ (s.life.shipReq = .agent → t.life.shipReq = .none ∧ t.fld Reg.sysPower 12 4 = 4))
  ∧ (∀ (s : State) (k : Rail) (mv us : Nat), (s.mode = .hold ∧ s.life.booted = false) ∨ s.mode = .dormant → s.seq.keeperFault = none → s.faultQualified k mv us = true →
      Answers (.faultLatchAbsent k mv us) s fun t => t.seq.keeperFault = some (k, decide (s.faultHi k < mv)) ∧ t.seq.en = s.seq.en ∧ t.fab = s.fab)

/-! 09, Type-C ports. -/

/-- Attach, detach, sourcing and its end (R336 to R350, R363 to R366); the times of a Try state and of error
recovery are log 70, X without a contract log 84. -/
def Obligations.PortsAsSource : Prop :=
  ∀ (s : State) (p : Port), s.part.variant.hasPort p = true → s.mode = .active →
  (∀ (src : Bool) (ms : Nat), (s.prt p).unsup = false → (s.prt p).openCc = false → (s.prt p).trying = .none → (s.prt p).try = 0 → 150 ≤ ms →
      (if src then ((s.prt p).roleIn = 1 ∨ (s.prt p).roleIn = 3) ∧ s.mayBeSource = true ∧ (s.prt p).cut = .none
       else (s.prt p).roleIn = 2 ∨ (s.prt p).roleIn = 3) → s.onPartner p src ms = .attach)
  ∧ (∀ (src cc2 : Bool) (rp rev ms : Nat) (y : TryAt), (s.prt p).role = .none → s.onPartner p src ms = .try_ y →
      Answers (.attach p src cc2 rp rev ms) s fun t => (t.prt p).role = .none ∧ (t.prt p).trying = y ∧ (t.prt p).showRp = (y == .src))
  ∧ (∀ (src cc2 : Bool) (rp rev ms : Nat), (s.prt p).role = .none → s.onPartner p src ms = .attach →
      Answers (.attach p src cc2 rp rev ms) s fun t => (t.prt p).role = (if src then .source else .sink) ∧ (t.prt p).cc2 = cc2
        ∧ (t.prt p).trying = .none
        ∧ (src = false → t.pp.portLim.get p = rpLim (min 3 rp)))
  ∧ ((s.prt p).role = .none → (s.prt p).unsup = false → (s.prt p).openCc = false → (s.prt p).roleIn ≠ 0 →
      Answers (.unsupportedAttach p) s fun t => (t.prt p).unsup = true ∧ t.fab = s.postFab (portSrc p + 16) 0)
  ∧ (∀ ms, 15 ≤ ms → (s.prt p).role ≠ .none →
      Answers (.detach p ms) s fun t => (t.prt p).role = .none ∧ (t.prt p).contract = none ∧ (t.cnv.x.get p).run = false
        ∧ (t.prt p).discharging = true
        ∧ ((s.prt p).role = .source → s.pp.conn ≠ none → (∀ i, s.pp.conn = some i → s.eligible i = true) →
            t.fab = s.postFab (portSrc p + 1) 0))
  ∧ (∀ ms, (s.prt p).role = .none → (s.prt p).roleIn = 3 → s.mayBeSource = true → (s.prt p).cut = .none → (s.prt p).openCc = false →
      (s.prt p).unsup = false → s.drpTime p ≤ 100 * ms →
      Answers (.drpToggle p ms) s fun t => (t.prt p).role = .none ∧ (t.prt p).trying = (s.prt p).trying.next
        ∧ ((s.prt p).trying = .none → (t.prt p).showRp = !(s.prt p).showRp))
  ∧ (∀ mv ms, (s.prt p).role = .source → (s.prt p).swapTo = .none → s.mayBeSource = true → (s.cnv.x.get p).run = false →
      (s.cnv.x.get p).stopped = false → s.vbusSafe p mv = true → (s.prt p).recover = false ∨ 660 ≤ ms →
      Answers (.sourceTurnOn p mv ms) s fun t => (t.cnv.x.get p).run = true ∧ (t.cnv.x.get p).vtgt = 5000
        ∧ (t.prt p).capsSent = (s.prt p).capsSent + 1 ∧ saidData t p Pd.sourceCaps)
  ∧ (∀ (r : PdRequest) (vin pload : Nat), (s.prt p).role = .source → (s.cnv.x.get p).run = true →
      (((s.prt p).heard 0).asked (s.reg (Reg.pdpPpsVmin p.ix)) r = none → Answers (.request p r vin pload) s fun t => said t p false Pd.reject)
      ∧ (∀ k h lim, ((s.prt p).heard 0).asked (s.reg (Reg.pdpPpsVmin p.ix)) r = some (k, lim) → (s.prt p).contract = some h → k.mv * k.ma ≤ h.mv * h.ma →
          (s.cnv.x.get p).stopped = false →
          Answers (.request p r vin pload) s fun t => said t p false Pd.accept ∧ (t.prt p).next = some k ∧ (t.cnv.x.get p).vtgt = k.mv
            ∧ (t.cnv.x.get p).iset = (if k.pps then k.ma else lim))
      ∧ (∀ k lim, ((s.prt p).heard 0).asked (s.reg (Reg.pdpPpsVmin p.ix)) r = some (k, lim) → (s.prt p).contract = none → s.pp.conn = none →
          Answers (.request p r vin pload) s fun t => said t p false Pd.wait))
  ∧ (∀ (k : Contract) (mv : Nat), (s.prt p).role = .source → (s.prt p).swapTo = .none → (s.prt p).next = some k → settled k mv = true →
      Answers (.psRdySend p mv) s fun t => (t.prt p).contract = some k ∧ (t.prt p).next = none ∧ said t p false Pd.psRdy)
  ∧ (∀ (k : Contract) (ms : Nat), (s.prt p).role = .source → (s.prt p).contract = some k → k.pps = true → 15000 ≤ ms →
      Answers (.ppsTimeout p ms) s fun t => (t.prt p).contract = none ∧ (t.cnv.x.get p).run = false
        ∧ t.reg (Reg.pdpHresets p.ix) = min 255 (s.reg (Reg.pdpHresets p.ix) + 1))
  ∧ (∀ (k : Contract) (ms vin pload : Nat), (s.prt p).role = .source → (s.prt p).contract = some k →
      1000 * s.budgetMw p vin pload < (k.mv * k.ma : Nat) → 500 ≤ ms →
      Answers (.budgetShortfall p ms vin pload) s fun t => (t.prt p).capsSent = (s.prt p).capsSent + 1 ∧ (t.prt p).wait = .caps
        ∧ t.reg (Reg.pdpBudget p.ix) = min 1023 (s.budgetMw p vin pload / 100).toNat)
  ∧ (∀ ms, (s.prt p).role = .source → (s.cnv.x.get p).run = true → (s.prt p).contract = none → (s.prt p).next = none →
      (s.prt p).capsSent < 50 → 150 ≤ ms →
      Answers (.sourceCapRepeat p ms) s fun t => (t.prt p).capsSent = (s.prt p).capsSent + 1 ∧ saidData t p Pd.sourceCaps)
  ∧ ((s.prt p).role = .source → s.mustCut = true →
      Answers (.srcCut p) s fun t => (t.prt p).role = .none ∧ (t.prt p).cut = .emergency ∧ (t.cnv.x.get p).run = false)
  ∧ (∀ mv, (s.prt p).discharging = true → mv < 800 →
      Answers (.dischargeDone p mv) s fun t => (t.prt p).discharging = false ∧ t.fab = s.fab)
  ∧ (∀ mv ms, (s.prt p).discharging = true → (s.prt p).slow = false → 800 ≤ mv → 650 ≤ ms →
      Answers (.dischargeSlow p mv ms) s fun t => (t.prt p).slow = true ∧ t.fab = s.postFab (portSrc p + 14) 0)

/-- Sinking, waits and replies that do not come (R351 to R354, R367, R368). -/
def Obligations.PortsAsSink : Prop :=
  ∀ (s : State) (p : Port), s.part.variant.hasPort p = true → s.mode = .active → (s.prt p).role ≠ .none →
  (∀ pdos : List Word32, Answers (.sourceCapabilities p pdos) s fun t => (t.prt p).partner = pdos
        ∧ (t.prt p).rev = (if (s.prt p).rev = 0 then (s.prt p).partnerRev else (s.prt p).rev))
  ∧ (∀ (k : Contract) (secs : Nat), (s.prt p).role = .sink → (s.prt p).contract = some k → k.pps = true →
      s.reg (Reg.pdpKeepalive p.ix) ≤ secs → (s.chooseRequest p (s.prt p).partner).isSome = true →
      Answers (.keepalive p secs) s fun t => (t.prt p).wait = .request ∧ saidData t p Pd.request)
  ∧ ((s.prt p).wait = .request → Answers (.waitReceived p) s fun t => (t.prt p).wait = .none ∧ (t.prt p).waits = (s.prt p).waits + 1)
  ∧ ((s.prt p).wait = .prSwap → Answers (.waitReceived p) s fun t => (t.prt p).wait = .none ∧ (t.prt p).swapTo = .none)
  ∧ (∀ ms, (s.prt p).role = .sink → (s.prt p).wait = .none → 1 ≤ (s.prt p).waits → (s.prt p).waits < 16 →
      s.reg (Reg.pdpWaitRetry p.ix) * 10 ≤ ms → (s.chooseRequest p (s.prt p).partner).isSome = true →
      Answers (.waitRetry p ms) s fun t => (t.prt p).wait = .request ∧ saidData t p Pd.request)
  ∧ (∀ mv, (s.prt p).wait = .psRdy → (s.prt p).role = .sink → (s.prt p).swapTo = .none →
      Answers (.psRdyReceived p mv) s fun t => (t.prt p).contract = (s.prt p).next ∧ (t.prt p).next = none ∧ (t.prt p).waits = 0)
  ∧ (∀ ms, (s.prt p).wait = .prSwap → 28 ≤ ms → Answers (.senderResponseTimeout p ms) s fun t => (t.prt p).wait = .none ∧ (t.prt p).swapTo = .none)
  ∧ (∀ ms, (s.prt p).wait = .request → (s.prt p).hardCnt < 2 → 28 ≤ ms →
      Answers (.senderResponseTimeout p ms) s fun t => (t.prt p).hardCnt = (s.prt p).hardCnt + 1 ∧ (t.prt p).wait = .none
        ∧ t.reg (Reg.pdpHresets p.ix) = min 255 (s.reg (Reg.pdpHresets p.ix) + 1))
  ∧ ((s.prt p).wait = .request → Answers (.acceptReceived p) s fun t => (t.prt p).wait = .psRdy ∧ (t.prt p).next = (s.prt p).next)
  ∧ ((s.prt p).wait = .request → Answers (.rejectReceived p) s fun t => (t.prt p).wait = .none ∧ (t.prt p).next = none ∧ (t.prt p).waits = 0)
  ∧ ((s.prt p).wait = .none → Answers (.acceptReceived p) s fun t => (t.prt p).wait = .softReset ∧ said t p false Pd.softReset)
  ∧ ((s.prt p).wait = .none → Answers (.rejectReceived p) s fun t => (t.prt p).wait = .softReset ∧ said t p false Pd.softReset)

/-- Swaps, resets and fast role swap (R334, R355 to R362, R365, R367); the MessageID of a GoodCRC is free (log 16). -/
def Obligations.PortSwapsAndResets : Prop :=
  ∀ (s : State) (p : Port), s.part.variant.hasPort p = true → s.mode = .active → (s.prt p).role ≠ .none →
  ((s.prt p).role = .source → s.swapAllowed p = true → (s.prt p).swapTo = .none →
      Answers (.prSwapReceived p) s fun t => (t.prt p).swapTo = .sink ∧ (t.cnv.x.get p).run = false ∧ said t p false Pd.accept)
  ∧ ((s.prt p).role = .sink → s.swapAllowed p = true → (s.prt p).swapTo = .none →
      Answers (.prSwapReceived p) s fun t => (t.prt p).swapTo = .source ∧ (t.prt p).wait = .psRdy ∧ said t p false Pd.accept)
  ∧ (s.swapAllowed p = false → Answers (.prSwapReceived p) s fun t => said t p false Pd.reject ∧ (t.prt p).role = (s.prt p).role)
  ∧ (∀ vconn, Answers (.drSwapReceived p vconn) s fun t => said t p false Pd.reject ∧ (t.prt p).role = (s.prt p).role
        ∧ (t.prt p).sent.head? = some ⟨.message, false, Pd.goodCrc, (Config.partnerId s.free).toNat, []⟩)
  ∧ ((s.prt p).role = .sink → s.frsArmed p = false →
      ∀ us, 40 ≤ us → Answers (.frsFail p us) s fun t => t.fab = s.postFab (portSrc p + 9) 0 ∧ (t.prt p).role = .sink)
  ∧ (∀ us mv, s.frsArmed p = true → 40 ≤ us → mv < 4750 → (s.cnv.x.get p).stopped = false →
      Answers (.frsSignal p us mv) s fun t => (t.cnv.x.get p).run = true ∧ (t.cnv.x.get p).vtgt = 5000 ∧ (t.prt p).frs = true
        ∧ said t p false Pd.frSwap)
  ∧ ((s.prt p).role = .source → (s.prt p).frsEn = true → (s.prt p).rev = 2 → (s.cnv.x.get p).run = true → s.pp.conn = none → s.batteryCan = false →
      Answers (.frsSend p) s fun t => (∃ m ∈ (t.prt p).sent, m.signal = .frSwap) ∧ (t.prt p).swapTo = .sink ∧ (t.prt p).frs = true ∧ (t.cnv.x.get p).run = false
        ∧ t.fab = s.postFab (portSrc p + 8) 0)
  ∧ ((s.prt p).role = .source → (s.prt p).swapTo = .sink → (s.prt p).frs = true →
      Answers (.frSwapReceived p) s fun t => (t.prt p).role = .sink ∧ (t.prt p).wait = .psRdy ∧ said t p false Pd.accept)
  ∧ (Answers (.hardResetReceived p) s fun t => (t.prt p).contract = none ∧ (t.prt p).wait = .none
        ∧ t.reg (Reg.pdpHresets p.ix) = min 255 (s.reg (Reg.pdpHresets p.ix) + 1) ∧ ((s.prt p).role = .source → (t.cnv.x.get p).run = false))
  ∧ (Answers (.softResetReceived p) s fun t => (t.prt p).contract = (s.prt p).contract ∧ (t.prt p).next = none ∧ said t p false Pd.accept)

/-- Messages that the port answers (R332, R334, R357, R358, R364, R367); the MessageID of a GoodCRC is free (log 16). -/
def Obligations.PortMessages : Prop :=
  ∀ (s : State) (p : Port), s.part.variant.hasPort p = true → s.mode = .active → (s.prt p).role ≠ .none →
  (∀ pdos, Answers (.sinkCapabilities p pdos) s fun t => (t.prt p).snkCaps = pdos ∧ (t.prt p).role = (s.prt p).role)
  ∧ ((s.prt p).roleIn = 1 ∨ (s.prt p).roleIn = 3 → Answers (.getSourceCap p) s fun t => saidData t p Pd.sourceCaps)
  ∧ ((s.prt p).roleIn ≠ 1 → (s.prt p).roleIn ≠ 3 → Answers (.getSourceCap p) s fun t => said t p false Pd.notSupported)
  ∧ ((s.prt p).roleIn = 2 ∨ (s.prt p).roleIn = 3 → Answers (.getSinkCap p) s fun t => saidData t p Pd.sinkCaps)
  ∧ ((s.prt p).roleIn ≠ 2 → (s.prt p).roleIn ≠ 3 → Answers (.getSinkCap p) s fun t => said t p false Pd.notSupported)
  ∧ (((s.prt p).heard 0).rev ≠ 1 → Answers (.getStatusReceived p) s fun t => said t p true Pd.status)
  ∧ (((s.prt p).heard 0).rev = 1 → Answers (.getStatusReceived p) s fun t =>
      (t.prt p).sent = [⟨.message, false, Pd.goodCrc, (Config.partnerId s.free).toNat, []⟩])
  ∧ (∀ mv ma, ((s.prt p).heard 0).rev ≠ 1 → Answers (.getPpsStatusReceived p mv ma) s fun t => said t p true Pd.ppsStatus)
  ∧ (((s.prt p).heard 0).rev ≠ 1 → Answers (.getSourceCapExtended p) s fun t => said t p true Pd.srcCapExt)
  ∧ (∀ epr ext typ objs, ((s.prt p).heard 0).rev ≠ 1 → Answers (.notSupportedMessage p epr ext typ objs) s fun t => said t p false Pd.notSupported)
  ∧ (∀ ado, ((s.prt p).heard 0).rev ≠ 1 → Answers (.alertReceived p ado) s fun t => (t.prt p).wait = .status ∧ said t p false Pd.getStatus)
  ∧ (Answers (.discoverIdentity p) s fun t => saidData t p Pd.vendor)
  ∧ (∀ mv, Answers (.bistCarrierMode p mv) s fun t => (t.prt p).bist = decide (4750 ≤ mv ∧ mv ≤ 5500))

/-- The commands of PDP_Cn_CTL, PDP_Cn_ROLE and PDP_Cn_CFG (R353, R355, R371, R372; where a message cannot be sent,
log 46; Get_Source_Cap of RENEGOTIATE, log 70). -/
def Obligations.PortRegisters : Prop :=
  ∀ (s : State) (p : Port), s.part.variant.hasPort p = true → s.mode = .active →
  ((s.prt p).role = .none → ∀ c ∈ ([.pdpHardReset p, .pdpSoftReset p, .pdpPrSwap p, .pdpRenegotiate p, .pdpGetStatus p, .pdpGetPpsStatus p,
      .pdpGetSrcCapExt p] : List Instr), exec c s = .next (s.setFld (Reg.pdpCtl p.ix) 12 4 2))
  ∧ ((s.prt p).role ≠ .none → Answers (.pdpHardReset p) s fun t => t.fld (Reg.pdpCtl p.ix) 12 4 = 1 ∧ (t.prt p).contract = none
        ∧ t.reg (Reg.pdpHresets p.ix) = min 255 (s.reg (Reg.pdpHresets p.ix) + 1))
  ∧ ((s.prt p).role ≠ .none → Answers (.pdpSoftReset p) s fun t => t.fld (Reg.pdpCtl p.ix) 12 4 = 1 ∧ (t.prt p).wait = .softReset
        ∧ said t p false Pd.softReset)
  ∧ ((s.prt p).role = .source → (s.prt p).roleIn = 3 → (s.prt p).rev ≠ 0 →
      Answers (.pdpPrSwap p) s fun t => t.fld (Reg.pdpCtl p.ix) 12 4 = 1 ∧ (t.prt p).wait = .prSwap ∧ said t p false Pd.prSwap)
  ∧ ((s.prt p).role = .source → (s.cnv.x.get p).run = true →
      Answers (.pdpRenegotiate p) s fun t => t.fld (Reg.pdpCtl p.ix) 12 4 = 1 ∧ (t.prt p).capsSent = (s.prt p).capsSent + 1)
  ∧ ((s.prt p).role = .sink → (s.prt p).partner ≠ [] → (s.chooseRequest p (s.prt p).partner).isSome = true →
      Answers (.pdpRenegotiate p) s fun t => t.fld (Reg.pdpCtl p.ix) 12 4 = 1 ∧ (t.prt p).waits = 0 ∧ (t.prt p).wait = .request)
  ∧ ((s.prt p).role = .sink → (s.prt p).partner = [] → (s.prt p).roleIn = 3 →
      Answers (.pdpRenegotiate p) s fun t => t.fld (Reg.pdpCtl p.ix) 12 4 = 1 ∧ (t.prt p).wait = .sourceCap ∧ said t p false Pd.getSourceCap)
  ∧ ((s.prt p).role ≠ .none → (s.prt p).rev = 2 →
      Answers (.pdpGetStatus p) s fun t => t.fld (Reg.pdpCtl p.ix) 12 4 = 1 ∧ (t.prt p).wait = .status ∧ said t p false Pd.getStatus)
  ∧ ((s.prt p).role ≠ .none → (s.prt p).rev = 2 →
      Answers (.pdpGetPpsStatus p) s fun t => t.fld (Reg.pdpCtl p.ix) 12 4 = 1 ∧ (t.prt p).wait = .ppsStatus ∧ said t p false Pd.getPpsStatus)
  ∧ ((s.prt p).role ≠ .none → (s.prt p).rev = 2 →
      Answers (.pdpGetSrcCapExt p) s fun t => t.fld (Reg.pdpCtl p.ix) 12 4 = 1 ∧ (t.prt p).wait = .capExt ∧ said t p false Pd.getSrcCapExt)
  ∧ (∀ v : Word, Answers (.pdpRoleCfg p false v) s fun t =>
      t.reg (Reg.pdpRole p.ix) = storeFields (fieldsOf (Reg.pdpRole p.ix)) (s.reg (Reg.pdpRole p.ix)) v.toNat % 65536
        ∧ (t.prt p).roleIn = (if (s.prt p).role = .none then t.reg (Reg.pdpRole p.ix) else (s.prt p).roleIn))
  ∧ (∀ v : Word, Answers (.pdpRoleCfg p true v) s fun t => t.flag (Reg.pdpCfg p.ix) 5 = true
        ∧ (t.prt p).cfgIn = (if (s.prt p).role = .none then t.reg (Reg.pdpCfg p.ix) else (s.prt p).cfgIn))

/-! 10, Quiden Link. -/

/-- Membership: listening, claiming, joining, leading and leaving (R380 to R386); the listening time drawn is free
(log 61). -/
def Obligations.LinkMembership : Prop :=
  ∀ s : State, s.lnkUp = true →
  (∀ ms, s.lnk.state = .listen → s.lnk.listenMs ≤ ms →
      (s.leadAllow = true → (Answers (.listenTimeout .nothing ms) s fun t => t.lnk.state = .claiming)
        ∧ (Answers (.listenTimeout .claimSync ms) s fun t => t.lnk.state = .claiming)
        ∧ (Answers (.listenTimeout .claimLater ms) s fun t => t.lnk.state = .listen ∧ t.lnk.listenMs = 300)
        ∧ (Answers (.listenTimeout .beaconSync ms) s fun t => t.lnk.state = .listen ∧ t.lnk.listenMs = s.lnk.listenMs))
      ∧ (s.leadAllow = false → ∀ rx, Answers (.listenTimeout rx ms) s fun t => t.lnk.state = .listen
        ∧ t.lnk.listenMs = Config.listenMs s.free ∧ t.free = s.free + 1))
  ∧ (∀ us, s.lnk.state = .claiming → s.lnk.air = none → 200 ≤ us →
      Answers (.claimStart us false) s fun t => ∃ f, t.lnk.sent = [f] ∧ t.lnk.air = some (f, 0) ∧ f.typ = 2
        ∧ f.claim = some (s.lnkPrio, s.part.uid))
  ∧ (s.lnk.state = .listen → Answers .claimHeard s fun t => t.lnk.state = .listen ∧ t.lnk.sent = [] ∧ t.lnk.listenMs = 300
        ∧ t.free = s.free + 1)
  ∧ (∀ b, s.lnk.state = .claiming → s.lnk.air ≠ none → b < 52 → bit s.ownClaim (51 - b) = true →
      Answers (.claimWithdraw b true) s fun t => t.lnk.state = .listen ∧ t.lnk.listenMs = 300 ∧ t.lnk.air = none ∧ t.lnk.txq = [])
  ∧ (s.lnk.state = .claiming → s.lnk.air ≠ none →
      Answers .claimEnd s fun t => t.lnk.state = .lead ∧ t.lnk.short = 0 ∧ t.lnk.lead = s.part.uid ∧ t.lnk.members = [] ∧ t.lnk.air = none)
  ∧ (∀ b : Beacon, s.lnk.state = .listen →
      Answers (.beaconReceived b) s fun t => t.lnk.state = .joining ∧ t.lnk.lead = b.leadId ∧ t.lnk.bc = b.bc
        ∧ ∃ f ∈ t.lnk.txq, f.typ = 3 ∧ f.dst = 0 ∧ f.ack = true)
  ∧ (∀ b : Beacon, s.lnk.state = .member → b.leadId = s.lnk.lead →
      Answers (.beaconReceived b) s fun t => t.lnk.bc = b.bc ∧ t.lnk.count = b.members ∧ t.lnk.state = .member)
  ∧ (∀ b : Beacon, s.lnk.state = .lead → b.leadId ≠ s.part.uid → claimValue b.prio b.leadId < s.ownClaim →
      Answers (.beaconReceived b) s fun t => t.lnk.state = .listen ∧ t.lnk.members = [])
  ∧ (∀ (id : BitVec 48) (prio n a : Nat), s.lnk.state = .lead → s.lnk.members.find? (·.id == id) = none → s.lnk.freeShort = some a →
      s.isRepeat 0xFE n (ackKey 0x3 (leBytes 6 id.toNat ++ leBytes 1 prio)) = false →
      Answers (.joinReceived id prio n) s fun t => (∃ m, t.lnk.members = s.lnk.members ++ [m] ∧ m.short = a ∧ m.id = id)
        ∧ (∃ f ∈ t.lnk.txq, f.typ = 4 ∧ f.dst = 0xFE) ∧ ∃ f ∈ t.lnk.sent, f.typ = 0xF ∧ f.seq = n)
  ∧ (∀ (id : BitVec 48) (prio n : Nat) (m : Member), s.lnk.state = .lead → s.lnk.members.find? (·.id == id) = some m →
      s.isRepeat 0xFE n (ackKey 0x3 (leBytes 6 id.toNat ++ leBytes 1 prio)) = false →
      Answers (.joinReceived id prio n) s fun t => t.lnk.members = s.lnk.members ∧ ∃ f ∈ t.lnk.txq, f.typ = 4)
  ∧ (∀ a, s.lnk.state = .joining → a ≠ 0xFE →
      Answers (.joinAckReceived s.part.uid a) s fun t => t.lnk.state = .member ∧ t.lnk.short = a)
  ∧ (s.lnk.state = .joining → Answers (.joinAckReceived s.part.uid 0xFE) s fun t => t.lnk.state = .joining ∧ t.lnk.refused = true)
  ∧ (∀ ms, s.lnk.state = .joining → (if s.lnk.refused then 10000 else 300) ≤ ms →
      Answers (.joinRetry ms) s fun t => t.lnk.refused = false ∧ ∃ f, t.lnk.txq = [f] ∧ f.typ = 3)
  ∧ (∀ ms, s.lnk.state ≠ .lead → 300 ≤ ms → Answers (.beaconGrantLoss ms) s fun t => t.lnk.grant = none ∧ t.lnk.state = s.lnk.state)
  ∧ (∀ ms, s.lnk.state = .member → 500 ≤ ms → Answers (.beaconLost ms) s fun t => t.lnk.state = .listen ∧ t.lnk.grant = none)
  ∧ (∀ (src : Nat) (b : Bool), s.lnk.state = .lead → Answers (.leaveReceived src b) s fun t => ∀ m ∈ t.lnk.members, m.short ≠ src)
  ∧ (∀ src : Nat, s.lnk.state = .member → Answers (.leaveReceived src true) s fun t => t.lnk.state = .listen)

/-- Beacons, reports, grants and test slots (R378, R385, R393 to R403). -/
def Obligations.LinkReportsAndSlots : Prop :=
  ∀ s : State, s.lnkUp = true →
  (s.lnk.state = .lead → Answers .beaconSend s fun t => t.lnk.bc = (if s.lnk.count = 0 then 0 else s.lnk.bc + 1)
        ∧ t.lnk.count = t.lnk.members.length + 1 ∧ ∃ f ∈ t.lnk.sent, f.typ = 1 ∧ f.dst = 0xFF)
  ∧ (s.lnk.state = .member → s.lnk.bc.toNat % 8 = s.lnk.short / 4 → Answers .statusSend s fun t => t.lnk.state = .member ∧ ∃ f ∈ t.lnk.sent, f.typ = 5 ∧ f.dst = 0)
  ∧ (∀ (src : Nat) (st : LinkStatus) (m : Member), s.lnk.state = .lead → m ∈ s.lnk.members → m.short = src →
      Answers (.statusReceived src st) s fun t => ∃ m' ∈ t.lnk.members, m'.id = m.id ∧ m'.offer = st.offer ∧ m'.demand = st.demand
        ∧ m'.heard = true ∧ m'.rounds = 0)
  ∧ (∀ (src n secs : Nat) (k : TestKind), s.lnk.state = .lead → s.lnk.holder ≠ none →
      s.isRepeat src n (ackKey 0x6 (leBytes 1 (testCode k) ++ leBytes 4 secs)) = false →
      Answers (.testReqReceived src k secs n) s fun t => t.lnk.slots = s.lnk.slots ++ [⟨src, k, secs⟩] ∧ t.lnk.holder = s.lnk.holder
        ∧ ∃ f ∈ t.lnk.sent, f.typ = 0xF ∧ f.dst = src)
  ∧ (∀ (src n secs : Nat) (k : TestKind), s.lnk.state = .lead → s.isRepeat src n (ackKey 0x6 (leBytes 1 (testCode k) ++ leBytes 4 secs)) = true →
      Answers (.testReqReceived src k secs n) s fun t => t.lnk.slots = s.lnk.slots ∧ ∃ f ∈ t.lnk.sent, f.typ = 0xF ∧ f.dst = src)
  ∧ (∀ (n : Nat) (k : TestKind) (d : Due), s.lnk.state = .member → s.isRepeat 0 n (ackKey 0x7 (leBytes 1 (testCode k))) = false →
      s.emg.due = some d → s.emg.waitSlot = true → s.testReady d.kind = true →
      Answers (.testGrantReceived k n) s fun t => t.emg.waitSlot = false ∧ t.emg.due = some { d with start := true, slot := true, lead := s.lnk.lead })
  ∧ (∀ (src n : Nat) (o : Byte), s.lnk.state = .lead → s.lnk.holder = some src → s.lnk.slots = [] → s.isRepeat src n (ackKey 0x8 [o]) = false →
      Answers (.testEndReceived src o n) s fun t => t.lnk.holder = none ∧ t.lnk.slotSecs = 0)
  ∧ (∀ (a secs : Nat), s.lnk.state = .lead → s.lnk.holder = some a → s.lnk.slots = [] → s.lnk.slotSecs * 101 + 6000 ≤ secs * 100 →
      Answers (.slotTimeout secs) s fun t => t.lnk.holder = none)

/-- Doorbells, data, transmission and capture (R375 to R379, R387 to R392, R404). -/
def Obligations.LinkFrames : Prop :=
  ∀ s : State, s.lnkUp = true →
  (∀ f : AgentFrame, s.hears f = true → s.freshFrame f 0x9 = true →
      (s.dbAllowed (f.payload.headD 0).toNat = false →
        Answers (.doorbellReceived f) s fun t => t.reg Reg.lnkDbDenied = min 65535 (s.reg Reg.lnkDbDenied + 1) ∧ t.lnk.rx = s.lnk.rx
          ∧ (asksAck f = true → ∃ m ∈ t.lnk.sent, m.typ = 0xF ∧ m.dst = f.src ∧ m.seq = f.seqNo))
      ∧ (s.dbAllowed (f.payload.headD 0).toNat = true → f.payload.drop 1 = [] →
        Answers (.doorbellReceived f) s fun t => t.fab = s.lnkHear.postFab (f.payload.headD 0).toNat 5
          ∧ t.reg Reg.lnkDbDenied = s.reg Reg.lnkDbDenied
          ∧ (asksAck f = true → ∃ m ∈ t.lnk.sent, m.typ = 0xF ∧ m.dst = f.src ∧ m.seq = f.seqNo))
      ∧ (s.dbAllowed (f.payload.headD 0).toNat = true → f.payload.drop 1 ≠ [] →
        s.ringFits 22 (1 + contCount (f.payload.drop 1).length) = true →
        Answers (.doorbellReceived f) s fun t => t.lnk.rx.p2.getLast? = some (rxHeader f 0x9 s.lnk.short ++ f.payload)
          ∧ (asksAck f = true → ∃ m ∈ t.lnk.sent, m.typ = 0xF ∧ m.dst = f.src ∧ m.seq = f.seqNo)))
  ∧ (∀ f : AgentFrame, s.hears f = true → s.freshFrame f 0xA = true →
      (s.ringFits (if f.prio then 22 else 20) (1 + contCount f.payload.length) = true →
        Answers (.dataReceived f) s fun t =>
          (if f.prio then t.lnk.rx.p2 else t.lnk.rx.p1).getLast? = some (rxHeader f 0xA s.lnk.short ++ f.payload)
          ∧ (asksAck f = true → ∃ m ∈ t.lnk.sent, m.typ = 0xF ∧ m.dst = f.src ∧ m.seq = f.seqNo))
      ∧ (s.ringFits (if f.prio then 22 else 20) (1 + contCount f.payload.length) = false →
        Answers (.dataReceived f) s fun t => t.lnk.sent = [] ∧ t.lnk.rx = s.lnk.rx))
  ∧ (∀ f : AgentFrame, s.hears f = true → asksAck f = true →
      (s.freshFrame f 0x9 = false → Answers (.doorbellReceived f) s fun t => t.fab = s.fab ∧ ∃ m ∈ t.lnk.sent, m.typ = 0xF ∧ m.dst = f.src)
      ∧ (s.freshFrame f 0xA = false → Answers (.dataReceived f) s fun t => t.fab = s.fab ∧ ∃ m ∈ t.lnk.sent, m.typ = 0xF ∧ m.dst = f.src))
  ∧ (∀ (f : Frame) (n : Nat), s.lnk.air = some (f, n) → f.ack = true →
      Answers (.ackReceived f.seq) s fun t => t.lnk.air = none ∧ t.reg Reg.lnkTxStat = 1)
  ∧ (∀ (f : Frame) (n us : Nat), s.lnk.air = some (f, n) → f.ack = true → 300 ≤ us →
      (n < s.lnkRetries → Answers (.ackTimeout us) s fun t => t.lnk.air = some (f, n + 1) ∧ t.regs = s.regs)
      ∧ (s.lnkRetries ≤ n → Answers (.ackTimeout us) s fun t => t.lnk.air = none ∧ t.reg Reg.lnkTxStat = 2
          ∧ t.reg Reg.lnkNoack = min 65535 (s.reg Reg.lnkNoack + 1)))
  ∧ (∀ (f : Frame) (rest : List Frame) (free left : Nat), s.lnk.air = none → s.lnk.txq = f :: rest → f.gains free left = true →
      Answers (.frameTransmit free left) s fun t => t.lnk.sent = [f] ∧ t.lnk.txq = rest ∧ t.lnk.air = (if f.ack then some (f, 0) else none)
        ∧ (f.ack = false → t.reg Reg.lnkTxStat = 1))
  ∧ (∀ (n : Nat) (bs : List Byte) (free left : Nat), s.lnk.air = none → s.lnk.txq = [] → s.headFrame 23 = some (n, bs) →
      s.badEntries 23 n = [] →
      (128 < leNat (slice bs 1 1) → Answers (.frameTransmit free left) s fun t => t.lnk.sent = [] ∧ t.reg Reg.lnkTxStat = 4)
      ∧ (leNat (slice bs 1 1) ≤ 128 → s.lnk.joined = false →
          Answers (.frameTransmit free left) s fun t => t.lnk.sent = [] ∧ t.reg Reg.lnkTxStat = 3)
      ∧ (leNat (slice bs 1 1) ≤ 128 → s.lnk.joined = true → (s.agentFrame bs true).gains free left = true →
          Answers (.frameTransmit free left) s fun t => t.lnk.sent = [s.agentFrame bs true]))
  ∧ (∀ rise, 12 ≤ rise → Answers (.capture rise true false) s fun t => t.reg Reg.lnkCaptured = min 65535 (s.reg Reg.lnkCaptured + 1)
        ∧ t.lnk.capRecent = true ∧ t.lnk.state = s.lnk.state)
  ∧ (∀ rise pre field, rise < 12 ∨ field = true → exec (.capture rise pre field) s = .next s)
  ∧ (Answers .crcErrorFrame s fun t => t.reg Reg.lnkCrcErr = min 65535 (s.reg Reg.lnkCrcErr + 1) ∧ t.fab = s.fab)
  ∧ (∀ (a : Agent) (dst : Byte) (d : BitVec 5), s.lnk.joined = true →
      Answers (.lnkDbSend a dst d) s fun t => ∃ f, t.lnk.txq = s.lnk.txq ++ [f] ∧ f.typ = 9 ∧ f.dst = dst.toNat ∧ f.payload = [BitVec.ofNat 8 d.toNat])
  ∧ (∀ (a : Agent) (dst : Byte) (d : BitVec 5), s.lnk.joined = false →
      Answers (.lnkDbSend a dst d) s fun t => t.lnk.txq = s.lnk.txq ∧ t.reg Reg.lnkTxStat = 3)
  ∧ (Answers .lnkDisable s fun t => t.lnk.state = .off ∧ t.lnk.grant = none ∧ t.lnk.txq = [] ∧ t.flag Reg.lnkCfg 0 = false)

/-! 11, the serial port. -/

/-- Window writes and reads, with KPR_ALARM0 as a register without conditions of its own: pointer, commit, rights, PEC
(R414, R416 to R419, R427, R429, R432, R433). -/
def Obligations.WindowAccess : Prop :=
  ∀ (s : State) (a : Agent), s.mode = .active →
  (∀ b0 b1 : Byte, s.pecOn a = false →
      Answers (.windowWrite a [b0, b1]) s fun t => (t.ser.ag.get a).ptr = pointerOf b0 b1 ∧ t.fld (Reg.serAgtStat a.val) 0 4 = 0
        ∧ t.ser.acked = true ∧ t.fab = s.fab)
  ∧ (∀ b0 b1 lo hi : Byte, s.pecOn a = false → s.pecMissing a 0 = false → pointerOf b0 b1 = Reg.kprAlarm →
      (s.canWrite a 0 = true →
        Answers (.windowWrite a [b0, b1, lo, hi]) s fun t => t.reg Reg.kprAlarm = leNat [lo, hi]
          ∧ (t.ser.ag.get a).ptr = Reg.kprAlarm + 1 ∧ t.fld (Reg.serAgtStat a.val) 0 4 = 0)
      ∧ (s.canWrite a 0 = false →
        Answers (.windowWrite a [b0, b1, lo, hi]) s fun t => t.reg Reg.kprAlarm = s.reg Reg.kprAlarm
          ∧ t.flag (Reg.serAgtStat a.val) 4 = true ∧ t.fld (Reg.serAgtStat a.val) 0 4 = 2))
  ∧ (∀ bytes : List Byte, s.pecOn a = true → 2 ≤ bytes.length → bytes.getLast? ≠ some (pec (s.addrByte a false :: bytes.dropLast)) →
      Answers (.windowWrite a bytes) s fun t => t.fld (Reg.serAgtStat a.val) 0 4 = 3 ∧ t.flag (Reg.serAgtStat a.val) 5 = true
        ∧ t.reg (Reg.serAgtPecerrs a.val) = min 65535 (s.reg (Reg.serAgtPecerrs a.val) + 1) ∧ (t.ser.ag.get a).ptr = (s.ser.ag.get a).ptr)
  ∧ (∀ b0 b1 : Byte, s.pecOn a = false → s.pecMissing a 0 = false → pointerOf b0 b1 = Reg.kprAlarm →
      (s.canRead a 0 = true → (s.ser.ag.get a).latches = [] →
        Answers (.windowRead a [b0, b1] 2) s fun t => t.ser.reply = leBytes 2 (s.reg Reg.kprAlarm)
          ∧ (t.ser.ag.get a).ptr = Reg.kprAlarm + 1 ∧ t.fld (Reg.serAgtStat a.val) 0 4 = 0)
      ∧ (s.canRead a 0 = false →
        Answers (.windowRead a [b0, b1] 2) s fun t => t.ser.reply = [0, 0] ∧ (t.ser.ag.get a).ptr = Reg.kprAlarm + 1
          ∧ t.flag (Reg.serAgtStat a.val) 4 = true ∧ t.fld (Reg.serAgtStat a.val) 0 4 = 2))
  ∧ (∀ m n : Nat, a.val = 0 → s.ser.frame = .attention m → 1 ≤ n →
      Answers (.currentPointerRead a n) s fun t => t.ser.reply.head? = some (BitVec.ofNat 8 m) ∧ t.ser.frame = .none ∧ t.regs = s.regs
        ∧ (t.ser.ag.get a).ptr = (s.ser.ag.get a).ptr)
  ∧ (s.pecOn a = false → s.pecMissing a 0 = false → s.canRead a 0 = true → (s.ser.ag.get a).latches = [] →
      (s.ser.ag.get a).ptr = Reg.kprAlarm → (a.val = 0 → ∀ m, s.ser.frame ≠ .attention m) →
      Answers (.currentPointerRead a 2) s fun t => t.ser.reply = leBytes 2 (s.reg Reg.kprAlarm) ∧ (t.ser.ag.get a).ptr = Reg.kprAlarm + 1)

/-- The commands of the port, and the transactions without one, with PEC off (R411, R413, R423 to R427, R434, R439, R459,
R472, R475, R495 to R498, R536). -/
def Obligations.PortCommands : Prop :=
  ∀ (s : State) (a : Agent), s.mode = .active → s.pecOn a = false → (∀ b, b < 64 → s.pecMissing a b = false) →
  (s.canRead a (ownBank a) = true →
      (Answers (.summary a ⟨[], some 2⟩) s fun t => t.ser.reply = leBytes 2 (s.summary a) ∧ t.fab = s.fab)
      ∧ (Answers (.claim a ⟨[], some 9⟩) s fun t => t.ser.reply = 8 :: (claimRec (best (s.claimable a))).bytes ∧ t.fab = (s.claimBy a).fab))
  ∧ (s.canRead a 0 = true → Answers (.ident a ⟨[], some 9⟩) s fun t =>
      t.ser.reply = 8 :: [Reg.sysId, Reg.sysRev, Reg.sysUnits, Reg.sysStraps].flatMap fun i => leBytes 2 (s.peek a i))
  ∧ (Answers (.status a ⟨[], some 1⟩) s fun t => t.ser.reply = leBytes 1 (s.fld (Reg.serAgtStat a.val) 0 4) ∧ t.regs = s.regs)
  ∧ (s.canRead a 1 = true → Answers (.pendingCmd a ⟨[], some 1⟩) s fun t => t.ser.reply = leBytes 1 (s.peek a Reg.serPending % 16))
  ∧ (∀ (lo hi : Byte) (e : Entry) (es : List Entry), s.canWrite a (ownBank a) = true → s.fab.stack.get a = e :: es →
      e.num = leNat [lo, hi] → e.num < 511 →
      Answers (.complete a ⟨[lo, hi], none⟩) s fun t => t.fab.stack.get a = es ∧ t.fab.pend = s.fab.pend
        ∧ t.fld (Reg.serAgtStat a.val) 0 4 = 0)
  ∧ (∀ d : Byte, s.canWrite a 4 = true →
      (d.toNat < 32 → Answers (.doorbell a ⟨[d], none⟩) s fun t => t.fab = s.postFab d.toNat (a.val + 1) ∧ t.fld (Reg.serAgtStat a.val) 0 4 = 0)
      ∧ (32 ≤ d.toNat → Answers (.doorbell a ⟨[d], none⟩) s fun t => t.fab = s.fab ∧ t.fld (Reg.serAgtStat a.val) 0 4 = 6))
  ∧ (∀ (k : Byte) (e : List Byte), s.canWrite a 6 = true → 64 ≤ k.toNat → e.length = 16 → (s.fab.ring k.toNat).dbEn = false →
      fin4.any s.unitUsable = true →
      (s.ringFits k.toNat 1 = true → Answers (.ringPush a ⟨17 :: k :: e, none⟩) s fun t => t.fab = s.fab.append k.toNat [e]
        ∧ t.fld (Reg.serAgtStat a.val) 0 4 = 0)
      ∧ (s.ringFits k.toNat 1 = false → Answers (.ringPush a ⟨17 :: k :: e, none⟩) s fun t => t.fab = s.fab
        ∧ t.fld (Reg.serAgtStat a.val) 0 4 = 7))
  ∧ (∀ k max : Byte, s.canWrite a 6 = true → 64 ≤ k.toNat → s.mayPop a k.toNat = true → 1 ≤ max.toNat → max.toNat ≤ 15 →
      s.fab.bad = [] → (s.fab.ring k.toNat).items = [1] → fin4.any s.unitUsable = true →
      Answers (.ringPop a ⟨[2, k, max], some 17⟩) s fun t =>
        t.ser.reply = 16 :: s.fab.getWord ((s.fab.ring k.toNat).word 0) ∧ (t.fab.ring k.toNat).items = []
          ∧ t.fld (Reg.serAgtStat a.val) 0 4 = 0)
  ∧ (∀ (c : Byte) (data : List Byte), s.canWrite a 9 = true → c.toNat = data.length → 1 ≤ data.length →
      (s.tkr.held a < 4 → Answers (.tkrReq a ⟨c :: data, none⟩) s fun t =>
        t.tkr.queue.get a = s.tkr.queue.get a ++ [⟨s.tkr.reqNo, data⟩] ∧ t.fld (Reg.serAgtStat a.val) 0 4 = 0)
      ∧ (4 ≤ s.tkr.held a → Answers (.tkrReq a ⟨c :: data, none⟩) s fun t =>
        t.tkr = s.tkr ∧ t.fld (Reg.serAgtStat a.val) 0 4 = 7))
  ∧ (∀ r, Answers (.quickCommand a r) s fun t => t.ser.reply = [] ∧ t.ser.acked = true ∧ t.regs = s.regs ∧ t.fab = s.fab)
  ∧ (∀ b, firstByteAcked b = false →
      Answers (.unackedFirstByte a b) s fun t => t.ser.reply = [] ∧ t.ser.acked = false ∧ t.regs = s.regs)
  ∧ (∀ b, firstByteAcked b = true → exec (.unackedFirstByte a b) s = .next s)
  ∧ (Answers (.busError a) s fun t => t.reg Reg.serBusErrs = min 65535 (s.reg Reg.serBusErrs + 1))
  ∧ (∀ ms, s.flag Reg.serCfg 4 = true → 25 ≤ ms →
      Answers (.busTimeout a ms) s fun t => t.reg Reg.serTimeouts = min 65535 (s.reg Reg.serTimeouts + 1))

/-- Calling attention: ALERT_N and its response address, attention frames, notify frames (R441 to R455); `u` is s once the
calls that are over have ended. -/
def Obligations.Attention : Prop :=
  ∀ s u : State, s.mode = .active → u = s.attnSettle →
  (∀ a, u.attnCall a = true → (u.ser.ag.get a).called = false →
      (u.agtMode a = 1 → Answers (.attentionDue a) s fun t => t.ser.alert = true ∧ (t.ser.ag.get a).called = true)
      ∧ (2 ≤ u.agtMode a → (u.ser.ag.get a).fallback = false →
        Answers (.attentionDue a) s fun t => t.ser.alert = u.ser.alert ∧ (t.ser.ag.get a).want = true))
  ∧ (∀ a ms, (u.ser.ag.get a).called = true → u.agtMode a = 1 → u.reg Reg.serRepeat ≤ ms →
      Answers (.attentionRepeat a ms) s fun t => t.ser.alert = true)
  ∧ (∀ others : List Byte, u.ser.alert = true → (∀ b ∈ others, 2 * s.base ≤ b.toNat) → 2 * s.base < 256 →
      Answers (.araRead others) s fun t => t.ser.reply.head? = some (BitVec.ofNat 8 (2 * s.base)) ∧ t.ser.alert = false ∧ t.ser.acked = true)
  ∧ (∀ a ns, u.firstWanting = some a → u.busFree ns = true →
      (u.agtMode a = 2 → Answers (.attentionFrame ns) s fun t => t.ser.frame = .attention u.bandMask
        ∧ t.ser.reply = [BitVec.ofNat 8 (2 * s.base + 1), BitVec.ofNat 8 u.bandMask])
      ∧ (u.agtMode a = 3 → Answers (.notifyFrame a ns) s fun t => t.ser.frame = .notify a ∧ t.ser.reply = u.notifyBytes a
        ∧ (t.ser.ag.get a).want = false))
  ∧ (∀ m, s.ser.frame = .attention m →
      (∀ us, 50 ≤ us → Answers (.attentionFallback us) s fun t => t.ser.frame = .none ∧ t.ser.alert = true ∧ t.fab = s.postFab 428 0
        ∧ ∀ a : Agent, bit m a.val = true → (t.ser.ag.get a).fallback = true)
      ∧ (Answers .attentionArbLoss s fun t => t.ser.frame = .none ∧ t.ser.backoff = true
        ∧ ∀ a : Agent, bit m a.val = true → (t.ser.ag.get a).want = true))
  ∧ (∀ a, s.ser.frame = .notify a →
      (Answers .notifyArbLoss s fun t => t.ser.frame = .none ∧ t.ser.backoff = true ∧ (t.ser.ag.get a).want = true)
      ∧ ((u.ser.ag.get a).tries < 3 → Answers .notifyNack s fun t => (t.ser.ag.get a).want = true
        ∧ (t.ser.ag.get a).tries = (u.ser.ag.get a).tries + 1 ∧ t.fab = s.fab)
      ∧ (3 ≤ (u.ser.ag.get a).tries → Answers .notifyNack s fun t => (t.ser.ag.get a).fallback = true ∧ t.ser.alert = true
        ∧ t.fab = s.postFab (424 + a.val) 0)
      ∧ (∀ ms, 25 ≤ ms → Answers (.notifyStretchTimeout ms) s fun t => t.ser.frame = .none ∧ t.ser.reply = []))

/-! 12, the event fabric. -/

/-- R474: the spurious record, what it latches and what a spurious claim leaves. -/
def Obligations.SpuriousClaim : Prop :=
  (claimRec none).bytes = [0xFF, 0x01, 0, 0, 0, 0, 0, 0]
  ∧ ∀ (s : State) (a : Agent), s.mode = .active → s.claimable a = [] →
      Answers (.agtnClaim a) s fun t => t.fab.stack = s.fab.stack ∧ t.fab.pend = s.fab.pend
        ∧ t.peek a (0x2400 + 0x200 * a.val) = 511 ∧ ∀ o, 1 ≤ o → o ≤ 6 → t.peek a (0x2400 + 0x200 * a.val + o) = 0

/-- Posting, coalescing, claim, completion, sleep and remote wake, routes, and the watch list (R459 to R467, R472, R475 to
R479, R481, R484 to R486). -/
def Obligations.FabricCommands : Prop :=
  ∀ s : State,
  (∀ src : BitVec 9, s.mode = .active → postable src.toNat = true → absentSource s.part.variant src.toNat = false →
      Answers (.eventPost src) s (posted s · src.toNat 0))
  ∧ (∀ (a : Agent) (d : BitVec 5), s.mode = .active → Answers (.evtDoorbell a d) s (posted s · d.toNat (a.val + 1)))
  ∧ (∀ (g : BitVec 5) (us : Nat) (b : Batch), s.mode = .active → s.fab.batch g.toNat = some b → s.reg (Reg.coalTime g.toNat) * 10 ≤ us →
      (∀ e ∈ b.held, (s.route e.num).live = true ∧ (s.route e.num).ring = false) →
      Answers (.coalesceTime g us) s fun t => t.fab.batch g.toNat = none
        ∧ ∃ es, t.fab.pend = s.fab.pend ++ es ∧ es.map (·.num) = b.held.map (·.num) ∧ ∀ e ∈ es, e.coalesced = true)
  ∧ (∀ (a : Agent) (e : Entry), s.mode = .active → best (s.claimable a) = some e →
      Answers (.agtnClaim a) s fun t => t.fab.stack.get a = e :: s.fab.stack.get a ∧ t.fab.pend = s.fab.pend.erase e
        ∧ t.fab.latch.get a = claimRec (some e))
  ∧ (∀ (a : Agent) (x : BitVec 9) (e : Entry) (es : List Entry), s.mode = .active → x.toNat ≠ 511 → s.fab.stack.get a = e :: es →
      (e.num = x.toNat → Answers (.agtnComplete a x) s fun t => t.fab.stack.get a = es ∧ t.fab.pend = s.fab.pend)
      ∧ (e.num ≠ x.toNat → Answers (.agtnComplete a x) s fun t => t.fab.stack.get a = [] ∧ t.fab.stackFlag.get a = true
          ∧ t.fab.faults.get a = min 65535 (s.fab.faults.get a + 1)))
  ∧ (∀ a, s.mode = .active → Answers (.agtnComplete a 511) s fun t => t.fab = s.fab)
  ∧ (∀ (a : Agent) (v : Word), s.mode = .active → Answers (.agtnCtlAwake a v) s fun t => t.awake a = bit v.toNat 0
        ∧ t.thresh a = bits v.toNat 8 4 ∧ t.wakePrio a = bits v.toNat 4 4)
  ∧ (∀ a, s.mode = .active → s.wantsWake a = true → s.life.holdoff = false →
      exec (.remoteWake a) s = .next { s with life := { s.life with pulse := true, holdoff := true } })
  ∧ (∀ a, s.mode = .active → s.wantsWake a = true → s.life.holdoff = true → exec (.remoteWake a) s = .next s)
  ∧ (∀ a ms, s.mode = .active → 100 ≤ ms → Answers (.remoteWakeDeferred a ms) s fun t => t.life.holdoff = s.wantsWake a
        ∧ (s.wantsWake a = true → t.life.pulse = true))
  ∧ (∀ (x : BitVec 9) (v : Word), s.mode = .active →
      (x.toNat < 40 ∨ 43 < x.toNat → x.toNat ≠ 511 → exec (.evtRoute x v) s = .next (s.setReg (Reg.evtRoute x.toNat) v.toNat))
      ∧ (40 ≤ x.toNat → x.toNat ≤ 43 → exec (.evtRoute x v) s = .next s))
  ∧ (∀ src : BitVec 9, s.mode = .dormant → watchDormant src.toNat = true → s.watching src.toNat ≠ [] →
      Answers (.watchHitDormant src) s fun t => t.mode = .hold ∧ t.life.causes = 4
        ∧ t.reg32 Reg.kprWatchHit = s.reg32 Reg.kprWatchHit ||| ((s.watching src.toNat).map fun k => 2 ^ k).sum)
  ∧ (∀ src : BitVec 9, s.mode = .ship → watchShip src.toNat = true → s.watching src.toNat ≠ [] →
      Answers (.watchHitShip src) s fun t => t.mode = .ship
        ∧ t.reg32 Reg.kprWatchHit = s.reg32 Reg.kprWatchHit ||| ((s.watching src.toNat).map fun k => 2 ^ k).sum)

/-! 13, rings and Check units. -/

/-- Allocation, pushes and pops through the window, raw access, the SRAM scrub, and the life of a Check job (R26 to R31,
R491 to R495, R498, R504 to R509, R514, R518, R519, R521 to R524); which commands are the grants of a unit is log 89. -/
def Obligations.RingsAndUnits : Prop :=
  ∀ s : State, s.mode = .active →
  (∀ (a : Agent) (v : Word) (c : Nat), absentRing s.part.variant (s.selRing a) = false → (s.selRing a < 24 ∨ 32 ≤ s.selRing a) →
      c = min 9 (v.toNat % 16) →
      ((s.fab.ring (s.selRing a)).count ≠ 0 → Answers (.ringCfg a false v) s fun t => t.fab = s.fab ∧ (t.ser.ag.get a).result = 7)
      ∧ ((s.fab.ring (s.selRing a)).count = 0 → c = 0 ∨ ((s.fab.ring (s.selRing a)).base % 4096 * 16 + 2 ^ (c + 3) ≤ 65536
            ∧ s.overlaps (s.selRing a) ((s.fab.ring (s.selRing a)).base % 4096 * 16) (2 ^ (c + 3)) = false) →
        Answers (.ringCfg a false v) s fun t => (t.fab.ring (s.selRing a)).size = c ∧ (t.fab.ring (s.selRing a)).head = 0
          ∧ (t.ser.ag.get a).result = 0 ∧ ∀ k, k ≠ s.selRing a → t.fab.ring k = s.fab.ring k)
      ∧ ((s.fab.ring (s.selRing a)).count = 0 → (s.fab.ring (s.selRing a)).size = 0 →
        Answers (.ringCfg a true v) s fun t => (t.fab.ring (s.selRing a)).base = v.toNat % 4096 ∧ (t.ser.ag.get a).result = 0))
  ∧ (∀ (a : Agent) (data : List (Fin 8 × Word)), s.rawSel a = false → 64 ≤ s.selRing a → (s.fab.ring (s.selRing a)).dbEn = false →
      fin4.any s.unitUsable = true →
      (∀ l, wholeEntry data = some l → s.ringFits (s.selRing a) 1 = true →
        Answers (.ringDataPush a data) s fun t => t.fab = s.fab.append (s.selRing a) [wordsEntry l] ∧ (t.ser.ag.get a).result = 0)
      ∧ (∀ l, wholeEntry data = some l → s.ringFits (s.selRing a) 1 = false →
        Answers (.ringDataPush a data) s fun t => t.fab = s.fab ∧ (t.ser.ag.get a).result = 4)
      ∧ (wholeEntry data = none → Answers (.ringDataPush a data) s fun t => t.fab = s.fab ∧ (t.ser.ag.get a).result = 5))
  ∧ (∀ a : Agent, s.rawSel a = false → 64 ≤ s.selRing a → s.mayPop a (s.selRing a) = true → fin4.any s.unitUsable = true →
      ((s.fab.ring (s.selRing a)).items = [1] → s.fab.bad = [] →
        Answers (.ringData0Pop a) s fun t => (t.fab.ring (s.selRing a)).items = [] ∧ (t.ser.ag.get a).result = 0
          ∧ (t.ser.ag.get a).latch = entryWords (s.fab.getWord ((s.fab.ring (s.selRing a)).word 0)))
      ∧ ((s.fab.ring (s.selRing a)).items = [] →
        Answers (.ringData0Pop a) s fun t => (t.ser.ag.get a).result = 3 ∧ (t.ser.ag.get a).latch = Eight.all 0))
  ∧ (∀ (a : Agent) (w : Nat), s.rawSel a = true → w = (s.ser.ag.get a).addr.toNat →
      (∀ (d : List (Fin 8 × Word)) (l : Eight Word), wholeEntry d = some l → s.inRing w = false →
        Answers (.rawAccess a (some d)) s fun t => t.fab.getWord w = wordsEntry l ∧ (t.ser.ag.get a).result = 0
          ∧ (t.ser.ag.get a).addr = (s.ser.ag.get a).addr + 1)
      ∧ (∀ (d : List (Fin 8 × Word)) (l : Eight Word), wholeEntry d = some l → s.inRing w = true →
        Answers (.rawAccess a (some d)) s fun t => t.fab = s.fab ∧ (t.ser.ag.get a).result = 8
          ∧ (t.ser.ag.get a).addr = (s.ser.ag.get a).addr)
      ∧ (s.inRing w = false → w ∉ s.fab.bad →
        Answers (.rawAccess a none) s fun t => t.fab = s.fab ∧ (t.ser.ag.get a).latch = entryWords (s.fab.getWord w)
          ∧ (t.ser.ag.get a).result = 0 ∧ (t.ser.ag.get a).addr = (s.ser.ag.get a).addr + 1))
  ∧ (∀ (w : Word) (flips : Nat),
      (flips = 0 → w.toNat ∉ s.fab.bad → Answers (.sramScrub w flips) s fun t => t.fab = s.fab)
      ∧ (flips = 1 → w.toNat ∉ s.fab.bad → Answers (.sramScrub w flips) s fun t => t.fab.eccCorr = min 65535 (s.fab.eccCorr + 1)
          ∧ t.fab.eccUncorr = s.fab.eccUncorr)
      ∧ (2 ≤ flips → Answers (.sramScrub w flips) s fun t => t.fab.eccUncorr = min 65535 (s.fab.eccUncorr + 1)
          ∧ t.fab.eccAddr = w.toNat))
  ∧ (∀ (u : UnitId) (q : QJob) (e : List Byte), s.unitUsable u = true → (s.chk.units.get u).job = none → s.chk.restart = [] →
      s.chk.queue = [q] → s.unitTakes u q.ring = true → (s.takeEntry q).2 = some e →
      (∀ bg : Option (Word32 × Word32), (s.chkArb u bg).free (s.floors [2]) (fun _ => 1) none = true →
        Answers (.chkJobStart u bg) s fun t => ∃ j, (t.chk.units.get u).job = some j ∧ j.ring = q.ring ∧ j.entry = e
          ∧ (s.algOf (entAlg e) = none → j.status = 5) ∧ t.chk.queue = (s.takeEntry q).1.chk.queue)
      ∧ (∀ v n : Word32, (s.chkArb u (some (v, n))).free (s.floors [2]) (fun _ => 1) none = true → s.testMoved u (some (v, n)) = true →
        Answers (.chkJobStart u (some (v, n))) s fun t => t.chkSlot u 14 = v.toNat ∧ t.chkSlot u 15 = n.toNat
          ∧ (t.chk.units.get u).held = true))
  ∧ (∀ (u : UnitId) (bg : Option (Word32 × Word32)), (s.chkArb u bg).free (s.floors [2]) (fun _ => 1) none = false →
      exec (.chkJobStart u bg) s = .next s)
  ∧ (∀ (u : UnitId) (j : Job), (s.chk.units.get u).job = some j → s.ringFits (j.ring + 1) 1 = true →
      Answers (.chkJobDone u) s fun t => (t.chk.units.get u).job = none
        ∧ t.reg (Reg.chkJobs u.val) = min 65535 (s.reg (Reg.chkJobs u.val) + 1)
        ∧ (j.repeated = true → t.reg (Reg.chkRepeats u.val) = min 65535 (s.reg (Reg.chkRepeats u.val) + 1)))
  ∧ (∀ (u v : UnitId) (lanes : Bool), s.unitUsable u = true → v ≠ u → s.unitUsable v = true →
      Answers (.chkUnitFailed u lanes) s fun t => t.unitUsable u = false ∧ (t.chk.units.get u).cause = (if lanes then 1 else 2)
        ∧ ∀ j, (s.chk.units.get u).job = some j → { j with repeated := true } ∈ t.chk.restart)
  ∧ (∀ u, s.unitUsable u = true → (s.chk.units.get u).job = none →
      ((s.arb.chk.get u).mayRun (s.floors [2]) (fun _ => 1) (s.chkFg u) 2 = true →
        Answers (.chkKat u) s fun t => (t.chk.units.get u).kat = true ∧ (t.chk.units.get u).job = none ∧ t.chk.tests.get u = false)
      ∧ ((s.arb.chk.get u).mayRun (s.floors [2]) (fun _ => 1) (s.chkFg u) 2 = false → exec (.chkKat u) s = .next s))
  ∧ (∀ (u : UnitId) (v : Word32), s.part.variant.hasChk u = true → (s.chk.units.get u).job = none →
      Answers (.chkAccWrite u v) s fun t => t.chkAcc u = v.toNat)

/-! 14, the Tack Room. -/

/-- Requests and what they answer (R536 to R541, R544, R546 to R549, R552, R643, R644). -/
def Obligations.TackRoomRequests : Prop :=
  ∀ (s : State) (a : Agent) (r : Req), s.mode = .active →
  (∀ rest, s.tkr.queue.get a = r :: rest → s.tkr.run.get a = none → s.tkr.replies.get a = [] → s.ringFits (2 * a.val + 1) 1 = true →
      s.planeTaken a r = false → (∀ p : Fin 4, p.val ∈ s.tkr.planes r → s.planeFree p = true) →
      (opSpec r.op = none → Answers (.tkrRequestStart a) s fun t => replied s t a r ⟨Rep.badArg, 0, 0, []⟩ ∧ t.tkr.queue.get a = rest)
      ∧ (∀ n, opSpec r.op = some (n, 2) → s.canWrite a 0x0A = false →
        Answers (.tkrRequestStart a) s fun t => replied s t a r ⟨Rep.denied, 0, 0, []⟩)
      ∧ (∀ n, opSpec r.op = some (n, 2) → s.canWrite a 0x0A = true → r.bytes.length ≠ n + 2 →
        Answers (.tkrRequestStart a) s fun t => replied s t a r ⟨Rep.badLength, 0, 0, []⟩)
      ∧ (∀ n k, opSpec r.op = some (n, k) → s.canWrite a 0x0A = true → r.bytes.length = n + 2 → s.argsOk r = true →
        Answers (.tkrRequestStart a) s fun t => t.tkr.run.get a = some r ∧ t.tkr.queue.get a = rest ∧ t.fab = s.fab))
  ∧ (s.tkr.run.get a = some r →
    (r.op = 0x01 → s.tkr.bad = [] → leNat (slice r.arg 5 4) = 0xFFFFFFFF → Answers (.tkrRead a []) s fun t =>
        replied s t a r ⟨Rep.ok, leNat (slice r.arg 0 4), leNat (slice r.arg 4 1),
          entriesOf (16 * leNat (slice r.arg 4 1)) (s.storePages (leNat (slice r.arg 0 4) / 256) (leNat (slice r.arg 4 1)))⟩)
    ∧ (r.op = 0x02 → Answers (.tkrInfo a) s fun t => ∃ e, replied s t a r ⟨Rep.ok, 0, 0, [e]⟩)
    ∧ (r.op = 0x10 → s.getSram (leNat r.arg) 256 = none → ∀ b, Answers (.tkrStage a b) s fun t => replied s t a r ⟨Rep.ecc, 34 * 65536, 0, []⟩)
    ∧ (∀ c, r.op = 0x10 → s.getSram (leNat r.arg) 256 = some c → Answers (.tkrStage a true) s fun t =>
        replied s t a r ⟨if stageOk s.part c then Rep.ok else Rep.badRecord, 34 * 65536, recVersion c, []⟩
          ∧ (stageOk s.part c = true → t.page (34 * 256) = c))
    ∧ (r.op = 0x10 → (s.getSram (leNat r.arg) 256).isSome = true →
        Answers (.tkrStage a false) s fun t => replied s t a r ⟨Rep.writeFail, 34 * 65536, 0, []⟩)
    ∧ (r.op = 0x20 → Answers (.tkrNote a) s fun t => replied s t a r ⟨Rep.ok, 0, s.tkr.jserial + s.tkr.jbuf.length + 1, []⟩)
    ∧ (r.op = 0x21 → Answers (.tkrSeal a) s fun t => t.tkr.sealNo = s.tkr.sealNo + 1 ∧ t.tkr.jsince = 0
        ∧ ∃ p, replied s t a r ⟨Rep.ok, p, s.tkr.sealNo + 1, []⟩)
    ∧ (r.op = 0x30 → (s.tkr.session.isSome = true → Answers (.tkrOpen a) s fun t => replied s t a r ⟨Rep.busy, 0, 0, []⟩ ∧ t.tkr.session = s.tkr.session)
      ∧ (s.tkr.session = none → Answers (.tkrOpen a) s fun t => ∃ e, t.tkr.session = some e ∧ e.agent = a ∧ e.next = 0
          ∧ e.kind = leNat (slice r.arg 0 1) ∧ replied s t a r ⟨Rep.ok, e.base * 256, 0, []⟩))
    ∧ (r.op = 0x31 → s.tkr.session = none → ∀ b, Answers (.tkrWrite a b) s fun t => replied s t a r ⟨Rep.noSession, 0, 0, []⟩)
    ∧ (∀ (e : Session) (i n : Nat) (bs : List Byte), r.op = 0x31 → s.tkr.session = some e → e.agent = a → i = leNat (slice r.arg 0 3) →
        n = leNat (slice r.arg 3 1) →
        (i ≠ e.next → ∀ b, Answers (.tkrWrite a b) s fun t => replied s t a r ⟨Rep.order, 0, 0, []⟩ ∧ t.tkr.session = some e)
        ∧ (i = e.next → i + n ≤ e.pages → s.getSram (leNat (slice r.arg 4 4)) (256 * n) = some bs →
          Answers (.tkrWrite a true) s fun t => replied s t a r ⟨Rep.ok, (e.base + i) * 256, n, []⟩
            ∧ t.tkr.session = some { e with next := i + n }))
    ∧ (r.op = 0x32 → s.tkr.session = none → Answers (.tkrClose a) s fun t => replied s t a r ⟨Rep.noSession, 0, 0, []⟩)
    ∧ (∀ e : Session, r.op = 0x32 → s.tkr.session = some e → e.agent = a →
        Answers (.tkrClose a) s fun t => t.tkr.session = none ∧ t.tkr.run.get a = none)
    ∧ (∀ e : Session, r.op = 0x32 → s.tkr.session = some e → e.agent ≠ a →
        Answers (.tkrClose a) s fun t => t.tkr.session = some e ∧ replied s t a r ⟨Rep.busy, 0, 0, []⟩)
    ∧ (∀ e : Session, r.op = 0x33 → s.tkr.session = some e → e.agent = a →
        Answers (.tkrAbort a) s fun t => t.tkr.session = none ∧ replied s t a r ⟨Rep.ok, 0, 0, []⟩))

/-- Replies that waited, the session's end, the pages of the logs, scrub and wear (R27, R31, R539, R548, R549, R552, R554 to
R558); which commands are the grants of a plane, and where a page program yields, is log 89. -/
def Obligations.TackRoomPages : Prop :=
  ∀ s : State, s.mode = .active →
  (∀ (a : Agent) (it : ReplyItem) (rest : List ReplyItem), s.tkr.replies.get a = it :: rest → s.ringFits (2 * a.val + 1) it.entries.length = true →
      Answers (.replyDelivered a) s fun t => t.tkr.replies.get a = rest
        ∧ (t.fab.ring (2 * a.val + 1)).items = (s.fab.ring (2 * a.val + 1)).items ++ [it.entries.length])
  ∧ (∀ secs, 600 ≤ secs → s.tkr.session.isSome = true →
      Answers (.sessionTimeout secs) s fun t => t.tkr.session = none ∧ t.fab = s.postFab 463 0)
  ∧ (∀ secs, s.tkr.jbuf ≠ [] → 8 ≤ s.tkr.jbuf.length ∨ 10 ≤ secs → s.tkr.jsince < 240 →
      (upkeepFree s (s.planeOf (48 + s.tkr.jhead / 256)) 4 →
        Answers (.journalPageProgram secs) s fun t => t.tkr.jserial = s.tkr.jserial + min 8 s.tkr.jbuf.length)
      ∧ (upkeepYields s (s.planeOf (48 + s.tkr.jhead / 256)) →
        Answers (.journalPageProgram secs) s fun t =>
          t.arb.susp.get (s.planeOf (48 + s.tkr.jhead / 256)) = some (s.tkr.logOp 48 s.tkr.jhead) ∧ t.tkr = s.tkr ∧ t.fab = s.fab))
  ∧ (∀ secs, s.tkr.hbuf ≠ [] → 8 ≤ s.tkr.hbuf.length ∨ 10 ≤ secs → upkeepFree s (s.planeOf (208 + s.tkr.hhead / 256)) 4 →
      Answers (.historyPageProgram secs) s fun t => t.tkr.hbuf = s.tkr.hbuf.drop 8 ∧ t.tkr.jserial = s.tkr.jserial)
  ∧ (∀ secs, 256 ≤ s.tkr.jsince ∨ (86400 ≤ secs ∧ s.tkr.jsince ≠ 0) →
      Answers (.sealTimer secs) s fun t => t.tkr.sealNo = s.tkr.sealNo + 1 ∧ t.tkr.jsince = 0 ∧ t.tkr.chainFrom = [])
  ∧ (∀ (p : BitVec 18) (flips : Nat), s.tkr.programmed p.toNat = true → s.tkr.isBad p.toNat = false →
      upkeepFree s (s.planeOf (p.toNat / 256)) 3 →
      (flips = 0 → Answers (.storeScrub p flips) s fun t => t.tkr.store = s.tkr.store ∧ t.fab = s.fab
        ∧ t.reg Reg.tkrEccCorr = s.reg Reg.tkrEccCorr)
      ∧ (1 ≤ flips → flips ≤ 8 → Answers (.storeScrub p flips) s fun t => t.tkr.store = s.tkr.store ∧ t.tkr.bad = s.tkr.bad
        ∧ t.reg Reg.tkrEccCorr = min 65535 (s.reg Reg.tkrEccCorr + 1)
        ∧ (4 ≤ flips → p.toNat / 256 ∈ t.tkr.weak) ∧ (6 ≤ flips → p.toNat / 256 ∈ t.tkr.worn))
      ∧ (8 < flips → Answers (.storeScrub p flips) s fun t => t.tkr.isBad p.toNat = true
        ∧ t.reg Reg.tkrEccUncorr = min 65535 (s.reg Reg.tkrEccUncorr + 1) ∧ t.reg32 Reg.tkrUncorrAddr = p.toNat * 256))
  ∧ (∀ (b : BitVec 10) (sp : Nat), mayErase b.toNat = true → bestSpare s.tkr = some sp → upkeepFree s (s.planeOf b.toNat) 4 →
      (b.toNat ∈ s.tkr.weak → b.toNat ∉ s.tkr.worn → (s.tkr.bad.any fun p => p / 256 == b.toNat) = false →
        Answers (.blockRefresh b true) s fun t => t.tkr.phys b.toNat = sp ∧ t.tkr.store = s.tkr.store ∧ t.tkr.retired = s.tkr.retired
          ∧ t.tkr.free = s.tkr.free.erase sp ++ [s.tkr.phys b.toNat])
      ∧ (∀ c : Byte, s.mayRetire b.toNat c.toNat = true → Answers (.blockRetire b c) s fun t => t.tkr.phys b.toNat = sp ∧ t.tkr.retired = s.tkr.retired + 1
          ∧ t.tkr.free = s.tkr.free.erase sp))

/-! 15, measurement and background work. -/

/-- One-shots, the schedule, summaries, calibration and deadlines (R567, R569, R571, R573 to R577, R579 to R582, R584, R586,
R587, R589, R592); which commands are the grants of the ADC is log 89. -/
def Obligations.MeasureCommands : Prop :=
  ∀ s : State, s.mode = .active →
  (∀ (a : Agent) (v : Word), bit v.toNat 15 = true →
      ((s.tlm.os.get a).busy = false → bits v.toNat 0 6 < 28 → absentChannel s.part.variant (bits v.toNat 0 6) = false →
        Answers (.oneshotGo a v) s fun t => t.tlm.os.get a = ⟨true, bits v.toNat 0 6, bits v.toNat 8 3⟩ ∧ t.fld (Reg.tlmOsStat a.val) 4 4 = 0)
      ∧ ((s.tlm.os.get a).busy = true ∨ 28 ≤ bits v.toNat 0 6 →
        Answers (.oneshotGo a v) s fun t => t.tlm = s.tlm ∧ t.fld (Reg.tlmOsStat a.val) 4 4 = 6)
      ∧ ((s.tlm.os.get a).busy = false → bits v.toNat 0 6 < 28 → absentChannel s.part.variant (bits v.toNat 0 6) = true →
        Answers (.oneshotGo a v) s fun t => t.tlm = s.tlm ∧ t.fld (Reg.tlmOsStat a.val) 4 4 = 1 ∧ t.reg (Reg.tlmOsResult a.val) = 0))
  ∧ (∀ (a : Agent) (xs : List Int), (s.tlm.os.get a).busy = true → s.tlm.order.head? = some a →
      s.arb.adc.free (s.floors [0, 1]) s.adcNeed none = true →
      Answers (.oneshotDone a xs) s fun t => (t.tlm.os.get a).busy = false ∧ t.flag (Reg.tlmOsStat a.val) 1 = true
        ∧ t.reg (Reg.tlmOsResult a.val) = bitsOf (meanOf xs) 16 ∧ t.reg (Reg.tlmOsSpread a.val) = bitsOf (highestOf xs - lowest xs) 16)
  ∧ (∀ (a : Agent) (xs : List Int), s.tlm.order.head? ≠ some a ∨ s.arb.adc.free (s.floors [0, 1]) s.adcNeed none = false →
      exec (.oneshotDone a xs) s = .next s)
  ∧ (∀ e : BitVec 6, s.entryRuns e.toNat = true →
      (s.tlm.flight.any (·.1 == e.toNat) = false → Answers (.telemetryDue e) s fun t =>
        t.tlm.flight = s.tlm.flight ++ [(e.toNat, s.reg (Reg.tlmCfg + e.toNat))] ∧ t.regs = s.regs)
      ∧ (s.tlm.flight.any (·.1 == e.toNat) = true → Answers (.telemetryDue e) s fun t => t.tlm.flight = s.tlm.flight
        ∧ t.reg Reg.tlmLateCnt = min 65535 (s.reg Reg.tlmLateCnt + 1) ∧ t.flag Reg.bgLate 0 = true))
  ∧ (∀ (e : BitVec 6) (xs : List Int) (us : Nat) (i : Nat × Nat), s.tlm.flight.find? (·.1 == e.toNat) = some i →
      us ≤ s.reg (Reg.tlmPeriod + e.toNat) * 125 → absentChannel s.part.variant (bits i.2 0 6) = false →
      s.earlierDue e.toNat = false → s.arb.adc.mayRun (s.floors [0, 1]) s.adcNeed s.adcFg 0 = true →
      Answers (.telemetryResult e xs us) s fun t => t.reg (Reg.tlmLastE + e.toNat) = bitsOf (meanOf xs) 16
        ∧ t.tlm.flight = s.tlm.flight.erase i
        ∧ (bit i.2 6 = true → channelValue (bits i.2 0 6) (s.reg (Reg.tlmLimhiE + e.toNat)) < meanOf xs →
            t.flag (Reg.tlmLimitStat + e.toNat / 16) (e.toNat % 16) = true))
  ∧ (∀ (e : BitVec 6) (xs : List Int) (us : Nat), s.tlm.flight.any (·.1 == e.toNat) = true → s.earlierDue e.toNat = false →
      s.arb.adc.mayRun (s.floors [0, 1]) s.adcNeed s.adcFg 0 = false →
      exec (.telemetryResult e xs us) s = .next (s.setAdc (s.arb.adc.await 0)))
  ∧ (∀ (e : BitVec 6) (v : Word), 22 ≤ e.toNat →
      (Answers (.tlmCfg e false v) s fun t => t.fld (Reg.tlmCfg + e.toNat) 0 6 = bits v.toNat 0 6 ∧ t.flag (Reg.tlmCfg + e.toNat) 15 = bit v.toNat 15
        ∧ t.tlm = s.tlm)
      ∧ (Answers (.tlmCfg e true v) s fun t => t.fld (Reg.tlmPeriod + e.toNat) 0 12 = max 1 (bits v.toNat 0 12) ∧ t.tlm = s.tlm))
  ∧ (∀ secs, s.histDue secs = true → Answers (.historyIntervalEnd secs) s fun t => t.tkr.hcount = s.tkr.hcount + 1
        ∧ t.tkr.hbuf.length = s.tkr.hbuf.length + 1 ∧ t.tlm.hist.secs = 0)
  ∧ (∀ (v : Word) (secs : Nat), 1 ≤ bits v.toNat 0 6 → bits v.toNat 0 6 ≤ 60 → s.rtcValid = false →
      Answers (.tlmHistInterval v secs) s fun t => t.fld Reg.tlmHistInterval 0 6 = bits v.toNat 0 6
        ∧ (secs < 60 → t.tkr = s.tkr ∧ t.tlm = s.tlm) ∧ (3600 ≤ secs → s.reg Reg.tlmHistInterval < 64 → t.tkr.hcount = s.tkr.hcount + 1))
  ∧ (Answers .calRun s fun t => t.cal.busy = true ∧ t.cal.again = s.cal.busy
      ∧ (s.cal.busy = false → ∀ u, t.chk.tests.get u = s.unitUsable u))
  ∧ (∀ die mins, s.reg Reg.calPeriod ≤ mins → Answers (.calTrigger die mins) s fun t => t.cal.busy = true)
  ∧ (∀ die mins, s.cal.fuseOnly = false → s.reg Reg.calDtemp * 10 ≤ (die - s.cal.die).natAbs →
      Answers (.calTrigger die mins) s fun t => t.cal.busy = true)
  ∧ (∀ (gain off : Four Int) (ratio iin ibat die : Int), s.cal.busy = true →
      s.arb.adc.mayRun (s.floors [0, 1]) s.adcNeed s.adcFg 1 = true →
      (calWithin gain off = true → Answers (.calPassEnd gain off ratio iin ibat die) s fun t => t.cal.fail = false ∧ t.cal.busy = s.cal.again
          ∧ t.cal.coef = ⟨gain.map fun g => BitVec.ofNat 16 (bitsOf g 16), off.map fun o => BitVec.ofNat 16 (bitsOf o 16)⟩
          ∧ t.reg Reg.calPasses = min 65535 (s.reg Reg.calPasses + 1))
      ∧ (calWithin gain off = false → Answers (.calPassEnd gain off ratio iin ibat die) s fun t => t.cal.fail = true
          ∧ t.cal.coef = s.cal.coef ∧ t.reg Reg.calPasses = s.reg Reg.calPasses))
  ∧ (∀ die, 20 ≤ (die - s.cal.trimDie).natAbs → Answers (.tboTrim die) s fun t => t.cal = { s.cal with trimDie := die })
  ∧ (∀ (p : Fin 8) (uv : Int), p.val < 6 → s.noPoint p = false → -32768 ≤ uv → uv ≤ 32767 → s.zeroCurrent p = true →
      s.arb.adc.mayRun (s.floors [0, 1]) s.adcNeed s.adcFg 1 = true →
      Answers (.senseOffset p uv) s fun t => t.reg (Reg.calOfsS + p.val) = bitsOf uv 16 ∧ t.reg (Reg.calOfsAgeS + p.val) = 0
        ∧ bit t.cal.stale.toNat p.val = false)
  ∧ (∀ p : Fin 8, s.noPoint p = false → bit s.cal.stale.toNat p.val = false →
      60 * s.reg Reg.calOfsMax < s.reg (Reg.calOfsAgeS + p.val) →
      Answers (.offsetStale p) s fun t => bit t.cal.stale.toNat p.val = true ∧ t.fab = s.postFab 473 0)
  ∧ (∀ a : Fin 6, Answers (.deadlineMiss a) s fun t => t.flag Reg.bgLate a.val = true
        ∧ (a.val = 0 → t.reg Reg.tlmLateCnt = min 65535 (s.reg Reg.tlmLateCnt + 1)) ∧ (a.val = 3 → t.tkr.scrubLate = true))

/-! Rules of the manual as they stand. -/

/-- R338. -/
def Obligations.UnsupportedPartner : Prop :=
  ∀ (s : State) (p : Port), s.part.variant.hasPort p = true → s.mode = .active → (s.prt p).role = .none →
    ((s.prt p).unsup = false → (s.prt p).openCc = false → (s.prt p).roleIn ≠ 0 →
      Answers (.unsupportedAttach p) s fun t => (t.prt p).unsup = true ∧ (t.prt p).role = .none ∧ t.fab = s.postFab (portSrc p + 16) 0)
    ∧ ((s.prt p).unsup = true → exec (.unsupportedAttach p) s = .next s
        ∧ ∀ (src cc2 : Bool) (rp rev ms : Nat), exec (.attach p src cc2 rp rev ms) s = .next s)
    ∧ (∀ ms, (s.prt p).unsup = true → 15 ≤ ms → Answers (.detach p ms) s fun t => (t.prt p).unsup = false ∧ (t.prt p).role = .none)

/-- R413, R439, R453. -/
def Obligations.BrokenTransactions : Prop :=
  ∀ (s : State) (a : Agent), s.mode = .active →
    (Answers (.busError a) s fun t => t.regs = (s.bump Reg.serBusErrs 1).regs
        ∧ t.fab = (s.bump Reg.serBusErrs 1).postFab 430 0 ∧ t.tkr = s.tkr ∧ t.ser.reply = [] ∧ (t.ser.ag.get a).ptr = (s.ser.ag.get a).ptr)
    ∧ (∀ ms, s.flag Reg.serCfg 4 = true → 25 ≤ ms →
      Answers (.busTimeout a ms) s fun t => t.regs = (s.bump Reg.serTimeouts 1).regs ∧ t.fab = (s.bump Reg.serTimeouts 1).postFab 429 0
        ∧ t.ser.reply = [] ∧ (t.ser.ag.get a).ptr = (s.ser.ag.get a).ptr)
    ∧ (s.ser.frame = .notify a → (s.attnSettle.ser.ag.get a).tries < 3 →
      Answers .notifyNack s fun t => (t.ser.ag.get a).want = true ∧ t.ser.backoff = true ∧ t.ser.frame = .none
        ∧ (t.ser.ag.get a).tries = (s.attnSettle.ser.ag.get a).tries + 1)
    ∧ (s.ser.frame = .notify a → 3 ≤ (s.attnSettle.ser.ag.get a).tries →
      Answers .notifyNack s fun t => bit (t.peek a (Reg.serAgtStat a.val)) 7 = true ∧ t.ser.alert = true ∧ t.ser.frame = .none
        ∧ t.fab = s.postFab (424 + a.val) 0)

/-- R466: of any posting, and of the commands that post one. -/
def Obligations.UnroutedPosting : Prop :=
  (∀ (s : State) (x o : Nat), s.mode = .active → absentSource s.part.variant x = false → (s.route x).en = false ∨ (s.route x).mask = 0 →
    s.postFab x o = { s.fab with seq := s.fab.seq + 1, stamp := s.fab.stamp + 1, unrouted := min 65535 (s.fab.unrouted + 1) })
  ∧ (∀ (s : State) (c : Instr) (x : Nat), s.mode = .active →
    (∃ src, c = .eventPost src ∧ x = src.toNat ∧ postable x = true) ∨ (∃ (a : Agent) (d : BitVec 5), c = .evtDoorbell a d ∧ x = d.toNat) →
    absentSource s.part.variant x = false → (s.route x).en = false ∨ (s.route x).mask = 0 →
    Answers c s fun t => t.fab = { s.fab with seq := s.fab.seq + 1, stamp := s.fab.stamp + 1, unrouted := min 65535 (s.fab.unrouted + 1) })

/-- R467: at reset, and from then on whatever command comes. -/
def Obligations.StackFaultRoutes : Prop :=
  (∀ a : Agent, State.reset.route (40 + a.val) = ⟨true, false, 0, true, 15, 2 ^ a.val⟩)
  ∧ (∀ (c : Instr) (s t : State), (∀ a : Agent, s.route (40 + a.val) = ⟨true, false, 0, true, 15, 2 ^ a.val⟩) → exec c s = .next t →
      ∀ a : Agent, t.route (40 + a.val) = ⟨true, false, 0, true, 15, 2 ^ a.val⟩)
  ∧ (∀ (s : State) (a : Agent) (v : Word), exec (.evtRoute (BitVec.ofNat 9 (40 + a.val)) v) s = .next s)

/-- R480. -/
def Obligations.WakeWhileActive : Prop := ∀ (s : State) (us : Nat), s.mode = .active → exec (.wakeNLow us) s = .next s

/-- R496, R497: a pop that belongs to another agent is a denial. -/
def Obligations.PopsOfAnother : Prop :=
  ∀ (s : State) (a : Agent) (k : Byte), s.mode = .active →
    (k.toNat < 8 ∧ k.toNat / 2 ≠ a.val) ∨ (64 ≤ k.toNat ∧ bit (s.fab.ring k.toNat).pop a.val = false) →
    (s.rawSel a = false → s.selRing a = k.toNat →
      Answers (.ringData0Pop a) s fun t => t.flag (Reg.serAgtStat a.val) 4 = true ∧ t.fld (Reg.serAgtStat a.val) 0 4 = 2
        ∧ (t.ser.ag.get a).latch = Eight.all 0 ∧ (s.flag (Reg.serAgtStat a.val) 4 = true → t.fab = s.fab))
    ∧ (∀ (max : Byte) (n : Nat), s.cmdRefused a 6 true = .no → 1 ≤ max.toNat → max.toNat ≤ 15 → 1 ≤ n →
      Answers (.ringPop a ⟨[2, k, max], some n⟩) s fun t => t.flag (Reg.serAgtStat a.val) 4 = true
        ∧ t.fld (Reg.serAgtStat a.val) 0 4 = 2 ∧ t.ser.reply.head? = some 0 ∧ (s.flag (Reg.serAgtStat a.val) 4 = true → t.fab = s.fab))

/-- R537, R546, R644. -/
def Obligations.RequestsAndSessions : Prop :=
  (∀ (c : Instr) (s t : State) (a : Agent), s.tkr.held a ≤ 4 → exec c s = .next t → t.tkr.held a ≤ 4)
  ∧ (∀ (s : State) (a : Agent) (w data : List Byte) (n : Byte), s.mode = .active → s.pecWrong a (0x30 :: w) = false →
      (s.body a (0x30 :: w)).drop 1 = n :: data → n.toNat = data.length → 1 ≤ data.length → s.cmdRefused a 9 true = .no →
      (s.tkr.held a < 4 → Answers (.tkrReq a ⟨w, none⟩) s fun t => t.tkr.queue.get a = s.tkr.queue.get a ++ [⟨s.tkr.reqNo, data⟩])
      ∧ (4 ≤ s.tkr.held a → Answers (.tkrReq a ⟨w, none⟩) s fun t => t.tkr = s.tkr ∧ t.fld (Reg.serAgtStat a.val) 0 4 = 7))
  ∧ (∀ (s : State) (a : Agent) (r : Req), s.mode = .active → s.tkr.run.get a = some r →
      (r.op = 0x30 → s.tkr.session = none → Answers (.tkrOpen a) s fun t => ∃ e, t.tkr.session = some e ∧ e.agent = a)
      ∧ (∀ e, s.tkr.session = some e →
        (r.op = 0x30 → Answers (.tkrOpen a) s fun t => replied s t a r ⟨Rep.busy, 0, 0, []⟩ ∧ t.tkr.session = some e)
        ∧ (e.agent ≠ a → r.op = 0x31 → ∀ v, Answers (.tkrWrite a v) s fun t => replied s t a r ⟨Rep.busy, 0, 0, []⟩ ∧ t.tkr.session = some e)
        ∧ (e.agent ≠ a → r.op = 0x32 → Answers (.tkrClose a) s fun t => replied s t a r ⟨Rep.busy, 0, 0, []⟩ ∧ t.tkr.session = some e)
        ∧ (e.agent ≠ a → r.op = 0x33 → Answers (.tkrAbort a) s fun t => replied s t a r ⟨Rep.busy, 0, 0, []⟩ ∧ t.tkr.session = some e))
      ∧ (r.op = 0x02 → (∀ p ∈ s.tkr.prog, ¬ ((logPart (leNat r.arg)).1 ≤ p ∧ p < (logPart (leNat r.arg)).1 + (logPart (leNat r.arg)).2)) →
        Answers (.tkrInfo a) s fun t => replied s t a r ⟨Rep.ok, 0, 0, [List.replicate 16 0xFF]⟩))

/-- R569, R573, R587. -/
def Obligations.MeasurementRefusals : Prop :=
  ∀ s : State, s.mode = .active →
    (∀ (a : Agent) (v : Word), bit v.toNat 15 = true →
      ((s.tlm.os.get a).busy = true ∨ 28 ≤ bits v.toNat 0 6 →
        Answers (.oneshotGo a v) s fun t => t.tlm = s.tlm ∧ t.fld (Reg.tlmOsStat a.val) 4 4 = 6)
      ∧ ((s.tlm.os.get a).busy = false → absentChannel s.part.variant (bits v.toNat 0 6) = true →
        Answers (.oneshotGo a v) s fun t => t.tlm = s.tlm ∧ t.fld (Reg.tlmOsStat a.val) 4 4 = 1))
    ∧ (∀ e : BitVec 6, s.entryRuns e.toNat = true → s.tlm.flight.any (·.1 == e.toNat) = true →
      Answers (.telemetryDue e) s fun t => t.tlm.flight = s.tlm.flight ∧ t.reg Reg.tlmLateCnt = min 65535 (s.reg Reg.tlmLateCnt + 1)
        ∧ t.flag Reg.bgLate 0 = true ∧ t.tlm.lateRecent = true)
    ∧ (∀ p : Fin 8, s.noPoint p = false → bit s.cal.stale.toNat p.val = false →
      60 * s.reg Reg.calOfsMax < s.reg (Reg.calOfsAgeS + p.val) →
      Answers (.offsetStale p) s fun t => bit t.cal.stale.toNat p.val = true ∧ t.fab = s.postFab 473 0 ∧ t.flag Reg.bgLate 1 = true)
end

