-- ==== Sys2Proof/Laws/Memory.lean ====
section
/-! SUPPORT. The laws of the sparse tables and of the addressed memories: reading after writing, and the canonical form,
which every write keeps. -/

namespace Sys2Proof.Machine

variable {α : Type}

/-! Reading after writing. -/

theorem SMap.get_place_same (d : Nat → α) {m : SMap α} {k : Nat} (v : α) (h : ∀ e ∈ m, e.1 ≠ k) :
    SMap.get d (SMap.place m k v) k = v := by
  induction m with
  | nil => simp [SMap.place, SMap.get]
  | cons e m ih =>
    obtain ⟨j, w⟩ := e
    have hj : k ≠ j := fun hk => h (j, w) (by simp) hk.symm
    unfold SMap.place
    split
    · simp [SMap.get]
    · simp only [SMap.get, hj, if_false]
      exact ih fun e he => h e (by simp [he])

theorem SMap.get_place_ne (d : Nat → α) (m : SMap α) {k i : Nat} (v : α) (h : i ≠ k) :
    SMap.get d (SMap.place m k v) i = SMap.get d m i := by
  induction m with
  | nil => simp [SMap.place, SMap.get, h]
  | cons e m ih =>
    obtain ⟨j, w⟩ := e
    unfold SMap.place
    split <;> simp [SMap.get, h, ih]

theorem SMap.get_filter_same (d : Nat → α) (m : SMap α) (k : Nat) : SMap.get d (m.filter (·.1 != k)) k = d k := by
  induction m with
  | nil => rfl
  | cons e m ih =>
    obtain ⟨j, w⟩ := e
    by_cases hj : j = k
    · simpa [List.filter_cons, hj] using ih
    · have hk : k ≠ j := fun h => hj h.symm
      simpa [List.filter_cons, hj, SMap.get, hk] using ih

theorem SMap.get_filter_ne (d : Nat → α) (m : SMap α) {k i : Nat} (h : i ≠ k) :
    SMap.get d (m.filter (·.1 != k)) i = SMap.get d m i := by
  induction m with
  | nil => rfl
  | cons e m ih =>
    obtain ⟨j, w⟩ := e
    by_cases hj : j = k
    · have hi : i ≠ j := fun hij => h (hij.trans hj)
      simp only [List.filter_cons, hj, bne_self_eq_false, Bool.false_eq_true, if_false, SMap.get, ih]
      simp [h]
    · have hb : (j != k) = true := by simpa using hj
      simp only [List.filter_cons, hb, if_true, SMap.get, ih]

variable [DecidableEq α] (d : Nat → α)

/-- The written key reads what was written. -/
@[simp] theorem SMap.get_set_same (m : SMap α) (k : Nat) (v : α) : SMap.get d (SMap.set d m k v) k = v := by
  unfold SMap.set
  split
  · rename_i hv
    rw [SMap.get_filter_same, hv]
  · exact SMap.get_place_same d v (by simp)

/-- Every other key reads as before. -/
theorem SMap.get_set_ne (m : SMap α) {k i : Nat} (v : α) (h : i ≠ k) : SMap.get d (SMap.set d m k v) i = SMap.get d m i := by
  unfold SMap.set
  split
  · exact SMap.get_filter_ne d m h
  · rw [SMap.get_place_ne d _ v h, SMap.get_filter_ne d m h]

/-! The canonical form. -/

theorem SMap.wfFrom_weaken {m : SMap α} {lo : Option Nat} {k : Nat} (h : SMap.wfFrom d (some k) m = true)
    (hlo : ∀ l, lo = some l → l < k) : SMap.wfFrom d lo m = true := by
  cases m with
  | nil => rfl
  | cons e m =>
    obtain ⟨i, u⟩ := e
    simp only [SMap.wfFrom, Bool.and_eq_true, decide_eq_true_eq] at h ⊢
    refine ⟨⟨?_, h.1.2⟩, h.2⟩
    cases lo with
    | none => rfl
    | some l => have h1 := hlo l rfl; have h2 := h.1.1; simp only [decide_eq_true_eq]; omega

/-- Entries may leave a canonical table. -/
theorem SMap.wfFrom_filter {m : SMap α} {lo : Option Nat} (p : Nat × α → Bool) (h : SMap.wfFrom d lo m = true) :
    SMap.wfFrom d lo (m.filter p) = true := by
  induction m generalizing lo with
  | nil => rfl
  | cons e m ih =>
    obtain ⟨j, w⟩ := e
    simp only [SMap.wfFrom, Bool.and_eq_true, decide_eq_true_eq] at h
    rw [List.filter_cons]
    split
    · simp only [SMap.wfFrom, Bool.and_eq_true, decide_eq_true_eq]
      exact ⟨h.1, ih h.2⟩
    · refine SMap.wfFrom_weaken d (ih h.2) fun l hl => ?_
      subst hl
      simpa using h.1.1

theorem SMap.wfFrom_place {m : SMap α} {lo : Option Nat} {k : Nat} {v : α} (h : SMap.wfFrom d lo m = true) (hv : v ≠ d k)
    (hk : ∀ e ∈ m, e.1 ≠ k) (hlo : ∀ l, lo = some l → l < k) : SMap.wfFrom d lo (SMap.place m k v) = true := by
  induction m generalizing lo with
  | nil => cases lo <;> simp_all [SMap.place, SMap.wfFrom]
  | cons e m ih =>
    obtain ⟨j, w⟩ := e
    simp only [SMap.wfFrom, Bool.and_eq_true, decide_eq_true_eq] at h
    have hj : j ≠ k := hk (j, w) (by simp)
    unfold SMap.place
    split
    · rename_i hlt
      simp only [SMap.wfFrom, Bool.and_eq_true, decide_eq_true_eq]
      refine ⟨⟨?_, hv⟩, ⟨hlt, h.1.2⟩, h.2⟩
      cases lo with
      | none => rfl
      | some l => simpa using hlo l rfl
    · rename_i hge
      have hl : j < k := by omega
      simp only [SMap.wfFrom, Bool.and_eq_true, decide_eq_true_eq]
      refine ⟨h.1, ih h.2 (fun e he => hk e (by simp [he])) fun l hl' => ?_⟩
      cases hl'; exact hl

/-- A write keeps the canonical form. -/
theorem SMap.wf_set {m : SMap α} (k : Nat) (v : α) (h : SMap.wf d m = true) : SMap.wf d (SMap.set d m k v) = true := by
  unfold SMap.set
  split
  · exact SMap.wfFrom_filter d _ h
  · rename_i hv
    exact SMap.wfFrom_place d (SMap.wfFrom_filter d _ h) hv (by simp) (by simp)

theorem SMap.wf_filter {m : SMap α} (p : Nat × α → Bool) (h : SMap.wf d m = true) : SMap.wf d (m.filter p) = true :=
  SMap.wfFrom_filter d p h

/-- The empty table is canonical. -/
@[simp] theorem SMap.wf_nil : SMap.wf d ([] : SMap α) = true := rfl

/-! Byte strings. -/

/-- A byte string written keeps the canonical form. -/
theorem Memory.wf_write (d : Nat → Byte) {m : SMap Byte} (a : Nat) (bs : List Byte) (h : Memory.wf d m = true) :
    Memory.wf d (Memory.write d m a bs) = true := by
  induction bs generalizing m a with
  | nil => exact h
  | cons b bs ih => exact ih _ (SMap.wf_set d a b h)

/-- Bytes that go away leave a canonical memory. -/
theorem Memory.wf_filter (d : Nat → Byte) {m : SMap Byte} (p : Nat × Byte → Bool) (h : Memory.wf d m = true) :
    Memory.wf d (m.filter p) = true := SMap.wfFrom_filter d p h

/-- Bytes outside the written string read as before. -/
theorem Memory.get_write_outside (d : Nat → Byte) (m : SMap Byte) {a i : Nat} {bs : List Byte} (h : i < a ∨ a + bs.length ≤ i) :
    SMap.get d (Memory.write d m a bs) i = SMap.get d m i := by
  induction bs generalizing m a with
  | nil => rfl
  | cons b bs ih =>
    simp only [List.length_cons] at h
    rw [Memory.write, ih _ (by omega), SMap.get_set_ne d m b (by omega)]

/-- Bytes inside the written string read what was written. -/
theorem Memory.get_write_inside (d : Nat → Byte) (m : SMap Byte) {a i : Nat} {bs : List Byte} (h : i < bs.length) :
    SMap.get d (Memory.write d m a bs) (a + i) = bs[i] := by
  induction bs generalizing m a i with
  | nil => simp at h
  | cons b bs ih =>
    rw [Memory.write]
    cases i with
    | zero =>
      rw [Memory.get_write_outside d _ (by omega)]
      simp
    | succ n =>
      have := ih (SMap.set d m a b) (a := a + 1) (i := n) (by simpa using h)
      simpa [Nat.add_comm, Nat.add_left_comm, Nat.add_assoc] using this

/-! Registers. -/

/-- A register written reads the low 16 bits of what was written. -/
@[simp] theorem State.reg_setReg_same (s : State) (i v : Nat) : (s.setReg i v).reg i = v % 65536 := by
  simp [State.reg, State.setReg]

/-- Every other register reads as before. -/
theorem State.reg_setReg_ne (s : State) {i j : Nat} (v : Nat) (h : j ≠ i) : (s.setReg i v).reg j = s.reg j := by
  simp [State.reg, State.setReg, SMap.get_set_ne _ _ _ h]

/-- A field written leaves every other register. -/
theorem State.reg_setFld_ne (s : State) {i j : Nat} (lsb w v : Nat) (h : j ≠ i) : (s.setFld i lsb w v).reg j = s.reg j :=
  State.reg_setReg_ne s _ h

theorem State.reg_setFlag_ne (s : State) {i j : Nat} (b : Nat) (v : Bool) (h : j ≠ i) : (s.setFlag i b v).reg j = s.reg j :=
  State.reg_setReg_ne s _ h

theorem State.reg_setReg32_ne (s : State) {i j : Nat} (v : Nat) (h : j ≠ i) (h1 : j ≠ i + 1) : (s.setReg32 i v).reg j = s.reg j := by
  simp [State.setReg32, State.reg_setReg_ne _ _ h, State.reg_setReg_ne _ _ h1]

/-- Registers are read through the part, the straps and the table alone. -/
theorem State.reg_congr {s t : State} (hp : t.part = s.part) (hs : t.straps = s.straps) (hr : t.regs = s.regs) (i : Nat) :
    t.reg i = s.reg i := by simp [State.reg, hp, hs, hr]

/-- A register write keeps the table canonical. -/
theorem State.wf_setReg (s : State) (i v : Nat) (h : SMap.wf (resetWord s.part s.straps) s.regs = true) :
    SMap.wf (resetWord s.part s.straps) (s.setReg i v).regs = true := SMap.wf_set _ i _ h

end Sys2Proof.Machine
end

