-- ==== Sys2Proof/Laws/Keeps.lean ====
section
/-! SUPPORT. What each shared operation leaves alone: one lemma per operation, over the fields of State it never touches.
As rewriting rules they carry a read of a field past the operation. -/

namespace Sys2Proof.Machine

/-- What no round of a loop touches, the loop leaves alone. -/
theorem foldl_keep {β γ : Type} (p : State → γ) (f : State → β → State) (h : ∀ t b, p (f t b) = p t) (l : List β) (s : State) : p (l.foldl f s) = p s := by induction l generalizing s with | nil => rfl | cons b bs ih => rw [List.foldl_cons, ih, h]
@[simp] theorem State.when_part (s : State) (c : Bool) (f : State → State) : (s.when c f).part = if c then (f s).part else s.part := by cases c <;> rfl
@[simp] theorem State.when_straps (s : State) (c : Bool) (f : State → State) : (s.when c f).straps = if c then (f s).straps else s.straps := by cases c <;> rfl
@[simp] theorem State.when_mode (s : State) (c : Bool) (f : State → State) : (s.when c f).mode = if c then (f s).mode else s.mode := by cases c <;> rfl
@[simp] theorem State.when_life (s : State) (c : Bool) (f : State → State) : (s.when c f).life = if c then (f s).life else s.life := by cases c <;> rfl
@[simp] theorem State.when_regs (s : State) (c : Bool) (f : State → State) : (s.when c f).regs = if c then (f s).regs else s.regs := by cases c <;> rfl
@[simp] theorem State.when_pp (s : State) (c : Bool) (f : State → State) : (s.when c f).pp = if c then (f s).pp else s.pp := by cases c <;> rfl
@[simp] theorem State.when_cnv (s : State) (c : Bool) (f : State → State) : (s.when c f).cnv = if c then (f s).cnv else s.cnv := by cases c <;> rfl
@[simp] theorem State.when_chg (s : State) (c : Bool) (f : State → State) : (s.when c f).chg = if c then (f s).chg else s.chg := by cases c <;> rfl
@[simp] theorem State.when_emg (s : State) (c : Bool) (f : State → State) : (s.when c f).emg = if c then (f s).emg else s.emg := by cases c <;> rfl
@[simp] theorem State.when_seq (s : State) (c : Bool) (f : State → State) : (s.when c f).seq = if c then (f s).seq else s.seq := by cases c <;> rfl
@[simp] theorem State.when_pdp (s : State) (c : Bool) (f : State → State) : (s.when c f).pdp = if c then (f s).pdp else s.pdp := by cases c <;> rfl
@[simp] theorem State.when_lnk (s : State) (c : Bool) (f : State → State) : (s.when c f).lnk = if c then (f s).lnk else s.lnk := by cases c <;> rfl
@[simp] theorem State.when_ser (s : State) (c : Bool) (f : State → State) : (s.when c f).ser = if c then (f s).ser else s.ser := by cases c <;> rfl
@[simp] theorem State.when_fab (s : State) (c : Bool) (f : State → State) : (s.when c f).fab = if c then (f s).fab else s.fab := by cases c <;> rfl
@[simp] theorem State.when_chk (s : State) (c : Bool) (f : State → State) : (s.when c f).chk = if c then (f s).chk else s.chk := by cases c <;> rfl
@[simp] theorem State.when_tkr (s : State) (c : Bool) (f : State → State) : (s.when c f).tkr = if c then (f s).tkr else s.tkr := by cases c <;> rfl
@[simp] theorem State.when_tlm (s : State) (c : Bool) (f : State → State) : (s.when c f).tlm = if c then (f s).tlm else s.tlm := by cases c <;> rfl
@[simp] theorem State.when_cal (s : State) (c : Bool) (f : State → State) : (s.when c f).cal = if c then (f s).cal else s.cal := by cases c <;> rfl
@[simp] theorem State.when_arb (s : State) (c : Bool) (f : State → State) : (s.when c f).arb = if c then (f s).arb else s.arb := by cases c <;> rfl
@[simp] theorem State.when_free (s : State) (c : Bool) (f : State → State) : (s.when c f).free = if c then (f s).free else s.free := by cases c <;> rfl
@[simp] theorem State.when_pending (s : State) (c : Bool) (f : State → State) : (s.when c f).pending = if c then (f s).pending else s.pending := by cases c <;> rfl
@[simp] theorem State.setReg_keeps (s : State) (i : Nat) (v : Nat) : (State.setReg s i v).part = s.part ∧
    (State.setReg s i v).straps = s.straps ∧ (State.setReg s i v).mode = s.mode ∧ (State.setReg s i v).life = s.life ∧
    (State.setReg s i v).pp = s.pp ∧ (State.setReg s i v).cnv = s.cnv ∧ (State.setReg s i v).chg = s.chg ∧
    (State.setReg s i v).emg = s.emg ∧ (State.setReg s i v).seq = s.seq ∧ (State.setReg s i v).pdp = s.pdp ∧
    (State.setReg s i v).lnk = s.lnk ∧ (State.setReg s i v).ser = s.ser ∧ (State.setReg s i v).fab = s.fab ∧
    (State.setReg s i v).chk = s.chk ∧ (State.setReg s i v).tkr = s.tkr ∧ (State.setReg s i v).tlm = s.tlm ∧
    (State.setReg s i v).cal = s.cal ∧ (State.setReg s i v).arb = s.arb ∧ (State.setReg s i v).free = s.free ∧
    (State.setReg s i v).pending = s.pending := by simp [State.setReg]
@[simp] theorem State.setFld_keeps (s : State) (i : Nat) (lsb : Nat) (w : Nat) (v : Nat) :
    (State.setFld s i lsb w v).part = s.part ∧ (State.setFld s i lsb w v).straps = s.straps ∧
    (State.setFld s i lsb w v).mode = s.mode ∧ (State.setFld s i lsb w v).life = s.life ∧ (State.setFld s i lsb w v).pp = s.pp ∧
    (State.setFld s i lsb w v).cnv = s.cnv ∧ (State.setFld s i lsb w v).chg = s.chg ∧ (State.setFld s i lsb w v).emg = s.emg ∧
    (State.setFld s i lsb w v).seq = s.seq ∧ (State.setFld s i lsb w v).pdp = s.pdp ∧ (State.setFld s i lsb w v).lnk = s.lnk ∧
    (State.setFld s i lsb w v).ser = s.ser ∧ (State.setFld s i lsb w v).fab = s.fab ∧ (State.setFld s i lsb w v).chk = s.chk ∧
    (State.setFld s i lsb w v).tkr = s.tkr ∧ (State.setFld s i lsb w v).tlm = s.tlm ∧ (State.setFld s i lsb w v).cal = s.cal ∧
    (State.setFld s i lsb w v).arb = s.arb ∧ (State.setFld s i lsb w v).free = s.free ∧
    (State.setFld s i lsb w v).pending = s.pending := by simp [State.setFld]
@[simp] theorem State.setFlag_keeps (s : State) (i : Nat) (b : Nat) (v : Bool) : (State.setFlag s i b v).part = s.part ∧
    (State.setFlag s i b v).straps = s.straps ∧ (State.setFlag s i b v).mode = s.mode ∧ (State.setFlag s i b v).life = s.life ∧
    (State.setFlag s i b v).pp = s.pp ∧ (State.setFlag s i b v).cnv = s.cnv ∧ (State.setFlag s i b v).chg = s.chg ∧
    (State.setFlag s i b v).emg = s.emg ∧ (State.setFlag s i b v).seq = s.seq ∧ (State.setFlag s i b v).pdp = s.pdp ∧
    (State.setFlag s i b v).lnk = s.lnk ∧ (State.setFlag s i b v).ser = s.ser ∧ (State.setFlag s i b v).fab = s.fab ∧
    (State.setFlag s i b v).chk = s.chk ∧ (State.setFlag s i b v).tkr = s.tkr ∧ (State.setFlag s i b v).tlm = s.tlm ∧
    (State.setFlag s i b v).cal = s.cal ∧ (State.setFlag s i b v).arb = s.arb ∧ (State.setFlag s i b v).free = s.free ∧
    (State.setFlag s i b v).pending = s.pending := by simp [State.setFlag]
@[simp] theorem State.setReg32_keeps (s : State) (i : Nat) (v : Nat) : (State.setReg32 s i v).part = s.part ∧
    (State.setReg32 s i v).straps = s.straps ∧ (State.setReg32 s i v).mode = s.mode ∧ (State.setReg32 s i v).life = s.life ∧
    (State.setReg32 s i v).pp = s.pp ∧ (State.setReg32 s i v).cnv = s.cnv ∧ (State.setReg32 s i v).chg = s.chg ∧
    (State.setReg32 s i v).emg = s.emg ∧ (State.setReg32 s i v).seq = s.seq ∧ (State.setReg32 s i v).pdp = s.pdp ∧
    (State.setReg32 s i v).lnk = s.lnk ∧ (State.setReg32 s i v).ser = s.ser ∧ (State.setReg32 s i v).fab = s.fab ∧
    (State.setReg32 s i v).chk = s.chk ∧ (State.setReg32 s i v).tkr = s.tkr ∧ (State.setReg32 s i v).tlm = s.tlm ∧
    (State.setReg32 s i v).cal = s.cal ∧ (State.setReg32 s i v).arb = s.arb ∧ (State.setReg32 s i v).free = s.free ∧
    (State.setReg32 s i v).pending = s.pending := by simp [State.setReg32]
@[simp] theorem State.bump_keeps (s : State) (i : Nat) (n : Nat) : (State.bump s i n).part = s.part ∧
    (State.bump s i n).straps = s.straps ∧ (State.bump s i n).mode = s.mode ∧ (State.bump s i n).life = s.life ∧
    (State.bump s i n).pp = s.pp ∧ (State.bump s i n).cnv = s.cnv ∧ (State.bump s i n).chg = s.chg ∧
    (State.bump s i n).emg = s.emg ∧ (State.bump s i n).seq = s.seq ∧ (State.bump s i n).pdp = s.pdp ∧
    (State.bump s i n).lnk = s.lnk ∧ (State.bump s i n).ser = s.ser ∧ (State.bump s i n).fab = s.fab ∧
    (State.bump s i n).chk = s.chk ∧ (State.bump s i n).tkr = s.tkr ∧ (State.bump s i n).tlm = s.tlm ∧
    (State.bump s i n).cal = s.cal ∧ (State.bump s i n).arb = s.arb ∧ (State.bump s i n).free = s.free ∧
    (State.bump s i n).pending = s.pending := by simp [State.bump]
@[simp] theorem State.bump8_keeps (s : State) (i : Nat) : (State.bump8 s i).part = s.part ∧ (State.bump8 s i).straps = s.straps ∧
    (State.bump8 s i).mode = s.mode ∧ (State.bump8 s i).life = s.life ∧ (State.bump8 s i).pp = s.pp ∧
    (State.bump8 s i).cnv = s.cnv ∧ (State.bump8 s i).chg = s.chg ∧ (State.bump8 s i).emg = s.emg ∧ (State.bump8 s i).seq = s.seq ∧
    (State.bump8 s i).pdp = s.pdp ∧ (State.bump8 s i).lnk = s.lnk ∧ (State.bump8 s i).ser = s.ser ∧ (State.bump8 s i).fab = s.fab ∧
    (State.bump8 s i).chk = s.chk ∧ (State.bump8 s i).tkr = s.tkr ∧ (State.bump8 s i).tlm = s.tlm ∧ (State.bump8 s i).cal = s.cal ∧
    (State.bump8 s i).arb = s.arb ∧ (State.bump8 s i).free = s.free ∧ (State.bump8 s i).pending = s.pending := by simp [State.bump8]
@[simp] theorem State.seeVbat_keeps (s : State) (mv : Nat) : (State.seeVbat s mv).part = s.part ∧
    (State.seeVbat s mv).straps = s.straps ∧ (State.seeVbat s mv).mode = s.mode ∧ (State.seeVbat s mv).life = s.life ∧
    (State.seeVbat s mv).regs = s.regs ∧ (State.seeVbat s mv).cnv = s.cnv ∧ (State.seeVbat s mv).chg = s.chg ∧
    (State.seeVbat s mv).emg = s.emg ∧ (State.seeVbat s mv).seq = s.seq ∧ (State.seeVbat s mv).pdp = s.pdp ∧
    (State.seeVbat s mv).lnk = s.lnk ∧ (State.seeVbat s mv).ser = s.ser ∧ (State.seeVbat s mv).fab = s.fab ∧
    (State.seeVbat s mv).chk = s.chk ∧ (State.seeVbat s mv).tkr = s.tkr ∧ (State.seeVbat s mv).tlm = s.tlm ∧
    (State.seeVbat s mv).cal = s.cal ∧ (State.seeVbat s mv).arb = s.arb ∧ (State.seeVbat s mv).free = s.free ∧
    (State.seeVbat s mv).pending = s.pending := by simp [State.seeVbat]
@[simp] theorem State.nextFree_keeps (s : State) : (State.nextFree s).part = s.part ∧ (State.nextFree s).straps = s.straps ∧
    (State.nextFree s).mode = s.mode ∧ (State.nextFree s).life = s.life ∧ (State.nextFree s).regs = s.regs ∧
    (State.nextFree s).pp = s.pp ∧ (State.nextFree s).cnv = s.cnv ∧ (State.nextFree s).chg = s.chg ∧
    (State.nextFree s).emg = s.emg ∧ (State.nextFree s).seq = s.seq ∧ (State.nextFree s).pdp = s.pdp ∧
    (State.nextFree s).lnk = s.lnk ∧ (State.nextFree s).ser = s.ser ∧ (State.nextFree s).fab = s.fab ∧
    (State.nextFree s).chk = s.chk ∧ (State.nextFree s).tkr = s.tkr ∧ (State.nextFree s).tlm = s.tlm ∧
    (State.nextFree s).cal = s.cal ∧ (State.nextFree s).arb = s.arb ∧ (State.nextFree s).pending = s.pending := by simp [State.nextFree]
@[simp] theorem State.postAs_keeps (s : State) (x : Nat) (origin : Nat) : (State.postAs s x origin).part = s.part ∧
    (State.postAs s x origin).straps = s.straps ∧ (State.postAs s x origin).mode = s.mode ∧
    (State.postAs s x origin).life = s.life ∧ (State.postAs s x origin).regs = s.regs ∧ (State.postAs s x origin).pp = s.pp ∧
    (State.postAs s x origin).cnv = s.cnv ∧ (State.postAs s x origin).chg = s.chg ∧ (State.postAs s x origin).emg = s.emg ∧
    (State.postAs s x origin).seq = s.seq ∧ (State.postAs s x origin).pdp = s.pdp ∧ (State.postAs s x origin).lnk = s.lnk ∧
    (State.postAs s x origin).ser = s.ser ∧ (State.postAs s x origin).chk = s.chk ∧ (State.postAs s x origin).tkr = s.tkr ∧
    (State.postAs s x origin).tlm = s.tlm ∧ (State.postAs s x origin).cal = s.cal ∧ (State.postAs s x origin).arb = s.arb ∧
    (State.postAs s x origin).free = s.free ∧ (State.postAs s x origin).pending = s.pending := by simp [State.postAs]
@[simp] theorem State.post_keeps (s : State) (x : Nat) : (State.post s x).part = s.part ∧ (State.post s x).straps = s.straps ∧
    (State.post s x).mode = s.mode ∧ (State.post s x).life = s.life ∧ (State.post s x).regs = s.regs ∧ (State.post s x).pp = s.pp ∧
    (State.post s x).cnv = s.cnv ∧ (State.post s x).chg = s.chg ∧ (State.post s x).emg = s.emg ∧ (State.post s x).seq = s.seq ∧
    (State.post s x).pdp = s.pdp ∧ (State.post s x).lnk = s.lnk ∧ (State.post s x).ser = s.ser ∧ (State.post s x).chk = s.chk ∧
    (State.post s x).tkr = s.tkr ∧ (State.post s x).tlm = s.tlm ∧ (State.post s x).cal = s.cal ∧ (State.post s x).arb = s.arb ∧
    (State.post s x).free = s.free ∧ (State.post s x).pending = s.pending := by simp [State.post]
@[simp] theorem State.postIf_keeps (s : State) (c : Bool) (x : Nat) : (State.postIf s c x).part = s.part ∧
    (State.postIf s c x).straps = s.straps ∧ (State.postIf s c x).mode = s.mode ∧ (State.postIf s c x).life = s.life ∧
    (State.postIf s c x).regs = s.regs ∧ (State.postIf s c x).pp = s.pp ∧ (State.postIf s c x).cnv = s.cnv ∧
    (State.postIf s c x).chg = s.chg ∧ (State.postIf s c x).emg = s.emg ∧ (State.postIf s c x).seq = s.seq ∧
    (State.postIf s c x).pdp = s.pdp ∧ (State.postIf s c x).lnk = s.lnk ∧ (State.postIf s c x).ser = s.ser ∧
    (State.postIf s c x).chk = s.chk ∧ (State.postIf s c x).tkr = s.tkr ∧ (State.postIf s c x).tlm = s.tlm ∧
    (State.postIf s c x).cal = s.cal ∧ (State.postIf s c x).arb = s.arb ∧ (State.postIf s c x).free = s.free ∧
    (State.postIf s c x).pending = s.pending := by simp [State.postIf]
@[simp] theorem State.posts_keeps (s : State) (x1 : List Nat) : (State.posts s x1).part = s.part ∧
    (State.posts s x1).straps = s.straps ∧ (State.posts s x1).mode = s.mode ∧ (State.posts s x1).life = s.life ∧
    (State.posts s x1).regs = s.regs ∧ (State.posts s x1).pp = s.pp ∧ (State.posts s x1).cnv = s.cnv ∧
    (State.posts s x1).chg = s.chg ∧ (State.posts s x1).emg = s.emg ∧ (State.posts s x1).seq = s.seq ∧
    (State.posts s x1).pdp = s.pdp ∧ (State.posts s x1).lnk = s.lnk ∧ (State.posts s x1).ser = s.ser ∧
    (State.posts s x1).chk = s.chk ∧ (State.posts s x1).tkr = s.tkr ∧ (State.posts s x1).tlm = s.tlm ∧
    (State.posts s x1).cal = s.cal ∧ (State.posts s x1).arb = s.arb ∧ (State.posts s x1).free = s.free ∧
    (State.posts s x1).pending = s.pending := by
  induction x1 generalizing s  with
  | nil => simp [State.posts]
  | cons y ys ih => simp [State.posts, ih]
@[simp] theorem State.postGroup_keeps (s : State) (xs : List Nat) : (State.postGroup s xs).part = s.part ∧
    (State.postGroup s xs).straps = s.straps ∧ (State.postGroup s xs).mode = s.mode ∧ (State.postGroup s xs).life = s.life ∧
    (State.postGroup s xs).regs = s.regs ∧ (State.postGroup s xs).pp = s.pp ∧ (State.postGroup s xs).cnv = s.cnv ∧
    (State.postGroup s xs).chg = s.chg ∧ (State.postGroup s xs).emg = s.emg ∧ (State.postGroup s xs).seq = s.seq ∧
    (State.postGroup s xs).pdp = s.pdp ∧ (State.postGroup s xs).lnk = s.lnk ∧ (State.postGroup s xs).ser = s.ser ∧
    (State.postGroup s xs).chk = s.chk ∧ (State.postGroup s xs).tkr = s.tkr ∧ (State.postGroup s xs).tlm = s.tlm ∧
    (State.postGroup s xs).cal = s.cal ∧ (State.postGroup s xs).arb = s.arb ∧ (State.postGroup s xs).free = s.free ∧
    (State.postGroup s xs).pending = s.pending := by simp [State.postGroup]
@[simp] theorem State.withFab_keeps (s : State) (r : Fabric × List Nat) : (State.withFab s r).part = s.part ∧
    (State.withFab s r).straps = s.straps ∧ (State.withFab s r).mode = s.mode ∧ (State.withFab s r).life = s.life ∧
    (State.withFab s r).regs = s.regs ∧ (State.withFab s r).pp = s.pp ∧ (State.withFab s r).cnv = s.cnv ∧
    (State.withFab s r).chg = s.chg ∧ (State.withFab s r).emg = s.emg ∧ (State.withFab s r).seq = s.seq ∧
    (State.withFab s r).pdp = s.pdp ∧ (State.withFab s r).lnk = s.lnk ∧ (State.withFab s r).ser = s.ser ∧
    (State.withFab s r).chk = s.chk ∧ (State.withFab s r).tkr = s.tkr ∧ (State.withFab s r).tlm = s.tlm ∧
    (State.withFab s r).cal = s.cal ∧ (State.withFab s r).arb = s.arb ∧ (State.withFab s r).free = s.free ∧
    (State.withFab s r).pending = s.pending := by simp [State.withFab]
@[simp] theorem State.ringWrite_keeps (s : State) (k : Nat) (es : List (List Byte)) : (State.ringWrite s k es).part = s.part ∧
    (State.ringWrite s k es).straps = s.straps ∧ (State.ringWrite s k es).mode = s.mode ∧ (State.ringWrite s k es).life = s.life ∧
    (State.ringWrite s k es).regs = s.regs ∧ (State.ringWrite s k es).pp = s.pp ∧ (State.ringWrite s k es).cnv = s.cnv ∧
    (State.ringWrite s k es).chg = s.chg ∧ (State.ringWrite s k es).emg = s.emg ∧ (State.ringWrite s k es).seq = s.seq ∧
    (State.ringWrite s k es).pdp = s.pdp ∧ (State.ringWrite s k es).lnk = s.lnk ∧ (State.ringWrite s k es).ser = s.ser ∧
    (State.ringWrite s k es).chk = s.chk ∧ (State.ringWrite s k es).tkr = s.tkr ∧ (State.ringWrite s k es).tlm = s.tlm ∧
    (State.ringWrite s k es).cal = s.cal ∧ (State.ringWrite s k es).arb = s.arb ∧ (State.ringWrite s k es).free = s.free ∧
    (State.ringWrite s k es).pending = s.pending := by unfold State.ringWrite; split <;> simp
@[simp] theorem State.claimBy_keeps (s : State) (a : Agent) : (State.claimBy s a).part = s.part ∧
    (State.claimBy s a).straps = s.straps ∧ (State.claimBy s a).mode = s.mode ∧ (State.claimBy s a).life = s.life ∧
    (State.claimBy s a).regs = s.regs ∧ (State.claimBy s a).pp = s.pp ∧ (State.claimBy s a).cnv = s.cnv ∧
    (State.claimBy s a).chg = s.chg ∧ (State.claimBy s a).emg = s.emg ∧ (State.claimBy s a).seq = s.seq ∧
    (State.claimBy s a).pdp = s.pdp ∧ (State.claimBy s a).lnk = s.lnk ∧ (State.claimBy s a).ser = s.ser ∧
    (State.claimBy s a).chk = s.chk ∧ (State.claimBy s a).tkr = s.tkr ∧ (State.claimBy s a).tlm = s.tlm ∧
    (State.claimBy s a).cal = s.cal ∧ (State.claimBy s a).arb = s.arb ∧ (State.claimBy s a).free = s.free ∧
    (State.claimBy s a).pending = s.pending := by simp [State.claimBy]
@[simp] theorem State.stackFault_keeps (s : State) (a : Agent) (st : List Entry) : (State.stackFault s a st).part = s.part ∧
    (State.stackFault s a st).straps = s.straps ∧ (State.stackFault s a st).mode = s.mode ∧
    (State.stackFault s a st).life = s.life ∧ (State.stackFault s a st).regs = s.regs ∧ (State.stackFault s a st).pp = s.pp ∧
    (State.stackFault s a st).cnv = s.cnv ∧ (State.stackFault s a st).chg = s.chg ∧ (State.stackFault s a st).emg = s.emg ∧
    (State.stackFault s a st).seq = s.seq ∧ (State.stackFault s a st).pdp = s.pdp ∧ (State.stackFault s a st).lnk = s.lnk ∧
    (State.stackFault s a st).ser = s.ser ∧ (State.stackFault s a st).chk = s.chk ∧ (State.stackFault s a st).tkr = s.tkr ∧
    (State.stackFault s a st).tlm = s.tlm ∧ (State.stackFault s a st).cal = s.cal ∧ (State.stackFault s a st).arb = s.arb ∧
    (State.stackFault s a st).free = s.free ∧ (State.stackFault s a st).pending = s.pending := by simp [State.stackFault]
@[simp] theorem State.completeBy_keeps (s : State) (a : Agent) (x : Nat) : (State.completeBy s a x).part = s.part ∧
    (State.completeBy s a x).straps = s.straps ∧ (State.completeBy s a x).mode = s.mode ∧ (State.completeBy s a x).life = s.life ∧
    (State.completeBy s a x).regs = s.regs ∧ (State.completeBy s a x).pp = s.pp ∧ (State.completeBy s a x).cnv = s.cnv ∧
    (State.completeBy s a x).chg = s.chg ∧ (State.completeBy s a x).emg = s.emg ∧ (State.completeBy s a x).seq = s.seq ∧
    (State.completeBy s a x).pdp = s.pdp ∧ (State.completeBy s a x).lnk = s.lnk ∧ (State.completeBy s a x).ser = s.ser ∧
    (State.completeBy s a x).chk = s.chk ∧ (State.completeBy s a x).tkr = s.tkr ∧ (State.completeBy s a x).tlm = s.tlm ∧
    (State.completeBy s a x).cal = s.cal ∧ (State.completeBy s a x).arb = s.arb ∧ (State.completeBy s a x).free = s.free ∧
    (State.completeBy s a x).pending = s.pending := by unfold State.completeBy; (repeat' split) <;> simp
@[simp] theorem State.rebind_keeps (s : State) (a : Agent) : (State.rebind s a).part = s.part ∧
    (State.rebind s a).straps = s.straps ∧ (State.rebind s a).mode = s.mode ∧ (State.rebind s a).life = s.life ∧
    (State.rebind s a).regs = s.regs ∧ (State.rebind s a).pp = s.pp ∧ (State.rebind s a).cnv = s.cnv ∧
    (State.rebind s a).chg = s.chg ∧ (State.rebind s a).emg = s.emg ∧ (State.rebind s a).seq = s.seq ∧
    (State.rebind s a).pdp = s.pdp ∧ (State.rebind s a).lnk = s.lnk ∧ (State.rebind s a).ser = s.ser ∧
    (State.rebind s a).chk = s.chk ∧ (State.rebind s a).tkr = s.tkr ∧ (State.rebind s a).tlm = s.tlm ∧
    (State.rebind s a).cal = s.cal ∧ (State.rebind s a).arb = s.arb ∧ (State.rebind s a).free = s.free ∧
    (State.rebind s a).pending = s.pending := by simp [State.rebind]
@[simp] theorem State.journalAs_keeps (s : State) (typ : Nat) (origin : Nat) (data : List Byte) :
    (State.journalAs s typ origin data).part = s.part ∧ (State.journalAs s typ origin data).straps = s.straps ∧
    (State.journalAs s typ origin data).mode = s.mode ∧ (State.journalAs s typ origin data).life = s.life ∧
    (State.journalAs s typ origin data).regs = s.regs ∧ (State.journalAs s typ origin data).pp = s.pp ∧
    (State.journalAs s typ origin data).cnv = s.cnv ∧ (State.journalAs s typ origin data).chg = s.chg ∧
    (State.journalAs s typ origin data).emg = s.emg ∧ (State.journalAs s typ origin data).seq = s.seq ∧
    (State.journalAs s typ origin data).pdp = s.pdp ∧ (State.journalAs s typ origin data).lnk = s.lnk ∧
    (State.journalAs s typ origin data).ser = s.ser ∧ (State.journalAs s typ origin data).fab = s.fab ∧
    (State.journalAs s typ origin data).chk = s.chk ∧ (State.journalAs s typ origin data).tlm = s.tlm ∧
    (State.journalAs s typ origin data).cal = s.cal ∧ (State.journalAs s typ origin data).arb = s.arb ∧
    (State.journalAs s typ origin data).free = s.free ∧ (State.journalAs s typ origin data).pending = s.pending := by simp [State.journalAs]
@[simp] theorem State.journal_keeps (s : State) (typ : Nat) (data : List Byte) : (State.journal s typ data).part = s.part ∧
    (State.journal s typ data).straps = s.straps ∧ (State.journal s typ data).mode = s.mode ∧
    (State.journal s typ data).life = s.life ∧ (State.journal s typ data).regs = s.regs ∧ (State.journal s typ data).pp = s.pp ∧
    (State.journal s typ data).cnv = s.cnv ∧ (State.journal s typ data).chg = s.chg ∧ (State.journal s typ data).emg = s.emg ∧
    (State.journal s typ data).seq = s.seq ∧ (State.journal s typ data).pdp = s.pdp ∧ (State.journal s typ data).lnk = s.lnk ∧
    (State.journal s typ data).ser = s.ser ∧ (State.journal s typ data).fab = s.fab ∧ (State.journal s typ data).chk = s.chk ∧
    (State.journal s typ data).tlm = s.tlm ∧ (State.journal s typ data).cal = s.cal ∧ (State.journal s typ data).arb = s.arb ∧
    (State.journal s typ data).free = s.free ∧ (State.journal s typ data).pending = s.pending := by simp [State.journal]
@[simp] theorem State.spareCheck_keeps (s : State) : (State.spareCheck s).part = s.part ∧ (State.spareCheck s).straps = s.straps ∧
    (State.spareCheck s).mode = s.mode ∧ (State.spareCheck s).life = s.life ∧ (State.spareCheck s).regs = s.regs ∧
    (State.spareCheck s).pp = s.pp ∧ (State.spareCheck s).cnv = s.cnv ∧ (State.spareCheck s).chg = s.chg ∧
    (State.spareCheck s).emg = s.emg ∧ (State.spareCheck s).seq = s.seq ∧ (State.spareCheck s).pdp = s.pdp ∧
    (State.spareCheck s).lnk = s.lnk ∧ (State.spareCheck s).ser = s.ser ∧ (State.spareCheck s).chk = s.chk ∧
    (State.spareCheck s).tlm = s.tlm ∧ (State.spareCheck s).cal = s.cal ∧ (State.spareCheck s).arb = s.arb ∧
    (State.spareCheck s).free = s.free ∧ (State.spareCheck s).pending = s.pending := by simp [State.spareCheck]
@[simp] theorem State.retire_keeps (s : State) (b : Nat) (cause : Nat) (keep : Bool) :
    (State.retire s b cause keep).part = s.part ∧ (State.retire s b cause keep).straps = s.straps ∧
    (State.retire s b cause keep).mode = s.mode ∧ (State.retire s b cause keep).life = s.life ∧
    (State.retire s b cause keep).regs = s.regs ∧ (State.retire s b cause keep).pp = s.pp ∧
    (State.retire s b cause keep).cnv = s.cnv ∧ (State.retire s b cause keep).chg = s.chg ∧
    (State.retire s b cause keep).emg = s.emg ∧ (State.retire s b cause keep).seq = s.seq ∧
    (State.retire s b cause keep).pdp = s.pdp ∧ (State.retire s b cause keep).lnk = s.lnk ∧
    (State.retire s b cause keep).ser = s.ser ∧ (State.retire s b cause keep).chk = s.chk ∧
    (State.retire s b cause keep).tlm = s.tlm ∧ (State.retire s b cause keep).cal = s.cal ∧
    (State.retire s b cause keep).arb = s.arb ∧ (State.retire s b cause keep).free = s.free ∧
    (State.retire s b cause keep).pending = s.pending := by unfold State.retire; (repeat' split) <;> simp
@[simp] theorem State.eraseBlk_keeps (s : State) (b : Nat) : (State.eraseBlk s b).part = s.part ∧
    (State.eraseBlk s b).straps = s.straps ∧ (State.eraseBlk s b).mode = s.mode ∧ (State.eraseBlk s b).life = s.life ∧
    (State.eraseBlk s b).regs = s.regs ∧ (State.eraseBlk s b).pp = s.pp ∧ (State.eraseBlk s b).cnv = s.cnv ∧
    (State.eraseBlk s b).chg = s.chg ∧ (State.eraseBlk s b).emg = s.emg ∧ (State.eraseBlk s b).seq = s.seq ∧
    (State.eraseBlk s b).pdp = s.pdp ∧ (State.eraseBlk s b).lnk = s.lnk ∧ (State.eraseBlk s b).ser = s.ser ∧
    (State.eraseBlk s b).chk = s.chk ∧ (State.eraseBlk s b).tlm = s.tlm ∧ (State.eraseBlk s b).cal = s.cal ∧
    (State.eraseBlk s b).arb = s.arb ∧ (State.eraseBlk s b).free = s.free ∧ (State.eraseBlk s b).pending = s.pending := by unfold State.eraseBlk; split <;> simp
@[simp] theorem State.writeFail_keeps (s : State) (b : Nat) : (State.writeFail s b).part = s.part ∧
    (State.writeFail s b).straps = s.straps ∧ (State.writeFail s b).mode = s.mode ∧ (State.writeFail s b).life = s.life ∧
    (State.writeFail s b).regs = s.regs ∧ (State.writeFail s b).pp = s.pp ∧ (State.writeFail s b).cnv = s.cnv ∧
    (State.writeFail s b).chg = s.chg ∧ (State.writeFail s b).emg = s.emg ∧ (State.writeFail s b).seq = s.seq ∧
    (State.writeFail s b).pdp = s.pdp ∧ (State.writeFail s b).lnk = s.lnk ∧ (State.writeFail s b).ser = s.ser ∧
    (State.writeFail s b).chk = s.chk ∧ (State.writeFail s b).tlm = s.tlm ∧ (State.writeFail s b).cal = s.cal ∧
    (State.writeFail s b).arb = s.arb ∧ (State.writeFail s b).free = s.free ∧ (State.writeFail s b).pending = s.pending := by simp [State.writeFail]
@[simp] theorem State.program_keeps (s : State) (pg : Nat) (bs : List Byte) : (State.program s pg bs).part = s.part ∧
    (State.program s pg bs).straps = s.straps ∧ (State.program s pg bs).mode = s.mode ∧ (State.program s pg bs).life = s.life ∧
    (State.program s pg bs).regs = s.regs ∧ (State.program s pg bs).pp = s.pp ∧ (State.program s pg bs).cnv = s.cnv ∧
    (State.program s pg bs).chg = s.chg ∧ (State.program s pg bs).emg = s.emg ∧ (State.program s pg bs).seq = s.seq ∧
    (State.program s pg bs).pdp = s.pdp ∧ (State.program s pg bs).lnk = s.lnk ∧ (State.program s pg bs).ser = s.ser ∧
    (State.program s pg bs).fab = s.fab ∧ (State.program s pg bs).chk = s.chk ∧ (State.program s pg bs).tlm = s.tlm ∧
    (State.program s pg bs).cal = s.cal ∧ (State.program s pg bs).arb = s.arb ∧ (State.program s pg bs).free = s.free ∧
    (State.program s pg bs).pending = s.pending := by simp [State.program]
@[simp] theorem State.logFrom_keeps (s : State) (first : Nat) (blocks : Nat) (n : Nat) (head : Nat) :
    (State.logFrom s first blocks n head).1.part = s.part ∧ (State.logFrom s first blocks n head).1.straps = s.straps ∧
    (State.logFrom s first blocks n head).1.mode = s.mode ∧ (State.logFrom s first blocks n head).1.life = s.life ∧
    (State.logFrom s first blocks n head).1.regs = s.regs ∧ (State.logFrom s first blocks n head).1.pp = s.pp ∧
    (State.logFrom s first blocks n head).1.cnv = s.cnv ∧ (State.logFrom s first blocks n head).1.chg = s.chg ∧
    (State.logFrom s first blocks n head).1.emg = s.emg ∧ (State.logFrom s first blocks n head).1.seq = s.seq ∧
    (State.logFrom s first blocks n head).1.pdp = s.pdp ∧ (State.logFrom s first blocks n head).1.lnk = s.lnk ∧
    (State.logFrom s first blocks n head).1.ser = s.ser ∧ (State.logFrom s first blocks n head).1.chk = s.chk ∧
    (State.logFrom s first blocks n head).1.tlm = s.tlm ∧ (State.logFrom s first blocks n head).1.cal = s.cal ∧
    (State.logFrom s first blocks n head).1.arb = s.arb ∧ (State.logFrom s first blocks n head).1.free = s.free ∧
    (State.logFrom s first blocks n head).1.pending = s.pending := by
  induction n generalizing s head with
  | zero => simp [State.logFrom]
  | succ n ih =>
    unfold State.logFrom
    dsimp only
    split
    · split
      · simpa only [State.eraseBlk_keeps] using ih (s.eraseBlk _) _
      · simp
    · simp
@[simp] theorem State.logPage_keeps (s : State) (first : Nat) (blocks : Nat) (head : Nat) :
    (State.logPage s first blocks head).1.part = s.part ∧ (State.logPage s first blocks head).1.straps = s.straps ∧
    (State.logPage s first blocks head).1.mode = s.mode ∧ (State.logPage s first blocks head).1.life = s.life ∧
    (State.logPage s first blocks head).1.regs = s.regs ∧ (State.logPage s first blocks head).1.pp = s.pp ∧
    (State.logPage s first blocks head).1.cnv = s.cnv ∧ (State.logPage s first blocks head).1.chg = s.chg ∧
    (State.logPage s first blocks head).1.emg = s.emg ∧ (State.logPage s first blocks head).1.seq = s.seq ∧
    (State.logPage s first blocks head).1.pdp = s.pdp ∧ (State.logPage s first blocks head).1.lnk = s.lnk ∧
    (State.logPage s first blocks head).1.ser = s.ser ∧ (State.logPage s first blocks head).1.chk = s.chk ∧
    (State.logPage s first blocks head).1.tlm = s.tlm ∧ (State.logPage s first blocks head).1.cal = s.cal ∧
    (State.logPage s first blocks head).1.arb = s.arb ∧ (State.logPage s first blocks head).1.free = s.free ∧
    (State.logPage s first blocks head).1.pending = s.pending := by simp [State.logPage]
@[simp] theorem State.journalPage_keeps (s : State) : (State.journalPage s).part = s.part ∧
    (State.journalPage s).straps = s.straps ∧ (State.journalPage s).mode = s.mode ∧ (State.journalPage s).life = s.life ∧
    (State.journalPage s).regs = s.regs ∧ (State.journalPage s).pp = s.pp ∧ (State.journalPage s).cnv = s.cnv ∧
    (State.journalPage s).chg = s.chg ∧ (State.journalPage s).emg = s.emg ∧ (State.journalPage s).seq = s.seq ∧
    (State.journalPage s).pdp = s.pdp ∧ (State.journalPage s).lnk = s.lnk ∧ (State.journalPage s).ser = s.ser ∧
    (State.journalPage s).chk = s.chk ∧ (State.journalPage s).tlm = s.tlm ∧ (State.journalPage s).cal = s.cal ∧
    (State.journalPage s).arb = s.arb ∧ (State.journalPage s).free = s.free ∧ (State.journalPage s).pending = s.pending := by unfold State.journalPage; split <;> simp
@[simp] theorem State.journalFlush_keeps (s : State) (x1 : Nat) : (State.journalFlush s x1).part = s.part ∧
    (State.journalFlush s x1).straps = s.straps ∧ (State.journalFlush s x1).mode = s.mode ∧
    (State.journalFlush s x1).life = s.life ∧ (State.journalFlush s x1).regs = s.regs ∧ (State.journalFlush s x1).pp = s.pp ∧
    (State.journalFlush s x1).cnv = s.cnv ∧ (State.journalFlush s x1).chg = s.chg ∧ (State.journalFlush s x1).emg = s.emg ∧
    (State.journalFlush s x1).seq = s.seq ∧ (State.journalFlush s x1).pdp = s.pdp ∧ (State.journalFlush s x1).lnk = s.lnk ∧
    (State.journalFlush s x1).ser = s.ser ∧ (State.journalFlush s x1).chk = s.chk ∧ (State.journalFlush s x1).tlm = s.tlm ∧
    (State.journalFlush s x1).cal = s.cal ∧ (State.journalFlush s x1).arb = s.arb ∧ (State.journalFlush s x1).free = s.free ∧
    (State.journalFlush s x1).pending = s.pending := by
  induction x1 generalizing s  with
  | zero => simp [State.journalFlush]
  | succ n ih => unfold State.journalFlush; (repeat' split) <;> simp_all
@[simp] theorem State.sealNow_keeps (s : State) : (State.sealNow s).part = s.part ∧ (State.sealNow s).straps = s.straps ∧
    (State.sealNow s).mode = s.mode ∧ (State.sealNow s).life = s.life ∧ (State.sealNow s).regs = s.regs ∧
    (State.sealNow s).pp = s.pp ∧ (State.sealNow s).cnv = s.cnv ∧ (State.sealNow s).chg = s.chg ∧ (State.sealNow s).emg = s.emg ∧
    (State.sealNow s).seq = s.seq ∧ (State.sealNow s).pdp = s.pdp ∧ (State.sealNow s).lnk = s.lnk ∧ (State.sealNow s).ser = s.ser ∧
    (State.sealNow s).chk = s.chk ∧ (State.sealNow s).tlm = s.tlm ∧ (State.sealNow s).cal = s.cal ∧ (State.sealNow s).arb = s.arb ∧
    (State.sealNow s).free = s.free ∧ (State.sealNow s).pending = s.pending := by simp [State.sealNow]
@[simp] theorem State.journalProgram_keeps (s : State) : (State.journalProgram s).part = s.part ∧
    (State.journalProgram s).straps = s.straps ∧ (State.journalProgram s).mode = s.mode ∧ (State.journalProgram s).life = s.life ∧
    (State.journalProgram s).regs = s.regs ∧ (State.journalProgram s).pp = s.pp ∧ (State.journalProgram s).cnv = s.cnv ∧
    (State.journalProgram s).chg = s.chg ∧ (State.journalProgram s).emg = s.emg ∧ (State.journalProgram s).seq = s.seq ∧
    (State.journalProgram s).pdp = s.pdp ∧ (State.journalProgram s).lnk = s.lnk ∧ (State.journalProgram s).ser = s.ser ∧
    (State.journalProgram s).chk = s.chk ∧ (State.journalProgram s).tlm = s.tlm ∧ (State.journalProgram s).cal = s.cal ∧
    (State.journalProgram s).arb = s.arb ∧ (State.journalProgram s).free = s.free ∧ (State.journalProgram s).pending = s.pending := by
  unfold State.journalProgram
  (repeat' apply And.intro) <;> (try simp) <;> (repeat' split) <;> (try simp) <;> (try simp_all)
@[simp] theorem State.testProgram_keeps (s : State) (bs : List Byte) : (State.testProgram s bs).part = s.part ∧
    (State.testProgram s bs).straps = s.straps ∧ (State.testProgram s bs).mode = s.mode ∧ (State.testProgram s bs).life = s.life ∧
    (State.testProgram s bs).regs = s.regs ∧ (State.testProgram s bs).pp = s.pp ∧ (State.testProgram s bs).cnv = s.cnv ∧
    (State.testProgram s bs).chg = s.chg ∧ (State.testProgram s bs).emg = s.emg ∧ (State.testProgram s bs).seq = s.seq ∧
    (State.testProgram s bs).pdp = s.pdp ∧ (State.testProgram s bs).lnk = s.lnk ∧ (State.testProgram s bs).ser = s.ser ∧
    (State.testProgram s bs).chk = s.chk ∧ (State.testProgram s bs).tlm = s.tlm ∧ (State.testProgram s bs).cal = s.cal ∧
    (State.testProgram s bs).arb = s.arb ∧ (State.testProgram s bs).free = s.free ∧ (State.testProgram s bs).pending = s.pending := by
  unfold State.testProgram
  (repeat' apply And.intro) <;> (try simp) <;> (repeat' split) <;> (try simp) <;> (try simp_all)
@[simp] theorem State.historyPage_keeps (s : State) : (State.historyPage s).part = s.part ∧
    (State.historyPage s).straps = s.straps ∧ (State.historyPage s).mode = s.mode ∧ (State.historyPage s).life = s.life ∧
    (State.historyPage s).regs = s.regs ∧ (State.historyPage s).pp = s.pp ∧ (State.historyPage s).cnv = s.cnv ∧
    (State.historyPage s).chg = s.chg ∧ (State.historyPage s).emg = s.emg ∧ (State.historyPage s).seq = s.seq ∧
    (State.historyPage s).pdp = s.pdp ∧ (State.historyPage s).lnk = s.lnk ∧ (State.historyPage s).ser = s.ser ∧
    (State.historyPage s).chk = s.chk ∧ (State.historyPage s).tlm = s.tlm ∧ (State.historyPage s).cal = s.cal ∧
    (State.historyPage s).arb = s.arb ∧ (State.historyPage s).free = s.free ∧ (State.historyPage s).pending = s.pending := by
  have h := State.logPage_keeps s 208 576 s.tkr.hhead
  unfold State.historyPage; split
  · simp
  · simpa only [State.post_keeps] using h
@[simp] theorem State.historyFlush_keeps (s : State) (x1 : Nat) : (State.historyFlush s x1).part = s.part ∧
    (State.historyFlush s x1).straps = s.straps ∧ (State.historyFlush s x1).mode = s.mode ∧
    (State.historyFlush s x1).life = s.life ∧ (State.historyFlush s x1).regs = s.regs ∧ (State.historyFlush s x1).pp = s.pp ∧
    (State.historyFlush s x1).cnv = s.cnv ∧ (State.historyFlush s x1).chg = s.chg ∧ (State.historyFlush s x1).emg = s.emg ∧
    (State.historyFlush s x1).seq = s.seq ∧ (State.historyFlush s x1).pdp = s.pdp ∧ (State.historyFlush s x1).lnk = s.lnk ∧
    (State.historyFlush s x1).ser = s.ser ∧ (State.historyFlush s x1).chk = s.chk ∧ (State.historyFlush s x1).tlm = s.tlm ∧
    (State.historyFlush s x1).cal = s.cal ∧ (State.historyFlush s x1).arb = s.arb ∧ (State.historyFlush s x1).free = s.free ∧
    (State.historyFlush s x1).pending = s.pending := by
  induction x1 generalizing s  with
  | zero => simp [State.historyFlush]
  | succ n ih => unfold State.historyFlush; (repeat' split) <;> simp_all
@[simp] theorem State.activate_keeps (s : State) (b : Nat) (other : Nat) : (State.activate s b other).part = s.part ∧
    (State.activate s b other).straps = s.straps ∧ (State.activate s b other).mode = s.mode ∧
    (State.activate s b other).life = s.life ∧ (State.activate s b other).regs = s.regs ∧ (State.activate s b other).pp = s.pp ∧
    (State.activate s b other).cnv = s.cnv ∧ (State.activate s b other).chg = s.chg ∧ (State.activate s b other).emg = s.emg ∧
    (State.activate s b other).seq = s.seq ∧ (State.activate s b other).pdp = s.pdp ∧ (State.activate s b other).lnk = s.lnk ∧
    (State.activate s b other).ser = s.ser ∧ (State.activate s b other).fab = s.fab ∧ (State.activate s b other).chk = s.chk ∧
    (State.activate s b other).tlm = s.tlm ∧ (State.activate s b other).cal = s.cal ∧ (State.activate s b other).arb = s.arb ∧
    (State.activate s b other).free = s.free ∧ (State.activate s b other).pending = s.pending := by simp [State.activate]
@[simp] theorem State.setAdc_keeps (s : State) (x : Arb) : (State.setAdc s x).part = s.part ∧
    (State.setAdc s x).straps = s.straps ∧ (State.setAdc s x).mode = s.mode ∧ (State.setAdc s x).life = s.life ∧
    (State.setAdc s x).regs = s.regs ∧ (State.setAdc s x).pp = s.pp ∧ (State.setAdc s x).cnv = s.cnv ∧
    (State.setAdc s x).chg = s.chg ∧ (State.setAdc s x).emg = s.emg ∧ (State.setAdc s x).seq = s.seq ∧
    (State.setAdc s x).pdp = s.pdp ∧ (State.setAdc s x).lnk = s.lnk ∧ (State.setAdc s x).ser = s.ser ∧
    (State.setAdc s x).fab = s.fab ∧ (State.setAdc s x).chk = s.chk ∧ (State.setAdc s x).tkr = s.tkr ∧
    (State.setAdc s x).tlm = s.tlm ∧ (State.setAdc s x).cal = s.cal ∧ (State.setAdc s x).free = s.free ∧
    (State.setAdc s x).pending = s.pending := by simp [State.setAdc]
@[simp] theorem State.adcBoundary_keeps (s : State) : (State.adcBoundary s).part = s.part ∧
    (State.adcBoundary s).straps = s.straps ∧ (State.adcBoundary s).mode = s.mode ∧ (State.adcBoundary s).life = s.life ∧
    (State.adcBoundary s).regs = s.regs ∧ (State.adcBoundary s).pp = s.pp ∧ (State.adcBoundary s).cnv = s.cnv ∧
    (State.adcBoundary s).chg = s.chg ∧ (State.adcBoundary s).emg = s.emg ∧ (State.adcBoundary s).seq = s.seq ∧
    (State.adcBoundary s).pdp = s.pdp ∧ (State.adcBoundary s).lnk = s.lnk ∧ (State.adcBoundary s).ser = s.ser ∧
    (State.adcBoundary s).fab = s.fab ∧ (State.adcBoundary s).chk = s.chk ∧ (State.adcBoundary s).tkr = s.tkr ∧
    (State.adcBoundary s).cal = s.cal ∧ (State.adcBoundary s).arb = s.arb ∧ (State.adcBoundary s).free = s.free ∧
    (State.adcBoundary s).pending = s.pending := by simp [State.adcBoundary]
@[simp] theorem State.driveNtcb_keeps (s : State) : (State.driveNtcb s).part = s.part ∧ (State.driveNtcb s).straps = s.straps ∧
    (State.driveNtcb s).mode = s.mode ∧ (State.driveNtcb s).life = s.life ∧ (State.driveNtcb s).regs = s.regs ∧
    (State.driveNtcb s).pp = s.pp ∧ (State.driveNtcb s).cnv = s.cnv ∧ (State.driveNtcb s).chg = s.chg ∧
    (State.driveNtcb s).emg = s.emg ∧ (State.driveNtcb s).seq = s.seq ∧ (State.driveNtcb s).pdp = s.pdp ∧
    (State.driveNtcb s).lnk = s.lnk ∧ (State.driveNtcb s).ser = s.ser ∧ (State.driveNtcb s).fab = s.fab ∧
    (State.driveNtcb s).chk = s.chk ∧ (State.driveNtcb s).tkr = s.tkr ∧ (State.driveNtcb s).cal = s.cal ∧
    (State.driveNtcb s).arb = s.arb ∧ (State.driveNtcb s).free = s.free ∧ (State.driveNtcb s).pending = s.pending := by simp [State.driveNtcb]
@[simp] theorem State.setUnit_keeps (s : State) (u : UnitId) (c : ChkUnit) : (State.setUnit s u c).part = s.part ∧
    (State.setUnit s u c).straps = s.straps ∧ (State.setUnit s u c).mode = s.mode ∧ (State.setUnit s u c).life = s.life ∧
    (State.setUnit s u c).regs = s.regs ∧ (State.setUnit s u c).pp = s.pp ∧ (State.setUnit s u c).cnv = s.cnv ∧
    (State.setUnit s u c).chg = s.chg ∧ (State.setUnit s u c).emg = s.emg ∧ (State.setUnit s u c).seq = s.seq ∧
    (State.setUnit s u c).pdp = s.pdp ∧ (State.setUnit s u c).lnk = s.lnk ∧ (State.setUnit s u c).ser = s.ser ∧
    (State.setUnit s u c).fab = s.fab ∧ (State.setUnit s u c).tkr = s.tkr ∧ (State.setUnit s u c).tlm = s.tlm ∧
    (State.setUnit s u c).cal = s.cal ∧ (State.setUnit s u c).arb = s.arb ∧ (State.setUnit s u c).free = s.free ∧
    (State.setUnit s u c).pending = s.pending := by simp [State.setUnit]
@[simp] theorem State.setChkArb_keeps (s : State) (u : UnitId) (x : Arb) : (State.setChkArb s u x).part = s.part ∧
    (State.setChkArb s u x).straps = s.straps ∧ (State.setChkArb s u x).mode = s.mode ∧ (State.setChkArb s u x).life = s.life ∧
    (State.setChkArb s u x).regs = s.regs ∧ (State.setChkArb s u x).pp = s.pp ∧ (State.setChkArb s u x).cnv = s.cnv ∧
    (State.setChkArb s u x).chg = s.chg ∧ (State.setChkArb s u x).emg = s.emg ∧ (State.setChkArb s u x).seq = s.seq ∧
    (State.setChkArb s u x).pdp = s.pdp ∧ (State.setChkArb s u x).lnk = s.lnk ∧ (State.setChkArb s u x).ser = s.ser ∧
    (State.setChkArb s u x).fab = s.fab ∧ (State.setChkArb s u x).chk = s.chk ∧ (State.setChkArb s u x).tkr = s.tkr ∧
    (State.setChkArb s u x).tlm = s.tlm ∧ (State.setChkArb s u x).cal = s.cal ∧ (State.setChkArb s u x).free = s.free ∧
    (State.setChkArb s u x).pending = s.pending := by simp [State.setChkArb]
@[simp] theorem State.setPlane_keeps (s : State) (p : Fin 4) (x : Arb) : (State.setPlane s p x).part = s.part ∧
    (State.setPlane s p x).straps = s.straps ∧ (State.setPlane s p x).mode = s.mode ∧ (State.setPlane s p x).life = s.life ∧
    (State.setPlane s p x).regs = s.regs ∧ (State.setPlane s p x).pp = s.pp ∧ (State.setPlane s p x).cnv = s.cnv ∧
    (State.setPlane s p x).chg = s.chg ∧ (State.setPlane s p x).emg = s.emg ∧ (State.setPlane s p x).seq = s.seq ∧
    (State.setPlane s p x).pdp = s.pdp ∧ (State.setPlane s p x).lnk = s.lnk ∧ (State.setPlane s p x).ser = s.ser ∧
    (State.setPlane s p x).fab = s.fab ∧ (State.setPlane s p x).chk = s.chk ∧ (State.setPlane s p x).tkr = s.tkr ∧
    (State.setPlane s p x).tlm = s.tlm ∧ (State.setPlane s p x).cal = s.cal ∧ (State.setPlane s p x).free = s.free ∧
    (State.setPlane s p x).pending = s.pending := by simp [State.setPlane]
@[simp] theorem State.grantPlanes_keeps (s : State) (a : Agent) (ps : List Nat) : (State.grantPlanes s a ps).part = s.part ∧
    (State.grantPlanes s a ps).straps = s.straps ∧ (State.grantPlanes s a ps).mode = s.mode ∧
    (State.grantPlanes s a ps).life = s.life ∧ (State.grantPlanes s a ps).regs = s.regs ∧ (State.grantPlanes s a ps).pp = s.pp ∧
    (State.grantPlanes s a ps).cnv = s.cnv ∧ (State.grantPlanes s a ps).chg = s.chg ∧ (State.grantPlanes s a ps).emg = s.emg ∧
    (State.grantPlanes s a ps).seq = s.seq ∧ (State.grantPlanes s a ps).pdp = s.pdp ∧ (State.grantPlanes s a ps).lnk = s.lnk ∧
    (State.grantPlanes s a ps).ser = s.ser ∧ (State.grantPlanes s a ps).fab = s.fab ∧ (State.grantPlanes s a ps).chk = s.chk ∧
    (State.grantPlanes s a ps).tkr = s.tkr ∧ (State.grantPlanes s a ps).tlm = s.tlm ∧ (State.grantPlanes s a ps).cal = s.cal ∧
    (State.grantPlanes s a ps).free = s.free ∧ (State.grantPlanes s a ps).pending = s.pending := by
  unfold State.grantPlanes
  (repeat' apply And.intro) <;> exact foldl_keep _ _ (fun t p => by simp) _ _
@[simp] theorem State.setSusp_keeps (s : State) (p : Fin 4) (o : Option TkrOp) : (State.setSusp s p o).part = s.part ∧
    (State.setSusp s p o).straps = s.straps ∧ (State.setSusp s p o).mode = s.mode ∧ (State.setSusp s p o).life = s.life ∧
    (State.setSusp s p o).regs = s.regs ∧ (State.setSusp s p o).pp = s.pp ∧ (State.setSusp s p o).cnv = s.cnv ∧
    (State.setSusp s p o).chg = s.chg ∧ (State.setSusp s p o).emg = s.emg ∧ (State.setSusp s p o).seq = s.seq ∧
    (State.setSusp s p o).pdp = s.pdp ∧ (State.setSusp s p o).lnk = s.lnk ∧ (State.setSusp s p o).ser = s.ser ∧
    (State.setSusp s p o).fab = s.fab ∧ (State.setSusp s p o).chk = s.chk ∧ (State.setSusp s p o).tkr = s.tkr ∧
    (State.setSusp s p o).tlm = s.tlm ∧ (State.setSusp s p o).cal = s.cal ∧ (State.setSusp s p o).free = s.free ∧
    (State.setSusp s p o).pending = s.pending := by simp [State.setSusp]
@[simp] theorem State.setSigned_keeps (s : State) (i : Nat) (v : Int) : (State.setSigned s i v).part = s.part ∧
    (State.setSigned s i v).straps = s.straps ∧ (State.setSigned s i v).mode = s.mode ∧ (State.setSigned s i v).life = s.life ∧
    (State.setSigned s i v).pp = s.pp ∧ (State.setSigned s i v).cnv = s.cnv ∧ (State.setSigned s i v).chg = s.chg ∧
    (State.setSigned s i v).emg = s.emg ∧ (State.setSigned s i v).seq = s.seq ∧ (State.setSigned s i v).pdp = s.pdp ∧
    (State.setSigned s i v).lnk = s.lnk ∧ (State.setSigned s i v).ser = s.ser ∧ (State.setSigned s i v).fab = s.fab ∧
    (State.setSigned s i v).chk = s.chk ∧ (State.setSigned s i v).tkr = s.tkr ∧ (State.setSigned s i v).tlm = s.tlm ∧
    (State.setSigned s i v).cal = s.cal ∧ (State.setSigned s i v).arb = s.arb ∧ (State.setSigned s i v).free = s.free ∧
    (State.setSigned s i v).pending = s.pending := by simp [State.setSigned]
@[simp] theorem State.histMark_keeps (s : State) (b : Nat) : (State.histMark s b).part = s.part ∧
    (State.histMark s b).straps = s.straps ∧ (State.histMark s b).mode = s.mode ∧ (State.histMark s b).life = s.life ∧
    (State.histMark s b).regs = s.regs ∧ (State.histMark s b).pp = s.pp ∧ (State.histMark s b).cnv = s.cnv ∧
    (State.histMark s b).chg = s.chg ∧ (State.histMark s b).emg = s.emg ∧ (State.histMark s b).seq = s.seq ∧
    (State.histMark s b).pdp = s.pdp ∧ (State.histMark s b).lnk = s.lnk ∧ (State.histMark s b).ser = s.ser ∧
    (State.histMark s b).fab = s.fab ∧ (State.histMark s b).chk = s.chk ∧ (State.histMark s b).tkr = s.tkr ∧
    (State.histMark s b).cal = s.cal ∧ (State.histMark s b).arb = s.arb ∧ (State.histMark s b).free = s.free ∧
    (State.histMark s b).pending = s.pending := by simp [State.histMark]
@[simp] theorem State.seqGo_keeps (s : State) (st : SeqState) : (State.seqGo s st).part = s.part ∧
    (State.seqGo s st).straps = s.straps ∧ (State.seqGo s st).mode = s.mode ∧ (State.seqGo s st).life = s.life ∧
    (State.seqGo s st).regs = s.regs ∧ (State.seqGo s st).pp = s.pp ∧ (State.seqGo s st).cnv = s.cnv ∧
    (State.seqGo s st).chg = s.chg ∧ (State.seqGo s st).emg = s.emg ∧ (State.seqGo s st).pdp = s.pdp ∧
    (State.seqGo s st).lnk = s.lnk ∧ (State.seqGo s st).ser = s.ser ∧ (State.seqGo s st).chk = s.chk ∧
    (State.seqGo s st).tkr = s.tkr ∧ (State.seqGo s st).tlm = s.tlm ∧ (State.seqGo s st).cal = s.cal ∧
    (State.seqGo s st).arb = s.arb ∧ (State.seqGo s st).free = s.free ∧ (State.seqGo s st).pending = s.pending := by simp [State.seqGo]
@[simp] theorem State.releaseCuts_keeps (s : State) : (State.releaseCuts s).part = s.part ∧
    (State.releaseCuts s).straps = s.straps ∧ (State.releaseCuts s).mode = s.mode ∧ (State.releaseCuts s).life = s.life ∧
    (State.releaseCuts s).regs = s.regs ∧ (State.releaseCuts s).pp = s.pp ∧ (State.releaseCuts s).cnv = s.cnv ∧
    (State.releaseCuts s).chg = s.chg ∧ (State.releaseCuts s).emg = s.emg ∧ (State.releaseCuts s).seq = s.seq ∧
    (State.releaseCuts s).lnk = s.lnk ∧ (State.releaseCuts s).ser = s.ser ∧ (State.releaseCuts s).fab = s.fab ∧
    (State.releaseCuts s).chk = s.chk ∧ (State.releaseCuts s).tkr = s.tkr ∧ (State.releaseCuts s).tlm = s.tlm ∧
    (State.releaseCuts s).cal = s.cal ∧ (State.releaseCuts s).arb = s.arb ∧ (State.releaseCuts s).free = s.free ∧
    (State.releaseCuts s).pending = s.pending := by simp [State.releaseCuts]
@[simp] theorem State.emergencyOver_keeps (s : State) : (State.emergencyOver s).part = s.part ∧
    (State.emergencyOver s).straps = s.straps ∧ (State.emergencyOver s).mode = s.mode ∧ (State.emergencyOver s).life = s.life ∧
    (State.emergencyOver s).regs = s.regs ∧ (State.emergencyOver s).pp = s.pp ∧ (State.emergencyOver s).cnv = s.cnv ∧
    (State.emergencyOver s).chg = s.chg ∧ (State.emergencyOver s).seq = s.seq ∧ (State.emergencyOver s).lnk = s.lnk ∧
    (State.emergencyOver s).ser = s.ser ∧ (State.emergencyOver s).fab = s.fab ∧ (State.emergencyOver s).chk = s.chk ∧
    (State.emergencyOver s).tkr = s.tkr ∧ (State.emergencyOver s).tlm = s.tlm ∧ (State.emergencyOver s).cal = s.cal ∧
    (State.emergencyOver s).arb = s.arb ∧ (State.emergencyOver s).free = s.free ∧ (State.emergencyOver s).pending = s.pending := by simp [State.emergencyOver]
@[simp] theorem State.retarget_keeps (s : State) : (State.retarget s).part = s.part ∧ (State.retarget s).straps = s.straps ∧
    (State.retarget s).mode = s.mode ∧ (State.retarget s).life = s.life ∧ (State.retarget s).regs = s.regs ∧
    (State.retarget s).pp = s.pp ∧ (State.retarget s).chg = s.chg ∧ (State.retarget s).emg = s.emg ∧
    (State.retarget s).seq = s.seq ∧ (State.retarget s).pdp = s.pdp ∧ (State.retarget s).lnk = s.lnk ∧
    (State.retarget s).ser = s.ser ∧ (State.retarget s).fab = s.fab ∧ (State.retarget s).chk = s.chk ∧
    (State.retarget s).tkr = s.tkr ∧ (State.retarget s).tlm = s.tlm ∧ (State.retarget s).cal = s.cal ∧
    (State.retarget s).arb = s.arb ∧ (State.retarget s).free = s.free ∧ (State.retarget s).pending = s.pending := by unfold State.retarget; split <;> simp
@[simp] theorem State.refet_keeps (s : State) : (State.refet s).part = s.part ∧ (State.refet s).straps = s.straps ∧
    (State.refet s).mode = s.mode ∧ (State.refet s).life = s.life ∧ (State.refet s).regs = s.regs ∧ (State.refet s).chg = s.chg ∧
    (State.refet s).emg = s.emg ∧ (State.refet s).seq = s.seq ∧ (State.refet s).pdp = s.pdp ∧ (State.refet s).lnk = s.lnk ∧
    (State.refet s).ser = s.ser ∧ (State.refet s).chk = s.chk ∧ (State.refet s).tkr = s.tkr ∧ (State.refet s).tlm = s.tlm ∧
    (State.refet s).cal = s.cal ∧ (State.refet s).arb = s.arb ∧ (State.refet s).free = s.free ∧ (State.refet s).pending = s.pending := by simp [State.refet]
@[simp] theorem State.seeVsys_keeps (s : State) (mv : Nat) : (State.seeVsys s mv).part = s.part ∧
    (State.seeVsys s mv).straps = s.straps ∧ (State.seeVsys s mv).mode = s.mode ∧ (State.seeVsys s mv).life = s.life ∧
    (State.seeVsys s mv).regs = s.regs ∧ (State.seeVsys s mv).chg = s.chg ∧ (State.seeVsys s mv).emg = s.emg ∧
    (State.seeVsys s mv).seq = s.seq ∧ (State.seeVsys s mv).pdp = s.pdp ∧ (State.seeVsys s mv).lnk = s.lnk ∧
    (State.seeVsys s mv).ser = s.ser ∧ (State.seeVsys s mv).chk = s.chk ∧ (State.seeVsys s mv).tkr = s.tkr ∧
    (State.seeVsys s mv).tlm = s.tlm ∧ (State.seeVsys s mv).cal = s.cal ∧ (State.seeVsys s mv).arb = s.arb ∧
    (State.seeVsys s mv).free = s.free ∧ (State.seeVsys s mv).pending = s.pending := by simp [State.seeVsys]
@[simp] theorem State.reLimit_keeps (s : State) : (State.reLimit s).part = s.part ∧ (State.reLimit s).straps = s.straps ∧
    (State.reLimit s).mode = s.mode ∧ (State.reLimit s).life = s.life ∧ (State.reLimit s).regs = s.regs ∧
    (State.reLimit s).pp = s.pp ∧ (State.reLimit s).cnv = s.cnv ∧ (State.reLimit s).emg = s.emg ∧ (State.reLimit s).seq = s.seq ∧
    (State.reLimit s).pdp = s.pdp ∧ (State.reLimit s).lnk = s.lnk ∧ (State.reLimit s).ser = s.ser ∧ (State.reLimit s).fab = s.fab ∧
    (State.reLimit s).chk = s.chk ∧ (State.reLimit s).tkr = s.tkr ∧ (State.reLimit s).tlm = s.tlm ∧ (State.reLimit s).cal = s.cal ∧
    (State.reLimit s).arb = s.arb ∧ (State.reLimit s).free = s.free ∧ (State.reLimit s).pending = s.pending := by simp [State.reLimit]
@[simp] theorem State.connectTo_keeps (s : State) (c : Option InputId) : (State.connectTo s c).part = s.part ∧
    (State.connectTo s c).straps = s.straps ∧ (State.connectTo s c).mode = s.mode ∧ (State.connectTo s c).life = s.life ∧
    (State.connectTo s c).regs = s.regs ∧ (State.connectTo s c).emg = s.emg ∧ (State.connectTo s c).seq = s.seq ∧
    (State.connectTo s c).pdp = s.pdp ∧ (State.connectTo s c).lnk = s.lnk ∧ (State.connectTo s c).ser = s.ser ∧
    (State.connectTo s c).chk = s.chk ∧ (State.connectTo s c).tkr = s.tkr ∧ (State.connectTo s c).cal = s.cal ∧
    (State.connectTo s c).arb = s.arb ∧ (State.connectTo s c).free = s.free ∧ (State.connectTo s c).pending = s.pending := by simp [State.connectTo]
@[simp] theorem State.connectBest_keeps (s : State) : (State.connectBest s).part = s.part ∧
    (State.connectBest s).straps = s.straps ∧ (State.connectBest s).mode = s.mode ∧ (State.connectBest s).life = s.life ∧
    (State.connectBest s).regs = s.regs ∧ (State.connectBest s).emg = s.emg ∧ (State.connectBest s).seq = s.seq ∧
    (State.connectBest s).pdp = s.pdp ∧ (State.connectBest s).lnk = s.lnk ∧ (State.connectBest s).ser = s.ser ∧
    (State.connectBest s).chk = s.chk ∧ (State.connectBest s).tkr = s.tkr ∧ (State.connectBest s).cal = s.cal ∧
    (State.connectBest s).arb = s.arb ∧ (State.connectBest s).free = s.free ∧ (State.connectBest s).pending = s.pending := by unfold State.connectBest; split <;> simp
@[simp] theorem State.leaveIneligible_keeps (s : State) : (State.leaveIneligible s).part = s.part ∧
    (State.leaveIneligible s).straps = s.straps ∧ (State.leaveIneligible s).mode = s.mode ∧
    (State.leaveIneligible s).life = s.life ∧ (State.leaveIneligible s).regs = s.regs ∧ (State.leaveIneligible s).emg = s.emg ∧
    (State.leaveIneligible s).seq = s.seq ∧ (State.leaveIneligible s).pdp = s.pdp ∧ (State.leaveIneligible s).lnk = s.lnk ∧
    (State.leaveIneligible s).ser = s.ser ∧ (State.leaveIneligible s).chk = s.chk ∧ (State.leaveIneligible s).tkr = s.tkr ∧
    (State.leaveIneligible s).cal = s.cal ∧ (State.leaveIneligible s).arb = s.arb ∧ (State.leaveIneligible s).free = s.free ∧
    (State.leaveIneligible s).pending = s.pending := by unfold State.leaveIneligible; (repeat' split) <;> simp
@[simp] theorem State.leaveHeld_keeps (s : State) : (State.leaveHeld s).part = s.part ∧ (State.leaveHeld s).straps = s.straps ∧
    (State.leaveHeld s).mode = s.mode ∧ (State.leaveHeld s).life = s.life ∧ (State.leaveHeld s).regs = s.regs ∧
    (State.leaveHeld s).emg = s.emg ∧ (State.leaveHeld s).seq = s.seq ∧ (State.leaveHeld s).pdp = s.pdp ∧
    (State.leaveHeld s).lnk = s.lnk ∧ (State.leaveHeld s).ser = s.ser ∧ (State.leaveHeld s).chk = s.chk ∧
    (State.leaveHeld s).tkr = s.tkr ∧ (State.leaveHeld s).cal = s.cal ∧ (State.leaveHeld s).arb = s.arb ∧
    (State.leaveHeld s).free = s.free ∧ (State.leaveHeld s).pending = s.pending := by unfold State.leaveHeld; split <;> simp
@[simp] theorem State.setValid_keeps (s : State) (i : InputId) (v : Bool) : (State.setValid s i v).part = s.part ∧
    (State.setValid s i v).straps = s.straps ∧ (State.setValid s i v).mode = s.mode ∧ (State.setValid s i v).life = s.life ∧
    (State.setValid s i v).regs = s.regs ∧ (State.setValid s i v).cnv = s.cnv ∧ (State.setValid s i v).chg = s.chg ∧
    (State.setValid s i v).emg = s.emg ∧ (State.setValid s i v).seq = s.seq ∧ (State.setValid s i v).pdp = s.pdp ∧
    (State.setValid s i v).lnk = s.lnk ∧ (State.setValid s i v).ser = s.ser ∧ (State.setValid s i v).chk = s.chk ∧
    (State.setValid s i v).tkr = s.tkr ∧ (State.setValid s i v).tlm = s.tlm ∧ (State.setValid s i v).cal = s.cal ∧
    (State.setValid s i v).arb = s.arb ∧ (State.setValid s i v).free = s.free ∧ (State.setValid s i v).pending = s.pending := by simp [State.setValid]
@[simp] theorem State.takeOver_keeps (s : State) : (State.takeOver s).part = s.part ∧ (State.takeOver s).straps = s.straps ∧
    (State.takeOver s).mode = s.mode ∧ (State.takeOver s).life = s.life ∧ (State.takeOver s).emg = s.emg ∧
    (State.takeOver s).seq = s.seq ∧ (State.takeOver s).pdp = s.pdp ∧ (State.takeOver s).lnk = s.lnk ∧
    (State.takeOver s).ser = s.ser ∧ (State.takeOver s).chk = s.chk ∧ (State.takeOver s).tkr = s.tkr ∧
    (State.takeOver s).cal = s.cal ∧ (State.takeOver s).arb = s.arb ∧ (State.takeOver s).free = s.free ∧
    (State.takeOver s).pending = s.pending := by unfold State.takeOver; (repeat' split) <;> simp
@[simp] theorem State.leaveReverse_keeps (s : State) : (State.leaveReverse s).part = s.part ∧
    (State.leaveReverse s).straps = s.straps ∧ (State.leaveReverse s).mode = s.mode ∧ (State.leaveReverse s).life = s.life ∧
    (State.leaveReverse s).regs = s.regs ∧ (State.leaveReverse s).pp = s.pp ∧ (State.leaveReverse s).chg = s.chg ∧
    (State.leaveReverse s).emg = s.emg ∧ (State.leaveReverse s).seq = s.seq ∧ (State.leaveReverse s).pdp = s.pdp ∧
    (State.leaveReverse s).lnk = s.lnk ∧ (State.leaveReverse s).ser = s.ser ∧ (State.leaveReverse s).chk = s.chk ∧
    (State.leaveReverse s).tkr = s.tkr ∧ (State.leaveReverse s).tlm = s.tlm ∧ (State.leaveReverse s).cal = s.cal ∧
    (State.leaveReverse s).arb = s.arb ∧ (State.leaveReverse s).free = s.free ∧ (State.leaveReverse s).pending = s.pending := by unfold State.leaveReverse; split <;> simp
@[simp] theorem State.stopReverse_keeps (s : State) : (State.stopReverse s).part = s.part ∧
    (State.stopReverse s).straps = s.straps ∧ (State.stopReverse s).mode = s.mode ∧ (State.stopReverse s).life = s.life ∧
    (State.stopReverse s).regs = s.regs ∧ (State.stopReverse s).emg = s.emg ∧ (State.stopReverse s).seq = s.seq ∧
    (State.stopReverse s).pdp = s.pdp ∧ (State.stopReverse s).lnk = s.lnk ∧ (State.stopReverse s).ser = s.ser ∧
    (State.stopReverse s).chk = s.chk ∧ (State.stopReverse s).tkr = s.tkr ∧ (State.stopReverse s).cal = s.cal ∧
    (State.stopReverse s).arb = s.arb ∧ (State.stopReverse s).free = s.free ∧ (State.stopReverse s).pending = s.pending := by unfold State.stopReverse; split <;> simp
@[simp] theorem State.regulateRev_keeps (s : State) : (State.regulateRev s).part = s.part ∧
    (State.regulateRev s).straps = s.straps ∧ (State.regulateRev s).mode = s.mode ∧ (State.regulateRev s).life = s.life ∧
    (State.regulateRev s).regs = s.regs ∧ (State.regulateRev s).pp = s.pp ∧ (State.regulateRev s).chg = s.chg ∧
    (State.regulateRev s).emg = s.emg ∧ (State.regulateRev s).seq = s.seq ∧ (State.regulateRev s).pdp = s.pdp ∧
    (State.regulateRev s).lnk = s.lnk ∧ (State.regulateRev s).ser = s.ser ∧ (State.regulateRev s).fab = s.fab ∧
    (State.regulateRev s).chk = s.chk ∧ (State.regulateRev s).tkr = s.tkr ∧ (State.regulateRev s).tlm = s.tlm ∧
    (State.regulateRev s).cal = s.cal ∧ (State.regulateRev s).arb = s.arb ∧ (State.regulateRev s).free = s.free ∧
    (State.regulateRev s).pending = s.pending := by unfold State.regulateRev; split <;> simp
@[simp] theorem State.seeVaux_keeps (s : State) (mv : Nat) : (State.seeVaux s mv).part = s.part ∧
    (State.seeVaux s mv).straps = s.straps ∧ (State.seeVaux s mv).mode = s.mode ∧ (State.seeVaux s mv).life = s.life ∧
    (State.seeVaux s mv).regs = s.regs ∧ (State.seeVaux s mv).pp = s.pp ∧ (State.seeVaux s mv).chg = s.chg ∧
    (State.seeVaux s mv).emg = s.emg ∧ (State.seeVaux s mv).seq = s.seq ∧ (State.seeVaux s mv).pdp = s.pdp ∧
    (State.seeVaux s mv).lnk = s.lnk ∧ (State.seeVaux s mv).ser = s.ser ∧ (State.seeVaux s mv).fab = s.fab ∧
    (State.seeVaux s mv).chk = s.chk ∧ (State.seeVaux s mv).tkr = s.tkr ∧ (State.seeVaux s mv).tlm = s.tlm ∧
    (State.seeVaux s mv).cal = s.cal ∧ (State.seeVaux s mv).arb = s.arb ∧ (State.seeVaux s mv).free = s.free ∧
    (State.seeVaux s mv).pending = s.pending := by unfold State.seeVaux; split <;> simp
@[simp] theorem State.noteRun_keeps (s : State) (vbat : Nat) : (State.noteRun s vbat).part = s.part ∧
    (State.noteRun s vbat).straps = s.straps ∧ (State.noteRun s vbat).mode = s.mode ∧ (State.noteRun s vbat).life = s.life ∧
    (State.noteRun s vbat).regs = s.regs ∧ (State.noteRun s vbat).pp = s.pp ∧ (State.noteRun s vbat).cnv = s.cnv ∧
    (State.noteRun s vbat).chg = s.chg ∧ (State.noteRun s vbat).seq = s.seq ∧ (State.noteRun s vbat).pdp = s.pdp ∧
    (State.noteRun s vbat).lnk = s.lnk ∧ (State.noteRun s vbat).ser = s.ser ∧ (State.noteRun s vbat).fab = s.fab ∧
    (State.noteRun s vbat).chk = s.chk ∧ (State.noteRun s vbat).tkr = s.tkr ∧ (State.noteRun s vbat).tlm = s.tlm ∧
    (State.noteRun s vbat).cal = s.cal ∧ (State.noteRun s vbat).arb = s.arb ∧ (State.noteRun s vbat).free = s.free ∧
    (State.noteRun s vbat).pending = s.pending := by simp [State.noteRun]
@[simp] theorem State.vbatSeen_keeps (s : State) (vbat : Nat) : (State.vbatSeen s vbat).part = s.part ∧
    (State.vbatSeen s vbat).straps = s.straps ∧ (State.vbatSeen s vbat).mode = s.mode ∧ (State.vbatSeen s vbat).life = s.life ∧
    (State.vbatSeen s vbat).regs = s.regs ∧ (State.vbatSeen s vbat).chg = s.chg ∧ (State.vbatSeen s vbat).seq = s.seq ∧
    (State.vbatSeen s vbat).pdp = s.pdp ∧ (State.vbatSeen s vbat).lnk = s.lnk ∧ (State.vbatSeen s vbat).ser = s.ser ∧
    (State.vbatSeen s vbat).chk = s.chk ∧ (State.vbatSeen s vbat).tkr = s.tkr ∧ (State.vbatSeen s vbat).tlm = s.tlm ∧
    (State.vbatSeen s vbat).cal = s.cal ∧ (State.vbatSeen s vbat).arb = s.arb ∧ (State.vbatSeen s vbat).free = s.free ∧
    (State.vbatSeen s vbat).pending = s.pending := by simp [State.vbatSeen]
@[simp] theorem State.halfRate_keeps (s : State) (ma : Int) : (State.halfRate s ma).part = s.part ∧
    (State.halfRate s ma).straps = s.straps ∧ (State.halfRate s ma).mode = s.mode ∧ (State.halfRate s ma).life = s.life ∧
    (State.halfRate s ma).regs = s.regs ∧ (State.halfRate s ma).pp = s.pp ∧ (State.halfRate s ma).cnv = s.cnv ∧
    (State.halfRate s ma).emg = s.emg ∧ (State.halfRate s ma).seq = s.seq ∧ (State.halfRate s ma).pdp = s.pdp ∧
    (State.halfRate s ma).lnk = s.lnk ∧ (State.halfRate s ma).ser = s.ser ∧ (State.halfRate s ma).chk = s.chk ∧
    (State.halfRate s ma).tkr = s.tkr ∧ (State.halfRate s ma).tlm = s.tlm ∧ (State.halfRate s ma).cal = s.cal ∧
    (State.halfRate s ma).arb = s.arb ∧ (State.halfRate s ma).free = s.free ∧ (State.halfRate s ma).pending = s.pending := by simp [State.halfRate]
@[simp] theorem State.chgGo_keeps (s : State) (st : ChgState) : (State.chgGo s st).part = s.part ∧
    (State.chgGo s st).straps = s.straps ∧ (State.chgGo s st).mode = s.mode ∧ (State.chgGo s st).life = s.life ∧
    (State.chgGo s st).regs = s.regs ∧ (State.chgGo s st).pp = s.pp ∧ (State.chgGo s st).cnv = s.cnv ∧
    (State.chgGo s st).seq = s.seq ∧ (State.chgGo s st).pdp = s.pdp ∧ (State.chgGo s st).lnk = s.lnk ∧
    (State.chgGo s st).ser = s.ser ∧ (State.chgGo s st).chk = s.chk ∧ (State.chgGo s st).tkr = s.tkr ∧
    (State.chgGo s st).tlm = s.tlm ∧ (State.chgGo s st).cal = s.cal ∧ (State.chgGo s st).arb = s.arb ∧
    (State.chgGo s st).free = s.free ∧ (State.chgGo s st).pending = s.pending := by simp [State.chgGo]
@[simp] theorem State.chgFault_keeps (s : State) (cause : Nat) : (State.chgFault s cause).part = s.part ∧
    (State.chgFault s cause).straps = s.straps ∧ (State.chgFault s cause).mode = s.mode ∧ (State.chgFault s cause).life = s.life ∧
    (State.chgFault s cause).seq = s.seq ∧ (State.chgFault s cause).pdp = s.pdp ∧ (State.chgFault s cause).lnk = s.lnk ∧
    (State.chgFault s cause).ser = s.ser ∧ (State.chgFault s cause).chk = s.chk ∧ (State.chgFault s cause).tlm = s.tlm ∧
    (State.chgFault s cause).cal = s.cal ∧ (State.chgFault s cause).arb = s.arb ∧ (State.chgFault s cause).free = s.free ∧
    (State.chgFault s cause).pending = s.pending := by simp [State.chgFault]
@[simp] theorem State.chgEval_keeps (s : State) (ov : Bool) (own : Option ChgMove) : (State.chgEval s ov own).part = s.part ∧
    (State.chgEval s ov own).straps = s.straps ∧ (State.chgEval s ov own).mode = s.mode ∧ (State.chgEval s ov own).life = s.life ∧
    (State.chgEval s ov own).seq = s.seq ∧ (State.chgEval s ov own).pdp = s.pdp ∧ (State.chgEval s ov own).lnk = s.lnk ∧
    (State.chgEval s ov own).ser = s.ser ∧ (State.chgEval s ov own).chk = s.chk ∧ (State.chgEval s ov own).tlm = s.tlm ∧
    (State.chgEval s ov own).cal = s.cal ∧ (State.chgEval s ov own).arb = s.arb ∧ (State.chgEval s ov own).free = s.free ∧
    (State.chgEval s ov own).pending = s.pending := by unfold State.chgEval; split <;> simp
@[simp] theorem State.testProgress_keeps (s : State) : (State.testProgress s).part = s.part ∧
    (State.testProgress s).straps = s.straps ∧ (State.testProgress s).mode = s.mode ∧ (State.testProgress s).life = s.life ∧
    (State.testProgress s).pp = s.pp ∧ (State.testProgress s).cnv = s.cnv ∧ (State.testProgress s).chg = s.chg ∧
    (State.testProgress s).emg = s.emg ∧ (State.testProgress s).seq = s.seq ∧ (State.testProgress s).pdp = s.pdp ∧
    (State.testProgress s).lnk = s.lnk ∧ (State.testProgress s).ser = s.ser ∧ (State.testProgress s).fab = s.fab ∧
    (State.testProgress s).chk = s.chk ∧ (State.testProgress s).tkr = s.tkr ∧ (State.testProgress s).tlm = s.tlm ∧
    (State.testProgress s).cal = s.cal ∧ (State.testProgress s).arb = s.arb ∧ (State.testProgress s).free = s.free ∧
    (State.testProgress s).pending = s.pending := by
  simp [State.testProgress]
@[simp] theorem State.testOver_keeps (s : State) (u : UnitId) : (State.testOver s u).part = s.part ∧
    (State.testOver s u).straps = s.straps ∧ (State.testOver s u).mode = s.mode ∧ (State.testOver s u).life = s.life ∧
    (State.testOver s u).pp = s.pp ∧ (State.testOver s u).cnv = s.cnv ∧ (State.testOver s u).chg = s.chg ∧
    (State.testOver s u).emg = s.emg ∧ (State.testOver s u).seq = s.seq ∧ (State.testOver s u).pdp = s.pdp ∧
    (State.testOver s u).lnk = s.lnk ∧ (State.testOver s u).ser = s.ser ∧ (State.testOver s u).fab = s.fab ∧
    (State.testOver s u).tkr = s.tkr ∧ (State.testOver s u).tlm = s.tlm ∧ (State.testOver s u).cal = s.cal ∧
    (State.testOver s u).free = s.free ∧ (State.testOver s u).pending = s.pending := by
  simp [State.testOver]
@[simp] theorem State.lnkGo_keeps (s : State) (st : LnkState) : (State.lnkGo s st).part = s.part ∧
    (State.lnkGo s st).straps = s.straps ∧ (State.lnkGo s st).mode = s.mode ∧ (State.lnkGo s st).life = s.life ∧
    (State.lnkGo s st).regs = s.regs ∧ (State.lnkGo s st).pp = s.pp ∧ (State.lnkGo s st).cnv = s.cnv ∧
    (State.lnkGo s st).chg = s.chg ∧ (State.lnkGo s st).emg = s.emg ∧ (State.lnkGo s st).seq = s.seq ∧
    (State.lnkGo s st).pdp = s.pdp ∧ (State.lnkGo s st).ser = s.ser ∧ (State.lnkGo s st).chk = s.chk ∧
    (State.lnkGo s st).tkr = s.tkr ∧ (State.lnkGo s st).tlm = s.tlm ∧ (State.lnkGo s st).cal = s.cal ∧
    (State.lnkGo s st).arb = s.arb ∧ (State.lnkGo s st).free = s.free ∧ (State.lnkGo s st).pending = s.pending := by simp [State.lnkGo]
@[simp] theorem State.lnkQueue_keeps (s : State) (typ : Nat) (dst : Nat) (ack : Bool) (prio : Bool) (payload : List Byte) :
    (State.lnkQueue s typ dst ack prio payload).part = s.part ∧ (State.lnkQueue s typ dst ack prio payload).straps = s.straps ∧
    (State.lnkQueue s typ dst ack prio payload).mode = s.mode ∧ (State.lnkQueue s typ dst ack prio payload).life = s.life ∧
    (State.lnkQueue s typ dst ack prio payload).regs = s.regs ∧ (State.lnkQueue s typ dst ack prio payload).pp = s.pp ∧
    (State.lnkQueue s typ dst ack prio payload).cnv = s.cnv ∧ (State.lnkQueue s typ dst ack prio payload).chg = s.chg ∧
    (State.lnkQueue s typ dst ack prio payload).emg = s.emg ∧ (State.lnkQueue s typ dst ack prio payload).seq = s.seq ∧
    (State.lnkQueue s typ dst ack prio payload).pdp = s.pdp ∧ (State.lnkQueue s typ dst ack prio payload).ser = s.ser ∧
    (State.lnkQueue s typ dst ack prio payload).fab = s.fab ∧ (State.lnkQueue s typ dst ack prio payload).chk = s.chk ∧
    (State.lnkQueue s typ dst ack prio payload).tkr = s.tkr ∧ (State.lnkQueue s typ dst ack prio payload).tlm = s.tlm ∧
    (State.lnkQueue s typ dst ack prio payload).cal = s.cal ∧ (State.lnkQueue s typ dst ack prio payload).arb = s.arb ∧
    (State.lnkQueue s typ dst ack prio payload).free = s.free ∧ (State.lnkQueue s typ dst ack prio payload).pending = s.pending := by simp [State.lnkQueue]
@[simp] theorem State.lnkSend_keeps (s : State) (typ : Nat) (dst : Nat) (payload : List Byte) :
    (State.lnkSend s typ dst payload).part = s.part ∧ (State.lnkSend s typ dst payload).straps = s.straps ∧
    (State.lnkSend s typ dst payload).mode = s.mode ∧ (State.lnkSend s typ dst payload).life = s.life ∧
    (State.lnkSend s typ dst payload).regs = s.regs ∧ (State.lnkSend s typ dst payload).pp = s.pp ∧
    (State.lnkSend s typ dst payload).cnv = s.cnv ∧ (State.lnkSend s typ dst payload).chg = s.chg ∧
    (State.lnkSend s typ dst payload).emg = s.emg ∧ (State.lnkSend s typ dst payload).seq = s.seq ∧
    (State.lnkSend s typ dst payload).pdp = s.pdp ∧ (State.lnkSend s typ dst payload).ser = s.ser ∧
    (State.lnkSend s typ dst payload).fab = s.fab ∧ (State.lnkSend s typ dst payload).chk = s.chk ∧
    (State.lnkSend s typ dst payload).tkr = s.tkr ∧ (State.lnkSend s typ dst payload).tlm = s.tlm ∧
    (State.lnkSend s typ dst payload).cal = s.cal ∧ (State.lnkSend s typ dst payload).arb = s.arb ∧
    (State.lnkSend s typ dst payload).free = s.free ∧ (State.lnkSend s typ dst payload).pending = s.pending := by simp [State.lnkSend]
@[simp] theorem State.endGrant_keeps (s : State) : (State.endGrant s).part = s.part ∧ (State.endGrant s).straps = s.straps ∧
    (State.endGrant s).mode = s.mode ∧ (State.endGrant s).life = s.life ∧ (State.endGrant s).regs = s.regs ∧
    (State.endGrant s).emg = s.emg ∧ (State.endGrant s).seq = s.seq ∧ (State.endGrant s).pdp = s.pdp ∧
    (State.endGrant s).ser = s.ser ∧ (State.endGrant s).chk = s.chk ∧ (State.endGrant s).tkr = s.tkr ∧
    (State.endGrant s).cal = s.cal ∧ (State.endGrant s).arb = s.arb ∧ (State.endGrant s).free = s.free ∧
    (State.endGrant s).pending = s.pending := by simp [State.endGrant]
@[simp] theorem State.sendLeave_keeps (s : State) : (State.sendLeave s).part = s.part ∧ (State.sendLeave s).straps = s.straps ∧
    (State.sendLeave s).mode = s.mode ∧ (State.sendLeave s).life = s.life ∧ (State.sendLeave s).regs = s.regs ∧
    (State.sendLeave s).pp = s.pp ∧ (State.sendLeave s).cnv = s.cnv ∧ (State.sendLeave s).chg = s.chg ∧
    (State.sendLeave s).emg = s.emg ∧ (State.sendLeave s).seq = s.seq ∧ (State.sendLeave s).pdp = s.pdp ∧
    (State.sendLeave s).ser = s.ser ∧ (State.sendLeave s).fab = s.fab ∧ (State.sendLeave s).chk = s.chk ∧
    (State.sendLeave s).tkr = s.tkr ∧ (State.sendLeave s).tlm = s.tlm ∧ (State.sendLeave s).cal = s.cal ∧
    (State.sendLeave s).arb = s.arb ∧ (State.sendLeave s).free = s.free ∧ (State.sendLeave s).pending = s.pending := by unfold State.sendLeave; split <;> simp
@[simp] theorem State.withdrawOffer_keeps (s : State) : (State.withdrawOffer s).part = s.part ∧
    (State.withdrawOffer s).straps = s.straps ∧ (State.withdrawOffer s).mode = s.mode ∧ (State.withdrawOffer s).life = s.life ∧
    (State.withdrawOffer s).regs = s.regs ∧ (State.withdrawOffer s).emg = s.emg ∧ (State.withdrawOffer s).seq = s.seq ∧
    (State.withdrawOffer s).pdp = s.pdp ∧ (State.withdrawOffer s).ser = s.ser ∧ (State.withdrawOffer s).chk = s.chk ∧
    (State.withdrawOffer s).tkr = s.tkr ∧ (State.withdrawOffer s).cal = s.cal ∧ (State.withdrawOffer s).arb = s.arb ∧
    (State.withdrawOffer s).free = s.free ∧ (State.withdrawOffer s).pending = s.pending := by unfold State.withdrawOffer; split <;> simp
@[simp] theorem State.checkOffer_keeps (s : State) : (State.checkOffer s).part = s.part ∧ (State.checkOffer s).straps = s.straps ∧
    (State.checkOffer s).mode = s.mode ∧ (State.checkOffer s).life = s.life ∧ (State.checkOffer s).regs = s.regs ∧
    (State.checkOffer s).emg = s.emg ∧ (State.checkOffer s).seq = s.seq ∧ (State.checkOffer s).pdp = s.pdp ∧
    (State.checkOffer s).ser = s.ser ∧ (State.checkOffer s).chk = s.chk ∧ (State.checkOffer s).tkr = s.tkr ∧
    (State.checkOffer s).cal = s.cal ∧ (State.checkOffer s).arb = s.arb ∧ (State.checkOffer s).free = s.free ∧
    (State.checkOffer s).pending = s.pending := by unfold State.checkOffer; split <;> simp
@[simp] theorem State.commitRecord_keeps (s : State) (r : List Byte) : (State.commitRecord s r).part = s.part ∧
    (State.commitRecord s r).straps = s.straps ∧ (State.commitRecord s r).mode = s.mode ∧ (State.commitRecord s r).life = s.life ∧
    (State.commitRecord s r).regs = s.regs ∧ (State.commitRecord s r).pp = s.pp ∧ (State.commitRecord s r).cnv = s.cnv ∧
    (State.commitRecord s r).chg = s.chg ∧ (State.commitRecord s r).emg = s.emg ∧ (State.commitRecord s r).seq = s.seq ∧
    (State.commitRecord s r).pdp = s.pdp ∧ (State.commitRecord s r).lnk = s.lnk ∧ (State.commitRecord s r).ser = s.ser ∧
    (State.commitRecord s r).chk = s.chk ∧ (State.commitRecord s r).tlm = s.tlm ∧ (State.commitRecord s r).cal = s.cal ∧
    (State.commitRecord s r).arb = s.arb ∧ (State.commitRecord s r).free = s.free ∧ (State.commitRecord s r).pending = s.pending := by
  unfold State.commitRecord
  (repeat' apply And.intro) <;> (try simp) <;> (repeat' split) <;> (try simp) <;> (try simp_all)
@[simp] theorem State.dueOver_keeps (s : State) (k : TestKind) : (State.dueOver s k).part = s.part ∧
    (State.dueOver s k).straps = s.straps ∧ (State.dueOver s k).mode = s.mode ∧ (State.dueOver s k).life = s.life ∧
    (State.dueOver s k).regs = s.regs ∧ (State.dueOver s k).pp = s.pp ∧ (State.dueOver s k).cnv = s.cnv ∧
    (State.dueOver s k).chg = s.chg ∧ (State.dueOver s k).seq = s.seq ∧ (State.dueOver s k).pdp = s.pdp ∧
    (State.dueOver s k).lnk = s.lnk ∧ (State.dueOver s k).ser = s.ser ∧ (State.dueOver s k).fab = s.fab ∧
    (State.dueOver s k).chk = s.chk ∧ (State.dueOver s k).tkr = s.tkr ∧ (State.dueOver s k).tlm = s.tlm ∧
    (State.dueOver s k).cal = s.cal ∧ (State.dueOver s k).arb = s.arb ∧ (State.dueOver s k).free = s.free ∧
    (State.dueOver s k).pending = s.pending := by simp [State.dueOver]
@[simp] theorem State.advanceNext_keeps (s : State) (k : TestKind) : (State.advanceNext s k).part = s.part ∧
    (State.advanceNext s k).straps = s.straps ∧ (State.advanceNext s k).mode = s.mode ∧ (State.advanceNext s k).life = s.life ∧
    (State.advanceNext s k).pp = s.pp ∧ (State.advanceNext s k).cnv = s.cnv ∧ (State.advanceNext s k).chg = s.chg ∧
    (State.advanceNext s k).seq = s.seq ∧ (State.advanceNext s k).pdp = s.pdp ∧ (State.advanceNext s k).lnk = s.lnk ∧
    (State.advanceNext s k).ser = s.ser ∧ (State.advanceNext s k).fab = s.fab ∧ (State.advanceNext s k).chk = s.chk ∧
    (State.advanceNext s k).tkr = s.tkr ∧ (State.advanceNext s k).tlm = s.tlm ∧ (State.advanceNext s k).cal = s.cal ∧
    (State.advanceNext s k).arb = s.arb ∧ (State.advanceNext s k).free = s.free ∧ (State.advanceNext s k).pending = s.pending := by
  unfold State.advanceNext
  (repeat' apply And.intro) <;> (try simp) <;> (repeat' split) <;> (try simp) <;> (try simp_all)
@[simp] theorem State.learnCap_keeps (s : State) (cap : Nat) (serial : Nat) : (State.learnCap s cap serial).part = s.part ∧
    (State.learnCap s cap serial).straps = s.straps ∧ (State.learnCap s cap serial).mode = s.mode ∧
    (State.learnCap s cap serial).life = s.life ∧ (State.learnCap s cap serial).pp = s.pp ∧
    (State.learnCap s cap serial).cnv = s.cnv ∧ (State.learnCap s cap serial).emg = s.emg ∧
    (State.learnCap s cap serial).seq = s.seq ∧ (State.learnCap s cap serial).pdp = s.pdp ∧
    (State.learnCap s cap serial).lnk = s.lnk ∧ (State.learnCap s cap serial).ser = s.ser ∧
    (State.learnCap s cap serial).chk = s.chk ∧ (State.learnCap s cap serial).tlm = s.tlm ∧
    (State.learnCap s cap serial).cal = s.cal ∧ (State.learnCap s cap serial).arb = s.arb ∧
    (State.learnCap s cap serial).free = s.free ∧ (State.learnCap s cap serial).pending = s.pending := by unfold State.learnCap; split <;> simp
@[simp] theorem State.testEndToLead_keeps (s : State) (outcome : Nat) : (State.testEndToLead s outcome).part = s.part ∧
    (State.testEndToLead s outcome).straps = s.straps ∧ (State.testEndToLead s outcome).mode = s.mode ∧
    (State.testEndToLead s outcome).life = s.life ∧ (State.testEndToLead s outcome).regs = s.regs ∧
    (State.testEndToLead s outcome).pp = s.pp ∧ (State.testEndToLead s outcome).cnv = s.cnv ∧
    (State.testEndToLead s outcome).chg = s.chg ∧ (State.testEndToLead s outcome).emg = s.emg ∧
    (State.testEndToLead s outcome).seq = s.seq ∧ (State.testEndToLead s outcome).pdp = s.pdp ∧
    (State.testEndToLead s outcome).ser = s.ser ∧ (State.testEndToLead s outcome).chk = s.chk ∧
    (State.testEndToLead s outcome).tkr = s.tkr ∧ (State.testEndToLead s outcome).tlm = s.tlm ∧
    (State.testEndToLead s outcome).cal = s.cal ∧ (State.testEndToLead s outcome).arb = s.arb ∧
    (State.testEndToLead s outcome).free = s.free ∧ (State.testEndToLead s outcome).pending = s.pending := by unfold State.testEndToLead; (repeat' split) <;> simp
@[simp] theorem State.testClose_keeps (s : State) (outcome : Nat) : (State.testClose s outcome).part = s.part ∧
    (State.testClose s outcome).straps = s.straps ∧ (State.testClose s outcome).mode = s.mode ∧
    (State.testClose s outcome).life = s.life ∧ (State.testClose s outcome).seq = s.seq ∧ (State.testClose s outcome).pdp = s.pdp ∧
    (State.testClose s outcome).ser = s.ser ∧ (State.testClose s outcome).chk = s.chk ∧ (State.testClose s outcome).cal = s.cal ∧
    (State.testClose s outcome).arb = s.arb ∧ (State.testClose s outcome).free = s.free ∧
    (State.testClose s outcome).pending = s.pending := by unfold State.testClose; split <;> simp
@[simp] theorem State.testFault_keeps (s : State) : (State.testFault s).part = s.part ∧ (State.testFault s).straps = s.straps ∧
    (State.testFault s).mode = s.mode ∧ (State.testFault s).life = s.life ∧ (State.testFault s).seq = s.seq ∧
    (State.testFault s).pdp = s.pdp ∧ (State.testFault s).ser = s.ser ∧ (State.testFault s).chk = s.chk ∧
    (State.testFault s).cal = s.cal ∧ (State.testFault s).arb = s.arb ∧ (State.testFault s).free = s.free ∧
    (State.testFault s).pending = s.pending := by simp [State.testFault]
@[simp] theorem State.lowerRail_keeps (s : State) (k : Rail) : (State.lowerRail s k).part = s.part ∧
    (State.lowerRail s k).straps = s.straps ∧ (State.lowerRail s k).mode = s.mode ∧ (State.lowerRail s k).life = s.life ∧
    (State.lowerRail s k).pdp = s.pdp ∧ (State.lowerRail s k).ser = s.ser ∧ (State.lowerRail s k).chk = s.chk ∧
    (State.lowerRail s k).cal = s.cal ∧ (State.lowerRail s k).arb = s.arb ∧ (State.lowerRail s k).free = s.free ∧
    (State.lowerRail s k).pending = s.pending := by simp [State.lowerRail]
@[simp] theorem State.cutoffShip_keeps (s : State) : (State.cutoffShip s).part = s.part ∧ (State.cutoffShip s).straps = s.straps ∧
    (State.cutoffShip s).mode = s.mode ∧ (State.cutoffShip s).regs = s.regs ∧ (State.cutoffShip s).pp = s.pp ∧
    (State.cutoffShip s).cnv = s.cnv ∧ (State.cutoffShip s).chg = s.chg ∧ (State.cutoffShip s).seq = s.seq ∧
    (State.cutoffShip s).lnk = s.lnk ∧ (State.cutoffShip s).ser = s.ser ∧ (State.cutoffShip s).fab = s.fab ∧
    (State.cutoffShip s).chk = s.chk ∧ (State.cutoffShip s).tkr = s.tkr ∧ (State.cutoffShip s).tlm = s.tlm ∧
    (State.cutoffShip s).cal = s.cal ∧ (State.cutoffShip s).arb = s.arb ∧ (State.cutoffShip s).free = s.free ∧
    (State.cutoffShip s).pending = s.pending := by unfold State.cutoffShip; split <;> simp
@[simp] theorem State.seqFinish_keeps (s : State) : (State.seqFinish s).part = s.part ∧ (State.seqFinish s).straps = s.straps ∧
    (State.seqFinish s).mode = s.mode ∧ (State.seqFinish s).regs = s.regs ∧ (State.seqFinish s).pp = s.pp ∧
    (State.seqFinish s).cnv = s.cnv ∧ (State.seqFinish s).chg = s.chg ∧ (State.seqFinish s).lnk = s.lnk ∧
    (State.seqFinish s).ser = s.ser ∧ (State.seqFinish s).chk = s.chk ∧ (State.seqFinish s).tkr = s.tkr ∧
    (State.seqFinish s).tlm = s.tlm ∧ (State.seqFinish s).cal = s.cal ∧ (State.seqFinish s).arb = s.arb ∧
    (State.seqFinish s).free = s.free ∧ (State.seqFinish s).pending = s.pending := by simp [State.seqFinish]
@[simp] theorem State.goDown_keeps (x0 : Nat) (x1 : State) : (State.goDown x0 x1).part = x1.part ∧
    (State.goDown x0 x1).straps = x1.straps ∧ (State.goDown x0 x1).mode = x1.mode ∧ (State.goDown x0 x1).ser = x1.ser ∧
    (State.goDown x0 x1).chk = x1.chk ∧ (State.goDown x0 x1).cal = x1.cal ∧ (State.goDown x0 x1).arb = x1.arb ∧
    (State.goDown x0 x1).free = x1.free ∧ (State.goDown x0 x1).pending = x1.pending := by
  induction x0 generalizing x1 with
  | zero => simp [State.goDown]
  | succ n ih => unfold State.goDown; split <;> (try split) <;> simp [ih]
@[simp] theorem State.shutdownNext_keeps (s : State) : (State.shutdownNext s).part = s.part ∧
    (State.shutdownNext s).straps = s.straps ∧ (State.shutdownNext s).mode = s.mode ∧ (State.shutdownNext s).ser = s.ser ∧
    (State.shutdownNext s).chk = s.chk ∧ (State.shutdownNext s).cal = s.cal ∧ (State.shutdownNext s).arb = s.arb ∧
    (State.shutdownNext s).free = s.free ∧ (State.shutdownNext s).pending = s.pending := by simp [State.shutdownNext]
@[simp] theorem State.resumeDown_keeps (s : State) : (State.resumeDown s).part = s.part ∧ (State.resumeDown s).straps = s.straps ∧
    (State.resumeDown s).mode = s.mode ∧ (State.resumeDown s).ser = s.ser ∧ (State.resumeDown s).chk = s.chk ∧
    (State.resumeDown s).cal = s.cal ∧ (State.resumeDown s).arb = s.arb ∧ (State.resumeDown s).free = s.free ∧
    (State.resumeDown s).pending = s.pending := by unfold State.resumeDown; (repeat' split) <;> simp
@[simp] theorem State.seeSns_keeps (s : State) (k : Rail) (mv : Nat) : (State.seeSns s k mv).part = s.part ∧
    (State.seeSns s k mv).straps = s.straps ∧ (State.seeSns s k mv).mode = s.mode ∧ (State.seeSns s k mv).life = s.life ∧
    (State.seeSns s k mv).regs = s.regs ∧ (State.seeSns s k mv).pp = s.pp ∧ (State.seeSns s k mv).cnv = s.cnv ∧
    (State.seeSns s k mv).chg = s.chg ∧ (State.seeSns s k mv).emg = s.emg ∧ (State.seeSns s k mv).pdp = s.pdp ∧
    (State.seeSns s k mv).lnk = s.lnk ∧ (State.seeSns s k mv).ser = s.ser ∧ (State.seeSns s k mv).fab = s.fab ∧
    (State.seeSns s k mv).chk = s.chk ∧ (State.seeSns s k mv).tkr = s.tkr ∧ (State.seeSns s k mv).tlm = s.tlm ∧
    (State.seeSns s k mv).cal = s.cal ∧ (State.seeSns s k mv).arb = s.arb ∧ (State.seeSns s k mv).free = s.free ∧
    (State.seeSns s k mv).pending = s.pending := by simp [State.seeSns]
@[simp] theorem State.startShutdown_keeps (s : State) (cause : Nat) (latched : Bool) :
    (State.startShutdown s cause latched).part = s.part ∧ (State.startShutdown s cause latched).straps = s.straps ∧
    (State.startShutdown s cause latched).mode = s.mode ∧ (State.startShutdown s cause latched).ser = s.ser ∧
    (State.startShutdown s cause latched).chk = s.chk ∧ (State.startShutdown s cause latched).cal = s.cal ∧
    (State.startShutdown s cause latched).arb = s.arb ∧ (State.startShutdown s cause latched).free = s.free ∧
    (State.startShutdown s cause latched).pending = s.pending := by unfold State.startShutdown; (repeat' split) <;> simp
@[simp] theorem State.latchedCause_keeps (s : State) (cause : Nat) (k : Rail) : (State.latchedCause s cause k).part = s.part ∧
    (State.latchedCause s cause k).straps = s.straps ∧ (State.latchedCause s cause k).mode = s.mode ∧
    (State.latchedCause s cause k).ser = s.ser ∧ (State.latchedCause s cause k).chk = s.chk ∧
    (State.latchedCause s cause k).cal = s.cal ∧ (State.latchedCause s cause k).arb = s.arb ∧
    (State.latchedCause s cause k).free = s.free ∧ (State.latchedCause s cause k).pending = s.pending := by unfold State.latchedCause; (repeat' split) <;> simp
@[simp] theorem State.seqOn_keeps (s : State) : (State.seqOn s).part = s.part ∧ (State.seqOn s).straps = s.straps ∧
    (State.seqOn s).mode = s.mode ∧ (State.seqOn s).life = s.life ∧ (State.seqOn s).regs = s.regs ∧ (State.seqOn s).pp = s.pp ∧
    (State.seqOn s).cnv = s.cnv ∧ (State.seqOn s).chg = s.chg ∧ (State.seqOn s).emg = s.emg ∧ (State.seqOn s).pdp = s.pdp ∧
    (State.seqOn s).lnk = s.lnk ∧ (State.seqOn s).ser = s.ser ∧ (State.seqOn s).chk = s.chk ∧ (State.seqOn s).tkr = s.tkr ∧
    (State.seqOn s).tlm = s.tlm ∧ (State.seqOn s).cal = s.cal ∧ (State.seqOn s).arb = s.arb ∧ (State.seqOn s).free = s.free ∧
    (State.seqOn s).pending = s.pending := by simp [State.seqOn]
@[simp] theorem State.startUp_keeps (s : State) : (State.startUp s).part = s.part ∧ (State.startUp s).straps = s.straps ∧
    (State.startUp s).mode = s.mode ∧ (State.startUp s).life = s.life ∧ (State.startUp s).regs = s.regs ∧
    (State.startUp s).pp = s.pp ∧ (State.startUp s).cnv = s.cnv ∧ (State.startUp s).chg = s.chg ∧ (State.startUp s).emg = s.emg ∧
    (State.startUp s).pdp = s.pdp ∧ (State.startUp s).lnk = s.lnk ∧ (State.startUp s).ser = s.ser ∧ (State.startUp s).chk = s.chk ∧
    (State.startUp s).tkr = s.tkr ∧ (State.startUp s).tlm = s.tlm ∧ (State.startUp s).cal = s.cal ∧ (State.startUp s).arb = s.arb ∧
    (State.startUp s).free = s.free ∧ (State.startUp s).pending = s.pending := by unfold State.startUp; split <;> simp
@[simp] theorem State.autoStart_keeps (s : State) (w : SeqWait) : (State.autoStart s w).part = s.part ∧
    (State.autoStart s w).straps = s.straps ∧ (State.autoStart s w).mode = s.mode ∧ (State.autoStart s w).life = s.life ∧
    (State.autoStart s w).regs = s.regs ∧ (State.autoStart s w).pp = s.pp ∧ (State.autoStart s w).cnv = s.cnv ∧
    (State.autoStart s w).chg = s.chg ∧ (State.autoStart s w).emg = s.emg ∧ (State.autoStart s w).pdp = s.pdp ∧
    (State.autoStart s w).lnk = s.lnk ∧ (State.autoStart s w).ser = s.ser ∧ (State.autoStart s w).chk = s.chk ∧
    (State.autoStart s w).tkr = s.tkr ∧ (State.autoStart s w).tlm = s.tlm ∧ (State.autoStart s w).cal = s.cal ∧
    (State.autoStart s w).arb = s.arb ∧ (State.autoStart s w).free = s.free ∧ (State.autoStart s w).pending = s.pending := by unfold State.autoStart; (repeat' split) <;> simp
@[simp] theorem State.emergencyEnd_keeps (s : State) : (State.emergencyEnd s).part = s.part ∧
    (State.emergencyEnd s).straps = s.straps ∧ (State.emergencyEnd s).mode = s.mode ∧ (State.emergencyEnd s).life = s.life ∧
    (State.emergencyEnd s).regs = s.regs ∧ (State.emergencyEnd s).pp = s.pp ∧ (State.emergencyEnd s).cnv = s.cnv ∧
    (State.emergencyEnd s).chg = s.chg ∧ (State.emergencyEnd s).seq = s.seq ∧ (State.emergencyEnd s).lnk = s.lnk ∧
    (State.emergencyEnd s).ser = s.ser ∧ (State.emergencyEnd s).chk = s.chk ∧ (State.emergencyEnd s).tlm = s.tlm ∧
    (State.emergencyEnd s).cal = s.cal ∧ (State.emergencyEnd s).arb = s.arb ∧ (State.emergencyEnd s).free = s.free ∧
    (State.emergencyEnd s).pending = s.pending := by simp [State.emergencyEnd]
@[simp] theorem State.setPhases_keeps (s : State) (ps : Four PhaseCell) : (State.setPhases s ps).part = s.part ∧
    (State.setPhases s ps).straps = s.straps ∧ (State.setPhases s ps).mode = s.mode ∧ (State.setPhases s ps).life = s.life ∧
    (State.setPhases s ps).seq = s.seq ∧ (State.setPhases s ps).pdp = s.pdp ∧ (State.setPhases s ps).ser = s.ser ∧
    (State.setPhases s ps).chk = s.chk ∧ (State.setPhases s ps).cal = s.cal ∧ (State.setPhases s ps).arb = s.arb ∧
    (State.setPhases s ps).free = s.free ∧ (State.setPhases s ps).pending = s.pending := by
  unfold State.setPhases
  (repeat' apply And.intro) <;> (try simp) <;> (repeat' split) <;> (try simp) <;> (try simp_all)
@[simp] theorem State.captureHeld_keeps (s : State) : (State.captureHeld s).part = s.part ∧
    (State.captureHeld s).straps = s.straps ∧ (State.captureHeld s).mode = s.mode ∧ (State.captureHeld s).life = s.life ∧
    (State.captureHeld s).regs = s.regs ∧ (State.captureHeld s).cnv = s.cnv ∧ (State.captureHeld s).chg = s.chg ∧
    (State.captureHeld s).emg = s.emg ∧ (State.captureHeld s).seq = s.seq ∧ (State.captureHeld s).pdp = s.pdp ∧
    (State.captureHeld s).lnk = s.lnk ∧ (State.captureHeld s).ser = s.ser ∧ (State.captureHeld s).fab = s.fab ∧
    (State.captureHeld s).chk = s.chk ∧ (State.captureHeld s).tkr = s.tkr ∧ (State.captureHeld s).tlm = s.tlm ∧
    (State.captureHeld s).cal = s.cal ∧ (State.captureHeld s).arb = s.arb ∧ (State.captureHeld s).free = s.free ∧
    (State.captureHeld s).pending = s.pending := by simp [State.captureHeld]
@[simp] theorem State.digitalDown_keeps (s : State) : (State.digitalDown s).part = s.part ∧
    (State.digitalDown s).straps = s.straps ∧ (State.digitalDown s).regs = s.regs ∧ (State.digitalDown s).free = s.free ∧
    (State.digitalDown s).pending = s.pending := by simp [State.digitalDown]
@[simp] theorem State.holdEntry_keeps (s : State) (kind : HoldKind) (causes : BitVec 7) :
    (State.holdEntry s kind causes).part = s.part ∧ (State.holdEntry s kind causes).straps = s.straps ∧
    (State.holdEntry s kind causes).regs = s.regs ∧ (State.holdEntry s kind causes).pp = s.pp ∧
    (State.holdEntry s kind causes).cnv = s.cnv ∧ (State.holdEntry s kind causes).chg = s.chg ∧
    (State.holdEntry s kind causes).emg = s.emg ∧ (State.holdEntry s kind causes).seq = s.seq ∧
    (State.holdEntry s kind causes).pdp = s.pdp ∧ (State.holdEntry s kind causes).lnk = s.lnk ∧
    (State.holdEntry s kind causes).ser = s.ser ∧ (State.holdEntry s kind causes).fab = s.fab ∧
    (State.holdEntry s kind causes).chk = s.chk ∧ (State.holdEntry s kind causes).tkr = s.tkr ∧
    (State.holdEntry s kind causes).tlm = s.tlm ∧ (State.holdEntry s kind causes).cal = s.cal ∧
    (State.holdEntry s kind causes).arb = s.arb ∧ (State.holdEntry s kind causes).free = s.free ∧
    (State.holdEntry s kind causes).pending = s.pending := by simp [State.holdEntry]
@[simp] theorem State.powerUpPath_keeps (s : State) : (State.powerUpPath s).part = s.part ∧
    (State.powerUpPath s).straps = s.straps ∧ (State.powerUpPath s).mode = s.mode ∧ (State.powerUpPath s).life = s.life ∧
    (State.powerUpPath s).regs = s.regs ∧ (State.powerUpPath s).emg = s.emg ∧ (State.powerUpPath s).seq = s.seq ∧
    (State.powerUpPath s).pdp = s.pdp ∧ (State.powerUpPath s).lnk = s.lnk ∧ (State.powerUpPath s).ser = s.ser ∧
    (State.powerUpPath s).chk = s.chk ∧ (State.powerUpPath s).tkr = s.tkr ∧ (State.powerUpPath s).cal = s.cal ∧
    (State.powerUpPath s).arb = s.arb ∧ (State.powerUpPath s).free = s.free ∧ (State.powerUpPath s).pending = s.pending := by simp [State.powerUpPath]
@[simp] theorem State.wake_keeps (s : State) (bit : Nat) : (State.wake s bit).part = s.part ∧
    (State.wake s bit).straps = s.straps ∧ (State.wake s bit).regs = s.regs ∧ (State.wake s bit).emg = s.emg ∧
    (State.wake s bit).seq = s.seq ∧ (State.wake s bit).pdp = s.pdp ∧ (State.wake s bit).lnk = s.lnk ∧
    (State.wake s bit).ser = s.ser ∧ (State.wake s bit).chk = s.chk ∧ (State.wake s bit).tkr = s.tkr ∧
    (State.wake s bit).cal = s.cal ∧ (State.wake s bit).arb = s.arb ∧ (State.wake s bit).free = s.free ∧
    (State.wake s bit).pending = s.pending := by unfold State.wake; split <;> simp
@[simp] theorem State.holdDefaults_keeps (s : State) (vbat : Nat) : (State.holdDefaults s vbat).part = s.part ∧
    (State.holdDefaults s vbat).straps = s.straps ∧ (State.holdDefaults s vbat).mode = s.mode ∧
    (State.holdDefaults s vbat).regs = s.regs ∧ (State.holdDefaults s vbat).emg = s.emg ∧ (State.holdDefaults s vbat).seq = s.seq ∧
    (State.holdDefaults s vbat).pdp = s.pdp ∧ (State.holdDefaults s vbat).lnk = s.lnk ∧ (State.holdDefaults s vbat).ser = s.ser ∧
    (State.holdDefaults s vbat).chk = s.chk ∧ (State.holdDefaults s vbat).tkr = s.tkr ∧ (State.holdDefaults s vbat).tlm = s.tlm ∧
    (State.holdDefaults s vbat).cal = s.cal ∧ (State.holdDefaults s vbat).arb = s.arb ∧ (State.holdDefaults s vbat).free = s.free ∧
    (State.holdDefaults s vbat).pending = s.pending := by simp [State.holdDefaults]
@[simp] theorem State.bootRegs_keeps (s : State) : (State.bootRegs s).part = s.part ∧ (State.bootRegs s).straps = s.straps ∧
    (State.bootRegs s).mode = s.mode ∧ (State.bootRegs s).life = s.life ∧ (State.bootRegs s).pp = s.pp ∧
    (State.bootRegs s).cnv = s.cnv ∧ (State.bootRegs s).chg = s.chg ∧ (State.bootRegs s).emg = s.emg ∧
    (State.bootRegs s).seq = s.seq ∧ (State.bootRegs s).pdp = s.pdp ∧ (State.bootRegs s).lnk = s.lnk ∧
    (State.bootRegs s).ser = s.ser ∧ (State.bootRegs s).fab = s.fab ∧ (State.bootRegs s).chk = s.chk ∧
    (State.bootRegs s).tkr = s.tkr ∧ (State.bootRegs s).tlm = s.tlm ∧ (State.bootRegs s).cal = s.cal ∧
    (State.bootRegs s).arb = s.arb ∧ (State.bootRegs s).free = s.free ∧ (State.bootRegs s).pending = s.pending := by simp [State.bootRegs]
@[simp] theorem State.watchdogDown_keeps (s : State) : (State.watchdogDown s).part = s.part ∧
    (State.watchdogDown s).straps = s.straps ∧ (State.watchdogDown s).mode = s.mode ∧ (State.watchdogDown s).pp = s.pp ∧
    (State.watchdogDown s).cnv = s.cnv ∧ (State.watchdogDown s).pdp = s.pdp ∧ (State.watchdogDown s).lnk = s.lnk ∧
    (State.watchdogDown s).ser = s.ser ∧ (State.watchdogDown s).fab = s.fab ∧ (State.watchdogDown s).chk = s.chk ∧
    (State.watchdogDown s).tkr = s.tkr ∧ (State.watchdogDown s).tlm = s.tlm ∧ (State.watchdogDown s).cal = s.cal ∧
    (State.watchdogDown s).arb = s.arb ∧ (State.watchdogDown s).free = s.free ∧ (State.watchdogDown s).pending = s.pending := by simp [State.watchdogDown]
@[simp] theorem State.setStatus_keeps (s : State) (a : Agent) (v : Nat) : (State.setStatus s a v).part = s.part ∧
    (State.setStatus s a v).straps = s.straps ∧ (State.setStatus s a v).mode = s.mode ∧ (State.setStatus s a v).life = s.life ∧
    (State.setStatus s a v).pp = s.pp ∧ (State.setStatus s a v).cnv = s.cnv ∧ (State.setStatus s a v).chg = s.chg ∧
    (State.setStatus s a v).emg = s.emg ∧ (State.setStatus s a v).seq = s.seq ∧ (State.setStatus s a v).pdp = s.pdp ∧
    (State.setStatus s a v).lnk = s.lnk ∧ (State.setStatus s a v).ser = s.ser ∧ (State.setStatus s a v).fab = s.fab ∧
    (State.setStatus s a v).chk = s.chk ∧ (State.setStatus s a v).tkr = s.tkr ∧ (State.setStatus s a v).tlm = s.tlm ∧
    (State.setStatus s a v).cal = s.cal ∧ (State.setStatus s a v).arb = s.arb ∧ (State.setStatus s a v).free = s.free ∧
    (State.setStatus s a v).pending = s.pending := by simp [State.setStatus]
@[simp] theorem State.denied_keeps (s : State) (a : Agent) (acc : Nat) : (State.denied s a acc).part = s.part ∧
    (State.denied s a acc).straps = s.straps ∧ (State.denied s a acc).mode = s.mode ∧ (State.denied s a acc).life = s.life ∧
    (State.denied s a acc).pp = s.pp ∧ (State.denied s a acc).cnv = s.cnv ∧ (State.denied s a acc).chg = s.chg ∧
    (State.denied s a acc).emg = s.emg ∧ (State.denied s a acc).seq = s.seq ∧ (State.denied s a acc).pdp = s.pdp ∧
    (State.denied s a acc).lnk = s.lnk ∧ (State.denied s a acc).ser = s.ser ∧ (State.denied s a acc).chk = s.chk ∧
    (State.denied s a acc).tkr = s.tkr ∧ (State.denied s a acc).tlm = s.tlm ∧ (State.denied s a acc).cal = s.cal ∧
    (State.denied s a acc).arb = s.arb ∧ (State.denied s a acc).free = s.free ∧ (State.denied s a acc).pending = s.pending := by simp [State.denied]
@[simp] theorem State.pecRefused_keeps (s : State) (a : Agent) : (State.pecRefused s a).part = s.part ∧
    (State.pecRefused s a).straps = s.straps ∧ (State.pecRefused s a).mode = s.mode ∧ (State.pecRefused s a).life = s.life ∧
    (State.pecRefused s a).pp = s.pp ∧ (State.pecRefused s a).cnv = s.cnv ∧ (State.pecRefused s a).chg = s.chg ∧
    (State.pecRefused s a).emg = s.emg ∧ (State.pecRefused s a).seq = s.seq ∧ (State.pecRefused s a).pdp = s.pdp ∧
    (State.pecRefused s a).lnk = s.lnk ∧ (State.pecRefused s a).ser = s.ser ∧ (State.pecRefused s a).fab = s.fab ∧
    (State.pecRefused s a).chk = s.chk ∧ (State.pecRefused s a).tkr = s.tkr ∧ (State.pecRefused s a).tlm = s.tlm ∧
    (State.pecRefused s a).cal = s.cal ∧ (State.pecRefused s a).arb = s.arb ∧ (State.pecRefused s a).free = s.free ∧
    (State.pecRefused s a).pending = s.pending := by simp [State.pecRefused]
@[simp] theorem State.setAg_keeps (s : State) (a : Agent) (f : SerAgent → SerAgent) : (State.setAg s a f).part = s.part ∧
    (State.setAg s a f).straps = s.straps ∧ (State.setAg s a f).mode = s.mode ∧ (State.setAg s a f).life = s.life ∧
    (State.setAg s a f).regs = s.regs ∧ (State.setAg s a f).pp = s.pp ∧ (State.setAg s a f).cnv = s.cnv ∧
    (State.setAg s a f).chg = s.chg ∧ (State.setAg s a f).emg = s.emg ∧ (State.setAg s a f).seq = s.seq ∧
    (State.setAg s a f).pdp = s.pdp ∧ (State.setAg s a f).lnk = s.lnk ∧ (State.setAg s a f).fab = s.fab ∧
    (State.setAg s a f).chk = s.chk ∧ (State.setAg s a f).tkr = s.tkr ∧ (State.setAg s a f).tlm = s.tlm ∧
    (State.setAg s a f).cal = s.cal ∧ (State.setAg s a f).arb = s.arb ∧ (State.setAg s a f).free = s.free ∧
    (State.setAg s a f).pending = s.pending := by simp [State.setAg]
@[simp] theorem State.attnSettle_keeps (s : State) : (State.attnSettle s).part = s.part ∧ (State.attnSettle s).straps = s.straps ∧
    (State.attnSettle s).mode = s.mode ∧ (State.attnSettle s).life = s.life ∧ (State.attnSettle s).regs = s.regs ∧
    (State.attnSettle s).pp = s.pp ∧ (State.attnSettle s).cnv = s.cnv ∧ (State.attnSettle s).chg = s.chg ∧
    (State.attnSettle s).emg = s.emg ∧ (State.attnSettle s).seq = s.seq ∧ (State.attnSettle s).pdp = s.pdp ∧
    (State.attnSettle s).lnk = s.lnk ∧ (State.attnSettle s).fab = s.fab ∧ (State.attnSettle s).chk = s.chk ∧
    (State.attnSettle s).tkr = s.tkr ∧ (State.attnSettle s).tlm = s.tlm ∧ (State.attnSettle s).cal = s.cal ∧
    (State.attnSettle s).arb = s.arb ∧ (State.attnSettle s).free = s.free ∧ (State.attnSettle s).pending = s.pending := by simp [State.attnSettle]
@[simp] theorem State.ringDoorbell_keeps (s : State) (a : Agent) (d : Nat) : (State.ringDoorbell s a d).part = s.part ∧
    (State.ringDoorbell s a d).straps = s.straps ∧ (State.ringDoorbell s a d).mode = s.mode ∧
    (State.ringDoorbell s a d).life = s.life ∧ (State.ringDoorbell s a d).regs = s.regs ∧ (State.ringDoorbell s a d).pp = s.pp ∧
    (State.ringDoorbell s a d).cnv = s.cnv ∧ (State.ringDoorbell s a d).chg = s.chg ∧ (State.ringDoorbell s a d).emg = s.emg ∧
    (State.ringDoorbell s a d).seq = s.seq ∧ (State.ringDoorbell s a d).pdp = s.pdp ∧ (State.ringDoorbell s a d).lnk = s.lnk ∧
    (State.ringDoorbell s a d).ser = s.ser ∧ (State.ringDoorbell s a d).chk = s.chk ∧ (State.ringDoorbell s a d).tkr = s.tkr ∧
    (State.ringDoorbell s a d).tlm = s.tlm ∧ (State.ringDoorbell s a d).cal = s.cal ∧ (State.ringDoorbell s a d).arb = s.arb ∧
    (State.ringDoorbell s a d).free = s.free ∧ (State.ringDoorbell s a d).pending = s.pending := by simp [State.ringDoorbell]
@[simp] theorem State.writeAgtCtl_keeps (s : State) (a : Agent) (v : Nat) : (State.writeAgtCtl s a v).part = s.part ∧
    (State.writeAgtCtl s a v).straps = s.straps ∧ (State.writeAgtCtl s a v).mode = s.mode ∧
    (State.writeAgtCtl s a v).life = s.life ∧ (State.writeAgtCtl s a v).pp = s.pp ∧ (State.writeAgtCtl s a v).cnv = s.cnv ∧
    (State.writeAgtCtl s a v).chg = s.chg ∧ (State.writeAgtCtl s a v).emg = s.emg ∧ (State.writeAgtCtl s a v).seq = s.seq ∧
    (State.writeAgtCtl s a v).pdp = s.pdp ∧ (State.writeAgtCtl s a v).lnk = s.lnk ∧ (State.writeAgtCtl s a v).ser = s.ser ∧
    (State.writeAgtCtl s a v).chk = s.chk ∧ (State.writeAgtCtl s a v).tkr = s.tkr ∧ (State.writeAgtCtl s a v).tlm = s.tlm ∧
    (State.writeAgtCtl s a v).cal = s.cal ∧ (State.writeAgtCtl s a v).arb = s.arb ∧ (State.writeAgtCtl s a v).free = s.free ∧
    (State.writeAgtCtl s a v).pending = s.pending := by
  unfold State.writeAgtCtl
  (repeat' apply And.intro) <;> (try simp) <;> (repeat' split) <;> (try simp) <;> (try simp_all)
@[simp] theorem State.startPulse_keeps (s : State) : (State.startPulse s).part = s.part ∧ (State.startPulse s).straps = s.straps ∧
    (State.startPulse s).mode = s.mode ∧ (State.startPulse s).regs = s.regs ∧ (State.startPulse s).pp = s.pp ∧
    (State.startPulse s).cnv = s.cnv ∧ (State.startPulse s).chg = s.chg ∧ (State.startPulse s).emg = s.emg ∧
    (State.startPulse s).seq = s.seq ∧ (State.startPulse s).pdp = s.pdp ∧ (State.startPulse s).lnk = s.lnk ∧
    (State.startPulse s).ser = s.ser ∧ (State.startPulse s).fab = s.fab ∧ (State.startPulse s).chk = s.chk ∧
    (State.startPulse s).tkr = s.tkr ∧ (State.startPulse s).tlm = s.tlm ∧ (State.startPulse s).cal = s.cal ∧
    (State.startPulse s).arb = s.arb ∧ (State.startPulse s).free = s.free ∧ (State.startPulse s).pending = s.pending := by simp [State.startPulse]
@[simp] theorem State.writeRoute_keeps (s : State) (x : Nat) (v : Nat) : (State.writeRoute s x v).part = s.part ∧
    (State.writeRoute s x v).straps = s.straps ∧ (State.writeRoute s x v).mode = s.mode ∧ (State.writeRoute s x v).life = s.life ∧
    (State.writeRoute s x v).pp = s.pp ∧ (State.writeRoute s x v).cnv = s.cnv ∧ (State.writeRoute s x v).chg = s.chg ∧
    (State.writeRoute s x v).emg = s.emg ∧ (State.writeRoute s x v).seq = s.seq ∧ (State.writeRoute s x v).pdp = s.pdp ∧
    (State.writeRoute s x v).lnk = s.lnk ∧ (State.writeRoute s x v).ser = s.ser ∧ (State.writeRoute s x v).fab = s.fab ∧
    (State.writeRoute s x v).chk = s.chk ∧ (State.writeRoute s x v).tkr = s.tkr ∧ (State.writeRoute s x v).tlm = s.tlm ∧
    (State.writeRoute s x v).cal = s.cal ∧ (State.writeRoute s x v).arb = s.arb ∧ (State.writeRoute s x v).free = s.free ∧
    (State.writeRoute s x v).pending = s.pending := by
  unfold State.writeRoute
  (repeat' apply And.intro) <;> (try simp) <;> (repeat' split) <;> (try simp) <;> (try simp_all)
@[simp] theorem State.watchHit_keeps (s : State) (x : Nat) : (State.watchHit s x).part = s.part ∧
    (State.watchHit s x).straps = s.straps ∧ (State.watchHit s x).mode = s.mode ∧ (State.watchHit s x).life = s.life ∧
    (State.watchHit s x).pp = s.pp ∧ (State.watchHit s x).cnv = s.cnv ∧ (State.watchHit s x).chg = s.chg ∧
    (State.watchHit s x).emg = s.emg ∧ (State.watchHit s x).seq = s.seq ∧ (State.watchHit s x).pdp = s.pdp ∧
    (State.watchHit s x).lnk = s.lnk ∧ (State.watchHit s x).ser = s.ser ∧ (State.watchHit s x).chk = s.chk ∧
    (State.watchHit s x).tkr = s.tkr ∧ (State.watchHit s x).tlm = s.tlm ∧ (State.watchHit s x).cal = s.cal ∧
    (State.watchHit s x).arb = s.arb ∧ (State.watchHit s x).free = s.free ∧ (State.watchHit s x).pending = s.pending := by simp [State.watchHit]
@[simp] theorem State.chgWake_keeps (s : State) : (State.chgWake s).part = s.part ∧ (State.chgWake s).straps = s.straps ∧
    (State.chgWake s).regs = s.regs ∧ (State.chgWake s).emg = s.emg ∧ (State.chgWake s).seq = s.seq ∧
    (State.chgWake s).pdp = s.pdp ∧ (State.chgWake s).lnk = s.lnk ∧ (State.chgWake s).ser = s.ser ∧ (State.chgWake s).chk = s.chk ∧
    (State.chgWake s).tkr = s.tkr ∧ (State.chgWake s).cal = s.cal ∧ (State.chgWake s).arb = s.arb ∧
    (State.chgWake s).free = s.free ∧ (State.chgWake s).pending = s.pending := by simp [State.chgWake]
@[simp] theorem State.reloadEmg_keeps (s : State) (typ : Nat) : (State.reloadEmg s typ).part = s.part ∧
    (State.reloadEmg s typ).straps = s.straps ∧ (State.reloadEmg s typ).mode = s.mode ∧ (State.reloadEmg s typ).life = s.life ∧
    (State.reloadEmg s typ).pp = s.pp ∧ (State.reloadEmg s typ).cnv = s.cnv ∧ (State.reloadEmg s typ).chg = s.chg ∧
    (State.reloadEmg s typ).emg = s.emg ∧ (State.reloadEmg s typ).seq = s.seq ∧ (State.reloadEmg s typ).pdp = s.pdp ∧
    (State.reloadEmg s typ).lnk = s.lnk ∧ (State.reloadEmg s typ).ser = s.ser ∧ (State.reloadEmg s typ).fab = s.fab ∧
    (State.reloadEmg s typ).chk = s.chk ∧ (State.reloadEmg s typ).tkr = s.tkr ∧ (State.reloadEmg s typ).tlm = s.tlm ∧
    (State.reloadEmg s typ).cal = s.cal ∧ (State.reloadEmg s typ).arb = s.arb ∧ (State.reloadEmg s typ).free = s.free ∧
    (State.reloadEmg s typ).pending = s.pending := by simp [State.reloadEmg]
@[simp] theorem State.setReserve_keeps (s : State) (avgDis : Nat) : (State.setReserve s avgDis).part = s.part ∧
    (State.setReserve s avgDis).straps = s.straps ∧ (State.setReserve s avgDis).mode = s.mode ∧
    (State.setReserve s avgDis).life = s.life ∧ (State.setReserve s avgDis).pp = s.pp ∧ (State.setReserve s avgDis).cnv = s.cnv ∧
    (State.setReserve s avgDis).chg = s.chg ∧ (State.setReserve s avgDis).emg = s.emg ∧ (State.setReserve s avgDis).seq = s.seq ∧
    (State.setReserve s avgDis).pdp = s.pdp ∧ (State.setReserve s avgDis).lnk = s.lnk ∧ (State.setReserve s avgDis).ser = s.ser ∧
    (State.setReserve s avgDis).chk = s.chk ∧ (State.setReserve s avgDis).tkr = s.tkr ∧ (State.setReserve s avgDis).tlm = s.tlm ∧
    (State.setReserve s avgDis).cal = s.cal ∧ (State.setReserve s avgDis).arb = s.arb ∧ (State.setReserve s avgDis).free = s.free ∧
    (State.setReserve s avgDis).pending = s.pending := by simp [State.setReserve]
@[simp] theorem State.writeChem_keeps (s : State) (v : Nat) : (State.writeChem s v).part = s.part ∧
    (State.writeChem s v).straps = s.straps ∧ (State.writeChem s v).mode = s.mode ∧ (State.writeChem s v).life = s.life ∧
    (State.writeChem s v).seq = s.seq ∧ (State.writeChem s v).pdp = s.pdp ∧ (State.writeChem s v).lnk = s.lnk ∧
    (State.writeChem s v).ser = s.ser ∧ (State.writeChem s v).chk = s.chk ∧ (State.writeChem s v).tkr = s.tkr ∧
    (State.writeChem s v).tlm = s.tlm ∧ (State.writeChem s v).cal = s.cal ∧ (State.writeChem s v).arb = s.arb ∧
    (State.writeChem s v).free = s.free ∧ (State.writeChem s v).pending = s.pending := by
  unfold State.writeChem
  (repeat' apply And.intro) <;> (try simp) <;> (repeat' split) <;> (try simp) <;> (try simp_all)
@[simp] theorem State.chgClear_keeps (s : State) : (State.chgClear s).part = s.part ∧ (State.chgClear s).straps = s.straps ∧
    (State.chgClear s).mode = s.mode ∧ (State.chgClear s).life = s.life ∧ (State.chgClear s).seq = s.seq ∧
    (State.chgClear s).pdp = s.pdp ∧ (State.chgClear s).lnk = s.lnk ∧ (State.chgClear s).ser = s.ser ∧
    (State.chgClear s).chk = s.chk ∧ (State.chgClear s).tlm = s.tlm ∧ (State.chgClear s).cal = s.cal ∧
    (State.chgClear s).arb = s.arb ∧ (State.chgClear s).free = s.free ∧ (State.chgClear s).pending = s.pending := by simp [State.chgClear]
@[simp] theorem State.setSoc_keeps (s : State) (anchored : Bool) : (State.setSoc s anchored).part = s.part ∧
    (State.setSoc s anchored).straps = s.straps ∧ (State.setSoc s anchored).mode = s.mode ∧
    (State.setSoc s anchored).life = s.life ∧ (State.setSoc s anchored).pp = s.pp ∧ (State.setSoc s anchored).cnv = s.cnv ∧
    (State.setSoc s anchored).chg = s.chg ∧ (State.setSoc s anchored).emg = s.emg ∧ (State.setSoc s anchored).seq = s.seq ∧
    (State.setSoc s anchored).pdp = s.pdp ∧ (State.setSoc s anchored).lnk = s.lnk ∧ (State.setSoc s anchored).ser = s.ser ∧
    (State.setSoc s anchored).fab = s.fab ∧ (State.setSoc s anchored).chk = s.chk ∧ (State.setSoc s anchored).tkr = s.tkr ∧
    (State.setSoc s anchored).tlm = s.tlm ∧ (State.setSoc s anchored).cal = s.cal ∧ (State.setSoc s anchored).arb = s.arb ∧
    (State.setSoc s anchored).free = s.free ∧ (State.setSoc s anchored).pending = s.pending := by simp [State.setSoc]
@[simp] theorem State.anchor_keeps (s : State) : (State.anchor s).part = s.part ∧ (State.anchor s).straps = s.straps ∧
    (State.anchor s).mode = s.mode ∧ (State.anchor s).life = s.life ∧ (State.anchor s).pp = s.pp ∧ (State.anchor s).cnv = s.cnv ∧
    (State.anchor s).chg = s.chg ∧ (State.anchor s).seq = s.seq ∧ (State.anchor s).pdp = s.pdp ∧ (State.anchor s).lnk = s.lnk ∧
    (State.anchor s).ser = s.ser ∧ (State.anchor s).chk = s.chk ∧ (State.anchor s).tkr = s.tkr ∧ (State.anchor s).tlm = s.tlm ∧
    (State.anchor s).cal = s.cal ∧ (State.anchor s).arb = s.arb ∧ (State.anchor s).free = s.free ∧
    (State.anchor s).pending = s.pending := by simp [State.anchor]
@[simp] theorem State.chgExpire_keeps (s : State) (counts : Bool) (count : Nat) (limit : Nat) (cause : Nat) :
    (State.chgExpire s counts count limit cause).part = s.part ∧ (State.chgExpire s counts count limit cause).straps = s.straps ∧
    (State.chgExpire s counts count limit cause).seq = s.seq ∧ (State.chgExpire s counts count limit cause).pdp = s.pdp ∧
    (State.chgExpire s counts count limit cause).lnk = s.lnk ∧ (State.chgExpire s counts count limit cause).ser = s.ser ∧
    (State.chgExpire s counts count limit cause).chk = s.chk ∧ (State.chgExpire s counts count limit cause).cal = s.cal ∧
    (State.chgExpire s counts count limit cause).arb = s.arb ∧ (State.chgExpire s counts count limit cause).free = s.free ∧
    (State.chgExpire s counts count limit cause).pending = s.pending := by unfold State.chgExpire; split <;> simp
@[simp] theorem State.removePack_keeps (s : State) : (State.removePack s).part = s.part ∧ (State.removePack s).straps = s.straps ∧
    (State.removePack s).mode = s.mode ∧ (State.removePack s).life = s.life ∧ (State.removePack s).seq = s.seq ∧
    (State.removePack s).pdp = s.pdp ∧ (State.removePack s).lnk = s.lnk ∧ (State.removePack s).ser = s.ser ∧
    (State.removePack s).chk = s.chk ∧ (State.removePack s).tlm = s.tlm ∧ (State.removePack s).cal = s.cal ∧
    (State.removePack s).arb = s.arb ∧ (State.removePack s).free = s.free ∧ (State.removePack s).pending = s.pending := by unfold State.removePack; split <;> simp
@[simp] theorem State.insertPack_keeps (s : State) : (State.insertPack s).part = s.part ∧ (State.insertPack s).straps = s.straps ∧
    (State.insertPack s).mode = s.mode ∧ (State.insertPack s).life = s.life ∧ (State.insertPack s).seq = s.seq ∧
    (State.insertPack s).pdp = s.pdp ∧ (State.insertPack s).lnk = s.lnk ∧ (State.insertPack s).ser = s.ser ∧
    (State.insertPack s).chk = s.chk ∧ (State.insertPack s).cal = s.cal ∧ (State.insertPack s).arb = s.arb ∧
    (State.insertPack s).free = s.free ∧ (State.insertPack s).pending = s.pending := by unfold State.insertPack; split <;> simp
@[simp] theorem State.setTemps_keeps (s : State) (t1 : Option Int) (t2 : Option Int) : (State.setTemps s t1 t2).part = s.part ∧
    (State.setTemps s t1 t2).straps = s.straps ∧ (State.setTemps s t1 t2).mode = s.mode ∧ (State.setTemps s t1 t2).life = s.life ∧
    (State.setTemps s t1 t2).pp = s.pp ∧ (State.setTemps s t1 t2).cnv = s.cnv ∧ (State.setTemps s t1 t2).chg = s.chg ∧
    (State.setTemps s t1 t2).emg = s.emg ∧ (State.setTemps s t1 t2).seq = s.seq ∧ (State.setTemps s t1 t2).pdp = s.pdp ∧
    (State.setTemps s t1 t2).lnk = s.lnk ∧ (State.setTemps s t1 t2).ser = s.ser ∧ (State.setTemps s t1 t2).fab = s.fab ∧
    (State.setTemps s t1 t2).chk = s.chk ∧ (State.setTemps s t1 t2).tkr = s.tkr ∧ (State.setTemps s t1 t2).tlm = s.tlm ∧
    (State.setTemps s t1 t2).cal = s.cal ∧ (State.setTemps s t1 t2).arb = s.arb ∧ (State.setTemps s t1 t2).free = s.free ∧
    (State.setTemps s t1 t2).pending = s.pending := by unfold State.setTemps; (repeat' split) <;> simp
@[simp] theorem State.tempSeen_keeps (s : State) (t1 : Option Int) : (State.tempSeen s t1).part = s.part ∧
    (State.tempSeen s t1).straps = s.straps ∧ (State.tempSeen s t1).mode = s.mode ∧ (State.tempSeen s t1).life = s.life ∧
    (State.tempSeen s t1).regs = s.regs ∧ (State.tempSeen s t1).pp = s.pp ∧ (State.tempSeen s t1).cnv = s.cnv ∧
    (State.tempSeen s t1).chg = s.chg ∧ (State.tempSeen s t1).seq = s.seq ∧ (State.tempSeen s t1).pdp = s.pdp ∧
    (State.tempSeen s t1).lnk = s.lnk ∧ (State.tempSeen s t1).ser = s.ser ∧ (State.tempSeen s t1).fab = s.fab ∧
    (State.tempSeen s t1).chk = s.chk ∧ (State.tempSeen s t1).tkr = s.tkr ∧ (State.tempSeen s t1).cal = s.cal ∧
    (State.tempSeen s t1).arb = s.arb ∧ (State.tempSeen s t1).free = s.free ∧ (State.tempSeen s t1).pending = s.pending := by unfold State.tempSeen; split <;> simp
@[simp] theorem State.ntcMeasured_keeps (s : State) (t1 : Option Int) (t2 : Option Int) :
    (State.ntcMeasured s t1 t2).part = s.part ∧ (State.ntcMeasured s t1 t2).straps = s.straps ∧
    (State.ntcMeasured s t1 t2).mode = s.mode ∧ (State.ntcMeasured s t1 t2).life = s.life ∧
    (State.ntcMeasured s t1 t2).seq = s.seq ∧ (State.ntcMeasured s t1 t2).pdp = s.pdp ∧ (State.ntcMeasured s t1 t2).ser = s.ser ∧
    (State.ntcMeasured s t1 t2).chk = s.chk ∧ (State.ntcMeasured s t1 t2).cal = s.cal ∧ (State.ntcMeasured s t1 t2).arb = s.arb ∧
    (State.ntcMeasured s t1 t2).free = s.free ∧ (State.ntcMeasured s t1 t2).pending = s.pending := by
  unfold State.ntcMeasured
  (repeat' apply And.intro) <;> (try simp) <;> (repeat' split) <;> (try simp) <;> (try simp_all)
@[simp] theorem State.followCharge_keeps (s : State) (dq : Int) : (State.followCharge s dq).part = s.part ∧
    (State.followCharge s dq).straps = s.straps ∧ (State.followCharge s dq).mode = s.mode ∧
    (State.followCharge s dq).life = s.life ∧ (State.followCharge s dq).pp = s.pp ∧ (State.followCharge s dq).cnv = s.cnv ∧
    (State.followCharge s dq).chg = s.chg ∧ (State.followCharge s dq).emg = s.emg ∧ (State.followCharge s dq).seq = s.seq ∧
    (State.followCharge s dq).pdp = s.pdp ∧ (State.followCharge s dq).lnk = s.lnk ∧ (State.followCharge s dq).ser = s.ser ∧
    (State.followCharge s dq).fab = s.fab ∧ (State.followCharge s dq).chk = s.chk ∧ (State.followCharge s dq).tkr = s.tkr ∧
    (State.followCharge s dq).tlm = s.tlm ∧ (State.followCharge s dq).cal = s.cal ∧ (State.followCharge s dq).arb = s.arb ∧
    (State.followCharge s dq).free = s.free ∧ (State.followCharge s dq).pending = s.pending := by simp [State.followCharge]
@[simp] theorem State.histCharge_keeps (s : State) (dq : Int) : (State.histCharge s dq).part = s.part ∧
    (State.histCharge s dq).straps = s.straps ∧ (State.histCharge s dq).mode = s.mode ∧ (State.histCharge s dq).life = s.life ∧
    (State.histCharge s dq).regs = s.regs ∧ (State.histCharge s dq).pp = s.pp ∧ (State.histCharge s dq).cnv = s.cnv ∧
    (State.histCharge s dq).chg = s.chg ∧ (State.histCharge s dq).emg = s.emg ∧ (State.histCharge s dq).seq = s.seq ∧
    (State.histCharge s dq).pdp = s.pdp ∧ (State.histCharge s dq).lnk = s.lnk ∧ (State.histCharge s dq).ser = s.ser ∧
    (State.histCharge s dq).fab = s.fab ∧ (State.histCharge s dq).chk = s.chk ∧ (State.histCharge s dq).tkr = s.tkr ∧
    (State.histCharge s dq).cal = s.cal ∧ (State.histCharge s dq).arb = s.arb ∧ (State.histCharge s dq).free = s.free ∧
    (State.histCharge s dq).pending = s.pending := by simp [State.histCharge]
@[simp] theorem State.gaugeFollow_keeps (s : State) (vbat : Nat) (ma : Int) : (State.gaugeFollow s vbat ma).part = s.part ∧
    (State.gaugeFollow s vbat ma).straps = s.straps ∧ (State.gaugeFollow s vbat ma).mode = s.mode ∧
    (State.gaugeFollow s vbat ma).life = s.life ∧ (State.gaugeFollow s vbat ma).seq = s.seq ∧
    (State.gaugeFollow s vbat ma).pdp = s.pdp ∧ (State.gaugeFollow s vbat ma).lnk = s.lnk ∧
    (State.gaugeFollow s vbat ma).ser = s.ser ∧ (State.gaugeFollow s vbat ma).chk = s.chk ∧
    (State.gaugeFollow s vbat ma).tkr = s.tkr ∧ (State.gaugeFollow s vbat ma).cal = s.cal ∧
    (State.gaugeFollow s vbat ma).arb = s.arb ∧ (State.gaugeFollow s vbat ma).free = s.free ∧
    (State.gaugeFollow s vbat ma).pending = s.pending := by simp [State.gaugeFollow]
@[simp] theorem State.osStatus_keeps (s : State) (a : Agent) (v : Nat) : (State.osStatus s a v).part = s.part ∧
    (State.osStatus s a v).straps = s.straps ∧ (State.osStatus s a v).mode = s.mode ∧ (State.osStatus s a v).life = s.life ∧
    (State.osStatus s a v).pp = s.pp ∧ (State.osStatus s a v).cnv = s.cnv ∧ (State.osStatus s a v).chg = s.chg ∧
    (State.osStatus s a v).emg = s.emg ∧ (State.osStatus s a v).seq = s.seq ∧ (State.osStatus s a v).pdp = s.pdp ∧
    (State.osStatus s a v).lnk = s.lnk ∧ (State.osStatus s a v).ser = s.ser ∧ (State.osStatus s a v).fab = s.fab ∧
    (State.osStatus s a v).chk = s.chk ∧ (State.osStatus s a v).tkr = s.tkr ∧ (State.osStatus s a v).tlm = s.tlm ∧
    (State.osStatus s a v).cal = s.cal ∧ (State.osStatus s a v).arb = s.arb ∧ (State.osStatus s a v).free = s.free ∧
    (State.osStatus s a v).pending = s.pending := by simp [State.osStatus]
@[simp] theorem State.writeOneshot_keeps (s : State) (a : Agent) (v : Nat) : (State.writeOneshot s a v).part = s.part ∧
    (State.writeOneshot s a v).straps = s.straps ∧ (State.writeOneshot s a v).mode = s.mode ∧
    (State.writeOneshot s a v).life = s.life ∧ (State.writeOneshot s a v).pp = s.pp ∧ (State.writeOneshot s a v).cnv = s.cnv ∧
    (State.writeOneshot s a v).chg = s.chg ∧ (State.writeOneshot s a v).emg = s.emg ∧ (State.writeOneshot s a v).seq = s.seq ∧
    (State.writeOneshot s a v).pdp = s.pdp ∧ (State.writeOneshot s a v).lnk = s.lnk ∧ (State.writeOneshot s a v).ser = s.ser ∧
    (State.writeOneshot s a v).fab = s.fab ∧ (State.writeOneshot s a v).chk = s.chk ∧ (State.writeOneshot s a v).tkr = s.tkr ∧
    (State.writeOneshot s a v).cal = s.cal ∧ (State.writeOneshot s a v).arb = s.arb ∧ (State.writeOneshot s a v).free = s.free ∧
    (State.writeOneshot s a v).pending = s.pending := by
  unfold State.writeOneshot
  (repeat' apply And.intro) <;> (try simp) <;> (repeat' split) <;> (try simp) <;> (try simp_all)
@[simp] theorem State.oneshotEnd_keeps (s : State) (a : Agent) (samples : List Int) :
    (State.oneshotEnd s a samples).part = s.part ∧ (State.oneshotEnd s a samples).straps = s.straps ∧
    (State.oneshotEnd s a samples).mode = s.mode ∧ (State.oneshotEnd s a samples).life = s.life ∧
    (State.oneshotEnd s a samples).pp = s.pp ∧ (State.oneshotEnd s a samples).cnv = s.cnv ∧
    (State.oneshotEnd s a samples).chg = s.chg ∧ (State.oneshotEnd s a samples).emg = s.emg ∧
    (State.oneshotEnd s a samples).seq = s.seq ∧ (State.oneshotEnd s a samples).pdp = s.pdp ∧
    (State.oneshotEnd s a samples).lnk = s.lnk ∧ (State.oneshotEnd s a samples).ser = s.ser ∧
    (State.oneshotEnd s a samples).chk = s.chk ∧ (State.oneshotEnd s a samples).tkr = s.tkr ∧
    (State.oneshotEnd s a samples).cal = s.cal ∧ (State.oneshotEnd s a samples).arb = s.arb ∧
    (State.oneshotEnd s a samples).free = s.free ∧ (State.oneshotEnd s a samples).pending = s.pending := by simp [State.oneshotEnd]
@[simp] theorem State.tlmLate_keeps (s : State) : (State.tlmLate s).part = s.part ∧ (State.tlmLate s).straps = s.straps ∧
    (State.tlmLate s).mode = s.mode ∧ (State.tlmLate s).life = s.life ∧ (State.tlmLate s).pp = s.pp ∧
    (State.tlmLate s).cnv = s.cnv ∧ (State.tlmLate s).chg = s.chg ∧ (State.tlmLate s).emg = s.emg ∧ (State.tlmLate s).seq = s.seq ∧
    (State.tlmLate s).pdp = s.pdp ∧ (State.tlmLate s).lnk = s.lnk ∧ (State.tlmLate s).ser = s.ser ∧ (State.tlmLate s).chk = s.chk ∧
    (State.tlmLate s).tkr = s.tkr ∧ (State.tlmLate s).cal = s.cal ∧ (State.tlmLate s).arb = s.arb ∧
    (State.tlmLate s).free = s.free ∧ (State.tlmLate s).pending = s.pending := by simp [State.tlmLate]
@[simp] theorem State.stream_keeps (s : State) (e : Nat) (cfg : Nat) (xs : List Int) : (State.stream s e cfg xs).part = s.part ∧
    (State.stream s e cfg xs).straps = s.straps ∧ (State.stream s e cfg xs).mode = s.mode ∧
    (State.stream s e cfg xs).life = s.life ∧ (State.stream s e cfg xs).regs = s.regs ∧ (State.stream s e cfg xs).pp = s.pp ∧
    (State.stream s e cfg xs).cnv = s.cnv ∧ (State.stream s e cfg xs).chg = s.chg ∧ (State.stream s e cfg xs).emg = s.emg ∧
    (State.stream s e cfg xs).seq = s.seq ∧ (State.stream s e cfg xs).pdp = s.pdp ∧ (State.stream s e cfg xs).lnk = s.lnk ∧
    (State.stream s e cfg xs).ser = s.ser ∧ (State.stream s e cfg xs).chk = s.chk ∧ (State.stream s e cfg xs).tkr = s.tkr ∧
    (State.stream s e cfg xs).cal = s.cal ∧ (State.stream s e cfg xs).arb = s.arb ∧ (State.stream s e cfg xs).free = s.free ∧
    (State.stream s e cfg xs).pending = s.pending := by simp [State.stream]
@[simp] theorem State.limits_keeps (s : State) (e : Nat) (cfg : Nat) (m : Int) : (State.limits s e cfg m).part = s.part ∧
    (State.limits s e cfg m).straps = s.straps ∧ (State.limits s e cfg m).mode = s.mode ∧ (State.limits s e cfg m).life = s.life ∧
    (State.limits s e cfg m).pp = s.pp ∧ (State.limits s e cfg m).cnv = s.cnv ∧ (State.limits s e cfg m).chg = s.chg ∧
    (State.limits s e cfg m).emg = s.emg ∧ (State.limits s e cfg m).seq = s.seq ∧ (State.limits s e cfg m).pdp = s.pdp ∧
    (State.limits s e cfg m).lnk = s.lnk ∧ (State.limits s e cfg m).ser = s.ser ∧ (State.limits s e cfg m).chk = s.chk ∧
    (State.limits s e cfg m).tkr = s.tkr ∧ (State.limits s e cfg m).tlm = s.tlm ∧ (State.limits s e cfg m).cal = s.cal ∧
    (State.limits s e cfg m).arb = s.arb ∧ (State.limits s e cfg m).free = s.free ∧ (State.limits s e cfg m).pending = s.pending := by
  unfold State.limits
  (repeat' apply And.intro) <;> (try simp) <;> (repeat' split) <;> (try simp) <;> (try simp_all)
@[simp] theorem State.histInstant_keeps (s : State) : (State.histInstant s).part = s.part ∧
    (State.histInstant s).straps = s.straps ∧ (State.histInstant s).mode = s.mode ∧ (State.histInstant s).life = s.life ∧
    (State.histInstant s).regs = s.regs ∧ (State.histInstant s).pp = s.pp ∧ (State.histInstant s).cnv = s.cnv ∧
    (State.histInstant s).chg = s.chg ∧ (State.histInstant s).emg = s.emg ∧ (State.histInstant s).seq = s.seq ∧
    (State.histInstant s).pdp = s.pdp ∧ (State.histInstant s).lnk = s.lnk ∧ (State.histInstant s).ser = s.ser ∧
    (State.histInstant s).fab = s.fab ∧ (State.histInstant s).chk = s.chk ∧ (State.histInstant s).tkr = s.tkr ∧
    (State.histInstant s).cal = s.cal ∧ (State.histInstant s).arb = s.arb ∧ (State.histInstant s).free = s.free ∧
    (State.histInstant s).pending = s.pending := by simp [State.histInstant]
@[simp] theorem State.histResult_keeps (s : State) (e : Nat) (m : Int) : (State.histResult s e m).part = s.part ∧
    (State.histResult s e m).straps = s.straps ∧ (State.histResult s e m).mode = s.mode ∧ (State.histResult s e m).life = s.life ∧
    (State.histResult s e m).regs = s.regs ∧ (State.histResult s e m).pp = s.pp ∧ (State.histResult s e m).cnv = s.cnv ∧
    (State.histResult s e m).chg = s.chg ∧ (State.histResult s e m).emg = s.emg ∧ (State.histResult s e m).seq = s.seq ∧
    (State.histResult s e m).pdp = s.pdp ∧ (State.histResult s e m).lnk = s.lnk ∧ (State.histResult s e m).ser = s.ser ∧
    (State.histResult s e m).fab = s.fab ∧ (State.histResult s e m).chk = s.chk ∧ (State.histResult s e m).tkr = s.tkr ∧
    (State.histResult s e m).cal = s.cal ∧ (State.histResult s e m).arb = s.arb ∧ (State.histResult s e m).free = s.free ∧
    (State.histResult s e m).pending = s.pending := by unfold State.histResult; split <;> simp
@[simp] theorem State.histStart_keeps (s : State) : (State.histStart s).part = s.part ∧ (State.histStart s).straps = s.straps ∧
    (State.histStart s).mode = s.mode ∧ (State.histStart s).life = s.life ∧ (State.histStart s).regs = s.regs ∧
    (State.histStart s).pp = s.pp ∧ (State.histStart s).cnv = s.cnv ∧ (State.histStart s).chg = s.chg ∧
    (State.histStart s).emg = s.emg ∧ (State.histStart s).seq = s.seq ∧ (State.histStart s).pdp = s.pdp ∧
    (State.histStart s).lnk = s.lnk ∧ (State.histStart s).ser = s.ser ∧ (State.histStart s).fab = s.fab ∧
    (State.histStart s).chk = s.chk ∧ (State.histStart s).tkr = s.tkr ∧ (State.histStart s).cal = s.cal ∧
    (State.histStart s).arb = s.arb ∧ (State.histStart s).free = s.free ∧ (State.histStart s).pending = s.pending := by simp [State.histStart]
@[simp] theorem State.histEnd_keeps (s : State) : (State.histEnd s).part = s.part ∧ (State.histEnd s).straps = s.straps ∧
    (State.histEnd s).mode = s.mode ∧ (State.histEnd s).life = s.life ∧ (State.histEnd s).regs = s.regs ∧
    (State.histEnd s).pp = s.pp ∧ (State.histEnd s).cnv = s.cnv ∧ (State.histEnd s).chg = s.chg ∧ (State.histEnd s).emg = s.emg ∧
    (State.histEnd s).seq = s.seq ∧ (State.histEnd s).pdp = s.pdp ∧ (State.histEnd s).lnk = s.lnk ∧ (State.histEnd s).ser = s.ser ∧
    (State.histEnd s).fab = s.fab ∧ (State.histEnd s).chk = s.chk ∧ (State.histEnd s).cal = s.cal ∧ (State.histEnd s).arb = s.arb ∧
    (State.histEnd s).pending = s.pending := by simp [State.histEnd]
@[simp] theorem State.writeHistInterval_keeps (s : State) (v : Nat) (secs : Nat) :
    (State.writeHistInterval s v secs).part = s.part ∧ (State.writeHistInterval s v secs).straps = s.straps ∧
    (State.writeHistInterval s v secs).mode = s.mode ∧ (State.writeHistInterval s v secs).life = s.life ∧
    (State.writeHistInterval s v secs).pp = s.pp ∧ (State.writeHistInterval s v secs).cnv = s.cnv ∧
    (State.writeHistInterval s v secs).chg = s.chg ∧ (State.writeHistInterval s v secs).emg = s.emg ∧
    (State.writeHistInterval s v secs).seq = s.seq ∧ (State.writeHistInterval s v secs).pdp = s.pdp ∧
    (State.writeHistInterval s v secs).lnk = s.lnk ∧ (State.writeHistInterval s v secs).ser = s.ser ∧
    (State.writeHistInterval s v secs).fab = s.fab ∧ (State.writeHistInterval s v secs).chk = s.chk ∧
    (State.writeHistInterval s v secs).cal = s.cal ∧ (State.writeHistInterval s v secs).arb = s.arb ∧
    (State.writeHistInterval s v secs).pending = s.pending := by
  unfold State.writeHistInterval
  (repeat' apply And.intro) <;> (try simp) <;> (repeat' split) <;> (try simp) <;> (try simp_all)
@[simp] theorem State.fixedResult_keeps (s : State) (e : Nat) (m : Int) : (State.fixedResult s e m).part = s.part ∧
    (State.fixedResult s e m).straps = s.straps ∧ (State.fixedResult s e m).mode = s.mode ∧ (State.fixedResult s e m).ser = s.ser ∧
    (State.fixedResult s e m).chk = s.chk ∧ (State.fixedResult s e m).cal = s.cal ∧ (State.fixedResult s e m).arb = s.arb ∧
    (State.fixedResult s e m).free = s.free ∧ (State.fixedResult s e m).pending = s.pending := by unfold State.fixedResult; (repeat' split) <;> simp
@[simp] theorem State.landed_keeps (s : State) (inst : Nat × Nat) : (State.landed s inst).part = s.part ∧
    (State.landed s inst).straps = s.straps ∧ (State.landed s inst).mode = s.mode ∧ (State.landed s inst).life = s.life ∧
    (State.landed s inst).regs = s.regs ∧ (State.landed s inst).pp = s.pp ∧ (State.landed s inst).cnv = s.cnv ∧
    (State.landed s inst).chg = s.chg ∧ (State.landed s inst).emg = s.emg ∧ (State.landed s inst).seq = s.seq ∧
    (State.landed s inst).pdp = s.pdp ∧ (State.landed s inst).lnk = s.lnk ∧ (State.landed s inst).ser = s.ser ∧
    (State.landed s inst).fab = s.fab ∧ (State.landed s inst).chk = s.chk ∧ (State.landed s inst).tkr = s.tkr ∧
    (State.landed s inst).cal = s.cal ∧ (State.landed s inst).free = s.free ∧ (State.landed s inst).pending = s.pending := by simp [State.landed]
@[simp] theorem State.telemetryEnd_keeps (s : State) (inst : Nat × Nat) (samples : List Int) :
    (State.telemetryEnd s inst samples).part = s.part ∧ (State.telemetryEnd s inst samples).straps = s.straps ∧
    (State.telemetryEnd s inst samples).mode = s.mode ∧ (State.telemetryEnd s inst samples).ser = s.ser ∧
    (State.telemetryEnd s inst samples).chk = s.chk ∧ (State.telemetryEnd s inst samples).cal = s.cal ∧
    (State.telemetryEnd s inst samples).free = s.free ∧ (State.telemetryEnd s inst samples).pending = s.pending := by unfold State.telemetryEnd; split <;> simp
@[simp] theorem State.writeTlm_keeps (s : State) (i : Nat) (v : Nat) : (State.writeTlm s i v).part = s.part ∧
    (State.writeTlm s i v).straps = s.straps ∧ (State.writeTlm s i v).mode = s.mode ∧ (State.writeTlm s i v).life = s.life ∧
    (State.writeTlm s i v).pp = s.pp ∧ (State.writeTlm s i v).cnv = s.cnv ∧ (State.writeTlm s i v).chg = s.chg ∧
    (State.writeTlm s i v).emg = s.emg ∧ (State.writeTlm s i v).seq = s.seq ∧ (State.writeTlm s i v).pdp = s.pdp ∧
    (State.writeTlm s i v).lnk = s.lnk ∧ (State.writeTlm s i v).ser = s.ser ∧ (State.writeTlm s i v).fab = s.fab ∧
    (State.writeTlm s i v).chk = s.chk ∧ (State.writeTlm s i v).tkr = s.tkr ∧ (State.writeTlm s i v).tlm = s.tlm ∧
    (State.writeTlm s i v).cal = s.cal ∧ (State.writeTlm s i v).arb = s.arb ∧ (State.writeTlm s i v).free = s.free ∧
    (State.writeTlm s i v).pending = s.pending := by simp [State.writeTlm]
@[simp] theorem State.testQueued_keeps (s : State) (u : UnitId) : (State.testQueued s u).part = s.part ∧
    (State.testQueued s u).straps = s.straps ∧ (State.testQueued s u).mode = s.mode ∧ (State.testQueued s u).life = s.life ∧
    (State.testQueued s u).regs = s.regs ∧ (State.testQueued s u).pp = s.pp ∧ (State.testQueued s u).cnv = s.cnv ∧
    (State.testQueued s u).chg = s.chg ∧ (State.testQueued s u).emg = s.emg ∧ (State.testQueued s u).seq = s.seq ∧
    (State.testQueued s u).pdp = s.pdp ∧ (State.testQueued s u).lnk = s.lnk ∧ (State.testQueued s u).ser = s.ser ∧
    (State.testQueued s u).fab = s.fab ∧ (State.testQueued s u).tkr = s.tkr ∧ (State.testQueued s u).tlm = s.tlm ∧
    (State.testQueued s u).cal = s.cal ∧ (State.testQueued s u).free = s.free ∧ (State.testQueued s u).pending = s.pending := by simp [State.testQueued]
@[simp] theorem State.passStart_keeps (s : State) : (State.passStart s).part = s.part ∧ (State.passStart s).straps = s.straps ∧
    (State.passStart s).mode = s.mode ∧ (State.passStart s).life = s.life ∧ (State.passStart s).pp = s.pp ∧
    (State.passStart s).cnv = s.cnv ∧ (State.passStart s).chg = s.chg ∧ (State.passStart s).emg = s.emg ∧
    (State.passStart s).seq = s.seq ∧ (State.passStart s).pdp = s.pdp ∧ (State.passStart s).lnk = s.lnk ∧
    (State.passStart s).ser = s.ser ∧ (State.passStart s).fab = s.fab ∧ (State.passStart s).tkr = s.tkr ∧
    (State.passStart s).tlm = s.tlm ∧ (State.passStart s).free = s.free ∧ (State.passStart s).pending = s.pending := by
  unfold State.passStart
  dsimp only
  (repeat' apply And.intro) <;> simp only [State.testProgress_keeps, State.setReg_keeps] <;>
    exact (foldl_keep _ _ (fun t u => by simp) _ _).trans (by simp)
@[simp] theorem State.calStart_keeps (s : State) : (State.calStart s).part = s.part ∧ (State.calStart s).straps = s.straps ∧
    (State.calStart s).mode = s.mode ∧ (State.calStart s).life = s.life ∧ (State.calStart s).pp = s.pp ∧
    (State.calStart s).cnv = s.cnv ∧ (State.calStart s).chg = s.chg ∧ (State.calStart s).emg = s.emg ∧
    (State.calStart s).seq = s.seq ∧ (State.calStart s).pdp = s.pdp ∧ (State.calStart s).lnk = s.lnk ∧
    (State.calStart s).ser = s.ser ∧ (State.calStart s).fab = s.fab ∧ (State.calStart s).tkr = s.tkr ∧
    (State.calStart s).tlm = s.tlm ∧ (State.calStart s).free = s.free ∧ (State.calStart s).pending = s.pending := by
  unfold State.calStart
  split <;> simp
@[simp] theorem State.storeOffset_keeps (s : State) (p : Fin 8) (uv : Int) : (State.storeOffset s p uv).part = s.part ∧
    (State.storeOffset s p uv).straps = s.straps ∧ (State.storeOffset s p uv).mode = s.mode ∧
    (State.storeOffset s p uv).life = s.life ∧ (State.storeOffset s p uv).pp = s.pp ∧ (State.storeOffset s p uv).cnv = s.cnv ∧
    (State.storeOffset s p uv).chg = s.chg ∧ (State.storeOffset s p uv).emg = s.emg ∧ (State.storeOffset s p uv).seq = s.seq ∧
    (State.storeOffset s p uv).pdp = s.pdp ∧ (State.storeOffset s p uv).lnk = s.lnk ∧ (State.storeOffset s p uv).ser = s.ser ∧
    (State.storeOffset s p uv).fab = s.fab ∧ (State.storeOffset s p uv).chk = s.chk ∧ (State.storeOffset s p uv).tkr = s.tkr ∧
    (State.storeOffset s p uv).tlm = s.tlm ∧ (State.storeOffset s p uv).arb = s.arb ∧ (State.storeOffset s p uv).free = s.free ∧
    (State.storeOffset s p uv).pending = s.pending := by simp [State.storeOffset]
@[simp] theorem State.passEnd_keeps (s : State) (gain : Four Int) (off : Four Int) (ratio : Int) (iin : Int) (ibat : Int) (die : Int) :
    (State.passEnd s gain off ratio iin ibat die).part = s.part ∧ (State.passEnd s gain off ratio iin ibat die).straps = s.straps ∧
    (State.passEnd s gain off ratio iin ibat die).mode = s.mode ∧ (State.passEnd s gain off ratio iin ibat die).life = s.life ∧
    (State.passEnd s gain off ratio iin ibat die).pp = s.pp ∧ (State.passEnd s gain off ratio iin ibat die).cnv = s.cnv ∧
    (State.passEnd s gain off ratio iin ibat die).chg = s.chg ∧ (State.passEnd s gain off ratio iin ibat die).emg = s.emg ∧
    (State.passEnd s gain off ratio iin ibat die).seq = s.seq ∧ (State.passEnd s gain off ratio iin ibat die).pdp = s.pdp ∧
    (State.passEnd s gain off ratio iin ibat die).lnk = s.lnk ∧ (State.passEnd s gain off ratio iin ibat die).ser = s.ser ∧
    (State.passEnd s gain off ratio iin ibat die).tkr = s.tkr ∧ (State.passEnd s gain off ratio iin ibat die).tlm = s.tlm ∧
    (State.passEnd s gain off ratio iin ibat die).free = s.free ∧ (State.passEnd s gain off ratio iin ibat die).pending = s.pending := by unfold State.passEnd; split <;> simp
@[simp] theorem State.passWaits_keeps (s : State) : (State.passWaits s).part = s.part ∧ (State.passWaits s).straps = s.straps ∧
    (State.passWaits s).mode = s.mode ∧ (State.passWaits s).life = s.life ∧ (State.passWaits s).regs = s.regs ∧
    (State.passWaits s).pp = s.pp ∧ (State.passWaits s).cnv = s.cnv ∧ (State.passWaits s).chg = s.chg ∧
    (State.passWaits s).emg = s.emg ∧ (State.passWaits s).seq = s.seq ∧ (State.passWaits s).pdp = s.pdp ∧
    (State.passWaits s).lnk = s.lnk ∧ (State.passWaits s).ser = s.ser ∧ (State.passWaits s).fab = s.fab ∧
    (State.passWaits s).chk = s.chk ∧ (State.passWaits s).tkr = s.tkr ∧ (State.passWaits s).tlm = s.tlm ∧
    (State.passWaits s).cal = s.cal ∧ (State.passWaits s).free = s.free ∧ (State.passWaits s).pending = s.pending := by simp [State.passWaits]
@[simp] theorem State.seqStatus_keeps (s : State) (v : Nat) : (State.seqStatus s v).part = s.part ∧
    (State.seqStatus s v).straps = s.straps ∧ (State.seqStatus s v).mode = s.mode ∧ (State.seqStatus s v).life = s.life ∧
    (State.seqStatus s v).pp = s.pp ∧ (State.seqStatus s v).cnv = s.cnv ∧ (State.seqStatus s v).chg = s.chg ∧
    (State.seqStatus s v).emg = s.emg ∧ (State.seqStatus s v).seq = s.seq ∧ (State.seqStatus s v).pdp = s.pdp ∧
    (State.seqStatus s v).lnk = s.lnk ∧ (State.seqStatus s v).ser = s.ser ∧ (State.seqStatus s v).fab = s.fab ∧
    (State.seqStatus s v).chk = s.chk ∧ (State.seqStatus s v).tkr = s.tkr ∧ (State.seqStatus s v).tlm = s.tlm ∧
    (State.seqStatus s v).cal = s.cal ∧ (State.seqStatus s v).arb = s.arb ∧ (State.seqStatus s v).free = s.free ∧
    (State.seqStatus s v).pending = s.pending := by simp [State.seqStatus]
@[simp] theorem State.continueUp_keeps (s : State) : (State.continueUp s).part = s.part ∧ (State.continueUp s).straps = s.straps ∧
    (State.continueUp s).mode = s.mode ∧ (State.continueUp s).life = s.life ∧ (State.continueUp s).regs = s.regs ∧
    (State.continueUp s).pp = s.pp ∧ (State.continueUp s).cnv = s.cnv ∧ (State.continueUp s).chg = s.chg ∧
    (State.continueUp s).emg = s.emg ∧ (State.continueUp s).pdp = s.pdp ∧ (State.continueUp s).lnk = s.lnk ∧
    (State.continueUp s).ser = s.ser ∧ (State.continueUp s).chk = s.chk ∧ (State.continueUp s).tkr = s.tkr ∧
    (State.continueUp s).tlm = s.tlm ∧ (State.continueUp s).cal = s.cal ∧ (State.continueUp s).arb = s.arb ∧
    (State.continueUp s).free = s.free ∧ (State.continueUp s).pending = s.pending := by unfold State.continueUp; split <;> simp
@[simp] theorem State.dropAll_keeps (s : State) (x1 : List Rail) : (State.dropAll s x1).part = s.part ∧
    (State.dropAll s x1).straps = s.straps ∧ (State.dropAll s x1).mode = s.mode ∧ (State.dropAll s x1).life = s.life ∧
    (State.dropAll s x1).pdp = s.pdp ∧ (State.dropAll s x1).ser = s.ser ∧ (State.dropAll s x1).chk = s.chk ∧
    (State.dropAll s x1).cal = s.cal ∧ (State.dropAll s x1).arb = s.arb ∧ (State.dropAll s x1).free = s.free ∧
    (State.dropAll s x1).pending = s.pending := by
  induction x1 generalizing s with
  | nil => simp [State.dropAll]
  | cons y ys ih => unfold State.dropAll; split <;> simp [ih]
@[simp] theorem State.markFault_keeps (s : State) (k : Rail) (mv : Nat) : (State.markFault s k mv).part = s.part ∧
    (State.markFault s k mv).straps = s.straps ∧ (State.markFault s k mv).mode = s.mode ∧ (State.markFault s k mv).life = s.life ∧
    (State.markFault s k mv).regs = s.regs ∧ (State.markFault s k mv).pp = s.pp ∧ (State.markFault s k mv).cnv = s.cnv ∧
    (State.markFault s k mv).chg = s.chg ∧ (State.markFault s k mv).emg = s.emg ∧ (State.markFault s k mv).pdp = s.pdp ∧
    (State.markFault s k mv).lnk = s.lnk ∧ (State.markFault s k mv).ser = s.ser ∧ (State.markFault s k mv).fab = s.fab ∧
    (State.markFault s k mv).chk = s.chk ∧ (State.markFault s k mv).tkr = s.tkr ∧ (State.markFault s k mv).tlm = s.tlm ∧
    (State.markFault s k mv).cal = s.cal ∧ (State.markFault s k mv).arb = s.arb ∧ (State.markFault s k mv).free = s.free ∧
    (State.markFault s k mv).pending = s.pending := by simp [State.markFault]
@[simp] theorem State.adoptRail_keeps (s : State) (k : Rail) (mv : Nat) : (State.adoptRail s k mv).part = s.part ∧
    (State.adoptRail s k mv).straps = s.straps ∧ (State.adoptRail s k mv).mode = s.mode ∧ (State.adoptRail s k mv).life = s.life ∧
    (State.adoptRail s k mv).regs = s.regs ∧ (State.adoptRail s k mv).pp = s.pp ∧ (State.adoptRail s k mv).cnv = s.cnv ∧
    (State.adoptRail s k mv).chg = s.chg ∧ (State.adoptRail s k mv).emg = s.emg ∧ (State.adoptRail s k mv).pdp = s.pdp ∧
    (State.adoptRail s k mv).lnk = s.lnk ∧ (State.adoptRail s k mv).ser = s.ser ∧ (State.adoptRail s k mv).chk = s.chk ∧
    (State.adoptRail s k mv).tkr = s.tkr ∧ (State.adoptRail s k mv).tlm = s.tlm ∧ (State.adoptRail s k mv).cal = s.cal ∧
    (State.adoptRail s k mv).arb = s.arb ∧ (State.adoptRail s k mv).free = s.free ∧ (State.adoptRail s k mv).pending = s.pending := by
  unfold State.adoptRail
  (repeat' apply And.intro) <;> (try simp) <;> (repeat' split) <;> (try simp) <;> (try simp_all)
@[simp] theorem State.adoptRails_keeps (s : State) (sns : Eight Nat) (x2 : List Rail) : (State.adoptRails s sns x2).part = s.part ∧
    (State.adoptRails s sns x2).straps = s.straps ∧ (State.adoptRails s sns x2).mode = s.mode ∧
    (State.adoptRails s sns x2).life = s.life ∧ (State.adoptRails s sns x2).regs = s.regs ∧ (State.adoptRails s sns x2).pp = s.pp ∧
    (State.adoptRails s sns x2).cnv = s.cnv ∧ (State.adoptRails s sns x2).chg = s.chg ∧ (State.adoptRails s sns x2).emg = s.emg ∧
    (State.adoptRails s sns x2).pdp = s.pdp ∧ (State.adoptRails s sns x2).lnk = s.lnk ∧ (State.adoptRails s sns x2).ser = s.ser ∧
    (State.adoptRails s sns x2).chk = s.chk ∧ (State.adoptRails s sns x2).tkr = s.tkr ∧ (State.adoptRails s sns x2).tlm = s.tlm ∧
    (State.adoptRails s sns x2).cal = s.cal ∧ (State.adoptRails s sns x2).arb = s.arb ∧ (State.adoptRails s sns x2).free = s.free ∧
    (State.adoptRails s sns x2).pending = s.pending := by
  induction x2 generalizing s  with
  | nil => simp [State.adoptRails]
  | cons y ys ih => simp [State.adoptRails, ih]
@[simp] theorem State.afterAdoption_keeps (s : State) : (State.afterAdoption s).part = s.part ∧
    (State.afterAdoption s).straps = s.straps ∧ (State.afterAdoption s).mode = s.mode ∧ (State.afterAdoption s).ser = s.ser ∧
    (State.afterAdoption s).chk = s.chk ∧ (State.afterAdoption s).cal = s.cal ∧ (State.afterAdoption s).arb = s.arb ∧
    (State.afterAdoption s).free = s.free ∧ (State.afterAdoption s).pending = s.pending := by
  unfold State.afterAdoption
  (repeat' apply And.intro) <;> (try simp) <;> (repeat' split) <;> (try simp) <;> (try simp_all)
@[simp] theorem State.adoptFault_keeps (s : State) (k : Rail) : (State.adoptFault s k).part = s.part ∧
    (State.adoptFault s k).straps = s.straps ∧ (State.adoptFault s k).mode = s.mode ∧ (State.adoptFault s k).ser = s.ser ∧
    (State.adoptFault s k).chk = s.chk ∧ (State.adoptFault s k).cal = s.cal ∧ (State.adoptFault s k).arb = s.arb ∧
    (State.adoptFault s k).free = s.free ∧ (State.adoptFault s k).pending = s.pending := by simp [State.adoptFault]
@[simp] theorem State.seeRails_keeps (s : State) (sns : Eight Nat) : (State.seeRails s sns).part = s.part ∧
    (State.seeRails s sns).straps = s.straps ∧ (State.seeRails s sns).mode = s.mode ∧ (State.seeRails s sns).life = s.life ∧
    (State.seeRails s sns).regs = s.regs ∧ (State.seeRails s sns).pp = s.pp ∧ (State.seeRails s sns).cnv = s.cnv ∧
    (State.seeRails s sns).chg = s.chg ∧ (State.seeRails s sns).emg = s.emg ∧ (State.seeRails s sns).pdp = s.pdp ∧
    (State.seeRails s sns).lnk = s.lnk ∧ (State.seeRails s sns).ser = s.ser ∧ (State.seeRails s sns).fab = s.fab ∧
    (State.seeRails s sns).chk = s.chk ∧ (State.seeRails s sns).tkr = s.tkr ∧ (State.seeRails s sns).tlm = s.tlm ∧
    (State.seeRails s sns).cal = s.cal ∧ (State.seeRails s sns).arb = s.arb ∧ (State.seeRails s sns).free = s.free ∧
    (State.seeRails s sns).pending = s.pending := by
  unfold State.seeRails
  (repeat' apply And.intro) <;> exact foldl_keep _ _ (fun t k => by simp) _ _
@[simp] theorem State.adopt_keeps (s : State) (sns : Eight Nat) : (State.adopt s sns).part = s.part ∧
    (State.adopt s sns).straps = s.straps ∧ (State.adopt s sns).mode = s.mode ∧ (State.adopt s sns).ser = s.ser ∧
    (State.adopt s sns).chk = s.chk ∧ (State.adopt s sns).cal = s.cal ∧ (State.adopt s sns).arb = s.arb ∧
    (State.adopt s sns).free = s.free ∧ (State.adopt s sns).pending = s.pending := by
  unfold State.adopt
  (repeat' apply And.intro) <;> (try simp) <;> (repeat' split) <;> (try simp) <;> (try simp_all)
@[simp] theorem State.nextRail_keeps (s : State) (k : Rail) : (State.nextRail s k).part = s.part ∧
    (State.nextRail s k).straps = s.straps ∧ (State.nextRail s k).mode = s.mode ∧ (State.nextRail s k).life = s.life ∧
    (State.nextRail s k).regs = s.regs ∧ (State.nextRail s k).pp = s.pp ∧ (State.nextRail s k).cnv = s.cnv ∧
    (State.nextRail s k).chg = s.chg ∧ (State.nextRail s k).emg = s.emg ∧ (State.nextRail s k).pdp = s.pdp ∧
    (State.nextRail s k).lnk = s.lnk ∧ (State.nextRail s k).ser = s.ser ∧ (State.nextRail s k).chk = s.chk ∧
    (State.nextRail s k).tkr = s.tkr ∧ (State.nextRail s k).tlm = s.tlm ∧ (State.nextRail s k).cal = s.cal ∧
    (State.nextRail s k).arb = s.arb ∧ (State.nextRail s k).free = s.free ∧ (State.nextRail s k).pending = s.pending := by unfold State.nextRail; split <;> simp
@[simp] theorem State.dischWritten_keeps (s : State) (k : Rail) : (State.dischWritten s k).part = s.part ∧
    (State.dischWritten s k).straps = s.straps ∧ (State.dischWritten s k).mode = s.mode ∧ (State.dischWritten s k).ser = s.ser ∧
    (State.dischWritten s k).chk = s.chk ∧ (State.dischWritten s k).cal = s.cal ∧ (State.dischWritten s k).arb = s.arb ∧
    (State.dischWritten s k).free = s.free ∧ (State.dischWritten s k).pending = s.pending := by unfold State.dischWritten; split <;> simp
@[simp] theorem State.powerStatus_keeps (s : State) (v : Nat) : (State.powerStatus s v).part = s.part ∧
    (State.powerStatus s v).straps = s.straps ∧ (State.powerStatus s v).mode = s.mode ∧ (State.powerStatus s v).life = s.life ∧
    (State.powerStatus s v).pp = s.pp ∧ (State.powerStatus s v).cnv = s.cnv ∧ (State.powerStatus s v).chg = s.chg ∧
    (State.powerStatus s v).emg = s.emg ∧ (State.powerStatus s v).seq = s.seq ∧ (State.powerStatus s v).pdp = s.pdp ∧
    (State.powerStatus s v).lnk = s.lnk ∧ (State.powerStatus s v).ser = s.ser ∧ (State.powerStatus s v).fab = s.fab ∧
    (State.powerStatus s v).chk = s.chk ∧ (State.powerStatus s v).tkr = s.tkr ∧ (State.powerStatus s v).tlm = s.tlm ∧
    (State.powerStatus s v).cal = s.cal ∧ (State.powerStatus s v).arb = s.arb ∧ (State.powerStatus s v).free = s.free ∧
    (State.powerStatus s v).pending = s.pending := by simp [State.powerStatus]
@[simp] theorem State.closeLogs_keeps (s : State) : (State.closeLogs s).part = s.part ∧ (State.closeLogs s).straps = s.straps ∧
    (State.closeLogs s).mode = s.mode ∧ (State.closeLogs s).life = s.life ∧ (State.closeLogs s).regs = s.regs ∧
    (State.closeLogs s).pp = s.pp ∧ (State.closeLogs s).cnv = s.cnv ∧ (State.closeLogs s).chg = s.chg ∧
    (State.closeLogs s).emg = s.emg ∧ (State.closeLogs s).seq = s.seq ∧ (State.closeLogs s).pdp = s.pdp ∧
    (State.closeLogs s).lnk = s.lnk ∧ (State.closeLogs s).ser = s.ser ∧ (State.closeLogs s).chk = s.chk ∧
    (State.closeLogs s).cal = s.cal ∧ (State.closeLogs s).arb = s.arb ∧ (State.closeLogs s).pending = s.pending := by simp [State.closeLogs]
@[simp] theorem State.intoShip_keeps (s : State) : (State.intoShip s).part = s.part ∧ (State.intoShip s).straps = s.straps ∧
    (State.intoShip s).regs = s.regs ∧ (State.intoShip s).free = s.free ∧ (State.intoShip s).pending = s.pending := by simp [State.intoShip]
@[simp] theorem State.setPrt_keeps (s : State) (p : Port) (c : PortSt) : (State.setPrt s p c).part = s.part ∧
    (State.setPrt s p c).straps = s.straps ∧ (State.setPrt s p c).mode = s.mode ∧ (State.setPrt s p c).life = s.life ∧
    (State.setPrt s p c).regs = s.regs ∧ (State.setPrt s p c).pp = s.pp ∧ (State.setPrt s p c).cnv = s.cnv ∧
    (State.setPrt s p c).chg = s.chg ∧ (State.setPrt s p c).emg = s.emg ∧ (State.setPrt s p c).seq = s.seq ∧
    (State.setPrt s p c).lnk = s.lnk ∧ (State.setPrt s p c).ser = s.ser ∧ (State.setPrt s p c).fab = s.fab ∧
    (State.setPrt s p c).chk = s.chk ∧ (State.setPrt s p c).tkr = s.tkr ∧ (State.setPrt s p c).tlm = s.tlm ∧
    (State.setPrt s p c).cal = s.cal ∧ (State.setPrt s p c).arb = s.arb ∧ (State.setPrt s p c).free = s.free ∧
    (State.setPrt s p c).pending = s.pending := by simp [State.setPrt]
@[simp] theorem State.setX_keeps (s : State) (p : Port) (x : XCell) : (State.setX s p x).part = s.part ∧
    (State.setX s p x).straps = s.straps ∧ (State.setX s p x).mode = s.mode ∧ (State.setX s p x).life = s.life ∧
    (State.setX s p x).regs = s.regs ∧ (State.setX s p x).pp = s.pp ∧ (State.setX s p x).chg = s.chg ∧
    (State.setX s p x).emg = s.emg ∧ (State.setX s p x).seq = s.seq ∧ (State.setX s p x).pdp = s.pdp ∧
    (State.setX s p x).lnk = s.lnk ∧ (State.setX s p x).ser = s.ser ∧ (State.setX s p x).fab = s.fab ∧
    (State.setX s p x).chk = s.chk ∧ (State.setX s p x).tkr = s.tkr ∧ (State.setX s p x).tlm = s.tlm ∧
    (State.setX s p x).cal = s.cal ∧ (State.setX s p x).arb = s.arb ∧ (State.setX s p x).free = s.free ∧
    (State.setX s p x).pending = s.pending := by simp [State.setX]
@[simp] theorem State.logPd_keeps (s : State) (p : Port) (sent : Bool) (hdr : Nat) (mark : Nat) (objs : List Word32) :
    (State.logPd s p sent hdr mark objs).part = s.part ∧ (State.logPd s p sent hdr mark objs).straps = s.straps ∧
    (State.logPd s p sent hdr mark objs).mode = s.mode ∧ (State.logPd s p sent hdr mark objs).life = s.life ∧
    (State.logPd s p sent hdr mark objs).regs = s.regs ∧ (State.logPd s p sent hdr mark objs).pp = s.pp ∧
    (State.logPd s p sent hdr mark objs).cnv = s.cnv ∧ (State.logPd s p sent hdr mark objs).chg = s.chg ∧
    (State.logPd s p sent hdr mark objs).emg = s.emg ∧ (State.logPd s p sent hdr mark objs).seq = s.seq ∧
    (State.logPd s p sent hdr mark objs).lnk = s.lnk ∧ (State.logPd s p sent hdr mark objs).ser = s.ser ∧
    (State.logPd s p sent hdr mark objs).chk = s.chk ∧ (State.logPd s p sent hdr mark objs).tkr = s.tkr ∧
    (State.logPd s p sent hdr mark objs).tlm = s.tlm ∧ (State.logPd s p sent hdr mark objs).cal = s.cal ∧
    (State.logPd s p sent hdr mark objs).arb = s.arb ∧ (State.logPd s p sent hdr mark objs).free = s.free ∧
    (State.logPd s p sent hdr mark objs).pending = s.pending := by unfold State.logPd; (repeat' split) <;> simp
@[simp] theorem State.pdSendFull_keeps (s : State) (p : Port) (ext : Bool) (typ : Nat) (objs : List Word32) :
    (State.pdSendFull s p ext typ objs).part = s.part ∧ (State.pdSendFull s p ext typ objs).straps = s.straps ∧
    (State.pdSendFull s p ext typ objs).mode = s.mode ∧ (State.pdSendFull s p ext typ objs).life = s.life ∧
    (State.pdSendFull s p ext typ objs).regs = s.regs ∧ (State.pdSendFull s p ext typ objs).pp = s.pp ∧
    (State.pdSendFull s p ext typ objs).cnv = s.cnv ∧ (State.pdSendFull s p ext typ objs).chg = s.chg ∧
    (State.pdSendFull s p ext typ objs).emg = s.emg ∧ (State.pdSendFull s p ext typ objs).seq = s.seq ∧
    (State.pdSendFull s p ext typ objs).lnk = s.lnk ∧ (State.pdSendFull s p ext typ objs).ser = s.ser ∧
    (State.pdSendFull s p ext typ objs).chk = s.chk ∧ (State.pdSendFull s p ext typ objs).tkr = s.tkr ∧
    (State.pdSendFull s p ext typ objs).tlm = s.tlm ∧ (State.pdSendFull s p ext typ objs).cal = s.cal ∧
    (State.pdSendFull s p ext typ objs).arb = s.arb ∧ (State.pdSendFull s p ext typ objs).free = s.free ∧
    (State.pdSendFull s p ext typ objs).pending = s.pending := by simp [State.pdSendFull]
@[simp] theorem State.pdSend_keeps (s : State) (p : Port) (typ : Nat) (objs : List Word32) :
    (State.pdSend s p typ objs).part = s.part ∧ (State.pdSend s p typ objs).straps = s.straps ∧
    (State.pdSend s p typ objs).mode = s.mode ∧ (State.pdSend s p typ objs).life = s.life ∧
    (State.pdSend s p typ objs).regs = s.regs ∧ (State.pdSend s p typ objs).pp = s.pp ∧ (State.pdSend s p typ objs).cnv = s.cnv ∧
    (State.pdSend s p typ objs).chg = s.chg ∧ (State.pdSend s p typ objs).emg = s.emg ∧ (State.pdSend s p typ objs).seq = s.seq ∧
    (State.pdSend s p typ objs).lnk = s.lnk ∧ (State.pdSend s p typ objs).ser = s.ser ∧ (State.pdSend s p typ objs).chk = s.chk ∧
    (State.pdSend s p typ objs).tkr = s.tkr ∧ (State.pdSend s p typ objs).tlm = s.tlm ∧ (State.pdSend s p typ objs).cal = s.cal ∧
    (State.pdSend s p typ objs).arb = s.arb ∧ (State.pdSend s p typ objs).free = s.free ∧
    (State.pdSend s p typ objs).pending = s.pending := by simp [State.pdSend]
@[simp] theorem State.pdRecv_keeps (s : State) (p : Port) (ext : Bool) (typ : Nat) (objs : List Word32) :
    (State.pdRecv s p ext typ objs).part = s.part ∧ (State.pdRecv s p ext typ objs).straps = s.straps ∧
    (State.pdRecv s p ext typ objs).mode = s.mode ∧ (State.pdRecv s p ext typ objs).life = s.life ∧
    (State.pdRecv s p ext typ objs).regs = s.regs ∧ (State.pdRecv s p ext typ objs).pp = s.pp ∧
    (State.pdRecv s p ext typ objs).cnv = s.cnv ∧ (State.pdRecv s p ext typ objs).chg = s.chg ∧
    (State.pdRecv s p ext typ objs).emg = s.emg ∧ (State.pdRecv s p ext typ objs).seq = s.seq ∧
    (State.pdRecv s p ext typ objs).lnk = s.lnk ∧ (State.pdRecv s p ext typ objs).ser = s.ser ∧
    (State.pdRecv s p ext typ objs).chk = s.chk ∧ (State.pdRecv s p ext typ objs).tkr = s.tkr ∧
    (State.pdRecv s p ext typ objs).tlm = s.tlm ∧ (State.pdRecv s p ext typ objs).cal = s.cal ∧
    (State.pdRecv s p ext typ objs).arb = s.arb ∧ (State.pdRecv s p ext typ objs).pending = s.pending := by simp [State.pdRecv]
@[simp] theorem State.pdFresh_keeps (s : State) (p : Port) : (State.pdFresh s p).part = s.part ∧
    (State.pdFresh s p).straps = s.straps ∧ (State.pdFresh s p).mode = s.mode ∧ (State.pdFresh s p).life = s.life ∧
    (State.pdFresh s p).regs = s.regs ∧ (State.pdFresh s p).pp = s.pp ∧ (State.pdFresh s p).cnv = s.cnv ∧
    (State.pdFresh s p).chg = s.chg ∧ (State.pdFresh s p).emg = s.emg ∧ (State.pdFresh s p).seq = s.seq ∧
    (State.pdFresh s p).lnk = s.lnk ∧ (State.pdFresh s p).ser = s.ser ∧ (State.pdFresh s p).fab = s.fab ∧
    (State.pdFresh s p).chk = s.chk ∧ (State.pdFresh s p).tkr = s.tkr ∧ (State.pdFresh s p).tlm = s.tlm ∧
    (State.pdFresh s p).cal = s.cal ∧ (State.pdFresh s p).arb = s.arb ∧ (State.pdFresh s p).free = s.free ∧
    (State.pdFresh s p).pending = s.pending := by simp [State.pdFresh]
@[simp] theorem State.sendCaps_keeps (s : State) (p : Port) (cap : Option Nat) : (State.sendCaps s p cap).part = s.part ∧
    (State.sendCaps s p cap).straps = s.straps ∧ (State.sendCaps s p cap).mode = s.mode ∧ (State.sendCaps s p cap).life = s.life ∧
    (State.sendCaps s p cap).regs = s.regs ∧ (State.sendCaps s p cap).pp = s.pp ∧ (State.sendCaps s p cap).cnv = s.cnv ∧
    (State.sendCaps s p cap).chg = s.chg ∧ (State.sendCaps s p cap).emg = s.emg ∧ (State.sendCaps s p cap).seq = s.seq ∧
    (State.sendCaps s p cap).lnk = s.lnk ∧ (State.sendCaps s p cap).ser = s.ser ∧ (State.sendCaps s p cap).chk = s.chk ∧
    (State.sendCaps s p cap).tkr = s.tkr ∧ (State.sendCaps s p cap).tlm = s.tlm ∧ (State.sendCaps s p cap).cal = s.cal ∧
    (State.sendCaps s p cap).arb = s.arb ∧ (State.sendCaps s p cap).free = s.free ∧ (State.sendCaps s p cap).pending = s.pending := by simp [State.sendCaps]
@[simp] theorem State.showBudget_keeps (s : State) (p : Port) (w : Int) : (State.showBudget s p w).part = s.part ∧
    (State.showBudget s p w).straps = s.straps ∧ (State.showBudget s p w).mode = s.mode ∧ (State.showBudget s p w).life = s.life ∧
    (State.showBudget s p w).pp = s.pp ∧ (State.showBudget s p w).cnv = s.cnv ∧ (State.showBudget s p w).chg = s.chg ∧
    (State.showBudget s p w).emg = s.emg ∧ (State.showBudget s p w).seq = s.seq ∧ (State.showBudget s p w).pdp = s.pdp ∧
    (State.showBudget s p w).lnk = s.lnk ∧ (State.showBudget s p w).ser = s.ser ∧ (State.showBudget s p w).fab = s.fab ∧
    (State.showBudget s p w).chk = s.chk ∧ (State.showBudget s p w).tkr = s.tkr ∧ (State.showBudget s p w).tlm = s.tlm ∧
    (State.showBudget s p w).cal = s.cal ∧ (State.showBudget s p w).arb = s.arb ∧ (State.showBudget s p w).free = s.free ∧
    (State.showBudget s p w).pending = s.pending := by simp [State.showBudget]
@[simp] theorem State.sendRequest_keeps (s : State) (p : Port) : (State.sendRequest s p).part = s.part ∧
    (State.sendRequest s p).straps = s.straps ∧ (State.sendRequest s p).mode = s.mode ∧ (State.sendRequest s p).life = s.life ∧
    (State.sendRequest s p).regs = s.regs ∧ (State.sendRequest s p).pp = s.pp ∧ (State.sendRequest s p).cnv = s.cnv ∧
    (State.sendRequest s p).chg = s.chg ∧ (State.sendRequest s p).emg = s.emg ∧ (State.sendRequest s p).seq = s.seq ∧
    (State.sendRequest s p).lnk = s.lnk ∧ (State.sendRequest s p).ser = s.ser ∧ (State.sendRequest s p).chk = s.chk ∧
    (State.sendRequest s p).tkr = s.tkr ∧ (State.sendRequest s p).tlm = s.tlm ∧ (State.sendRequest s p).cal = s.cal ∧
    (State.sendRequest s p).arb = s.arb ∧ (State.sendRequest s p).free = s.free ∧ (State.sendRequest s p).pending = s.pending := by unfold State.sendRequest; split <;> simp
@[simp] theorem State.setPortLim_keeps (s : State) (p : Port) (v : Nat) : (State.setPortLim s p v).part = s.part ∧
    (State.setPortLim s p v).straps = s.straps ∧ (State.setPortLim s p v).mode = s.mode ∧ (State.setPortLim s p v).life = s.life ∧
    (State.setPortLim s p v).regs = s.regs ∧ (State.setPortLim s p v).cnv = s.cnv ∧ (State.setPortLim s p v).chg = s.chg ∧
    (State.setPortLim s p v).emg = s.emg ∧ (State.setPortLim s p v).seq = s.seq ∧ (State.setPortLim s p v).pdp = s.pdp ∧
    (State.setPortLim s p v).lnk = s.lnk ∧ (State.setPortLim s p v).ser = s.ser ∧ (State.setPortLim s p v).fab = s.fab ∧
    (State.setPortLim s p v).chk = s.chk ∧ (State.setPortLim s p v).tkr = s.tkr ∧ (State.setPortLim s p v).tlm = s.tlm ∧
    (State.setPortLim s p v).cal = s.cal ∧ (State.setPortLim s p v).arb = s.arb ∧ (State.setPortLim s p v).free = s.free ∧
    (State.setPortLim s p v).pending = s.pending := by simp [State.setPortLim]
@[simp] theorem State.contractNow_keeps (s : State) (p : Port) : (State.contractNow s p).part = s.part ∧
    (State.contractNow s p).straps = s.straps ∧ (State.contractNow s p).mode = s.mode ∧ (State.contractNow s p).life = s.life ∧
    (State.contractNow s p).regs = s.regs ∧ (State.contractNow s p).cnv = s.cnv ∧ (State.contractNow s p).chg = s.chg ∧
    (State.contractNow s p).emg = s.emg ∧ (State.contractNow s p).seq = s.seq ∧ (State.contractNow s p).lnk = s.lnk ∧
    (State.contractNow s p).ser = s.ser ∧ (State.contractNow s p).chk = s.chk ∧ (State.contractNow s p).tkr = s.tkr ∧
    (State.contractNow s p).tlm = s.tlm ∧ (State.contractNow s p).cal = s.cal ∧ (State.contractNow s p).arb = s.arb ∧
    (State.contractNow s p).free = s.free ∧ (State.contractNow s p).pending = s.pending := by
  unfold State.contractNow
  (repeat' apply And.intro) <;> (try simp) <;> (repeat' split) <;> (try simp) <;> (try simp_all)
@[simp] theorem State.xStop_keeps (s : State) (p : Port) : (State.xStop s p).part = s.part ∧ (State.xStop s p).straps = s.straps ∧
    (State.xStop s p).mode = s.mode ∧ (State.xStop s p).life = s.life ∧ (State.xStop s p).regs = s.regs ∧
    (State.xStop s p).pp = s.pp ∧ (State.xStop s p).chg = s.chg ∧ (State.xStop s p).emg = s.emg ∧ (State.xStop s p).seq = s.seq ∧
    (State.xStop s p).lnk = s.lnk ∧ (State.xStop s p).ser = s.ser ∧ (State.xStop s p).fab = s.fab ∧ (State.xStop s p).chk = s.chk ∧
    (State.xStop s p).tkr = s.tkr ∧ (State.xStop s p).tlm = s.tlm ∧ (State.xStop s p).cal = s.cal ∧ (State.xStop s p).arb = s.arb ∧
    (State.xStop s p).free = s.free ∧ (State.xStop s p).pending = s.pending := by simp [State.xStop]
@[simp] theorem State.xOff_keeps (s : State) (p : Port) : (State.xOff s p).part = s.part ∧ (State.xOff s p).straps = s.straps ∧
    (State.xOff s p).mode = s.mode ∧ (State.xOff s p).life = s.life ∧ (State.xOff s p).regs = s.regs ∧ (State.xOff s p).pp = s.pp ∧
    (State.xOff s p).chg = s.chg ∧ (State.xOff s p).emg = s.emg ∧ (State.xOff s p).seq = s.seq ∧ (State.xOff s p).lnk = s.lnk ∧
    (State.xOff s p).ser = s.ser ∧ (State.xOff s p).fab = s.fab ∧ (State.xOff s p).chk = s.chk ∧ (State.xOff s p).tkr = s.tkr ∧
    (State.xOff s p).tlm = s.tlm ∧ (State.xOff s p).cal = s.cal ∧ (State.xOff s p).arb = s.arb ∧ (State.xOff s p).free = s.free ∧
    (State.xOff s p).pending = s.pending := by simp [State.xOff]
@[simp] theorem State.xOn_keeps (s : State) (p : Port) (mv : Nat) (ma : Nat) : (State.xOn s p mv ma).part = s.part ∧
    (State.xOn s p mv ma).straps = s.straps ∧ (State.xOn s p mv ma).mode = s.mode ∧ (State.xOn s p mv ma).life = s.life ∧
    (State.xOn s p mv ma).regs = s.regs ∧ (State.xOn s p mv ma).pp = s.pp ∧ (State.xOn s p mv ma).chg = s.chg ∧
    (State.xOn s p mv ma).emg = s.emg ∧ (State.xOn s p mv ma).seq = s.seq ∧ (State.xOn s p mv ma).pdp = s.pdp ∧
    (State.xOn s p mv ma).lnk = s.lnk ∧ (State.xOn s p mv ma).ser = s.ser ∧ (State.xOn s p mv ma).fab = s.fab ∧
    (State.xOn s p mv ma).chk = s.chk ∧ (State.xOn s p mv ma).tkr = s.tkr ∧ (State.xOn s p mv ma).tlm = s.tlm ∧
    (State.xOn s p mv ma).cal = s.cal ∧ (State.xOn s p mv ma).arb = s.arb ∧ (State.xOn s p mv ma).free = s.free ∧
    (State.xOn s p mv ma).pending = s.pending := by
  unfold State.xOn
  (repeat' apply And.intro) <;> (try simp) <;> (repeat' split) <;> (try simp) <;> (try simp_all)
@[simp] theorem State.idleX_keeps (s : State) (p : Port) : (State.idleX s p).part = s.part ∧ (State.idleX s p).straps = s.straps ∧
    (State.idleX s p).mode = s.mode ∧ (State.idleX s p).life = s.life ∧ (State.idleX s p).regs = s.regs ∧
    (State.idleX s p).pp = s.pp ∧ (State.idleX s p).chg = s.chg ∧ (State.idleX s p).emg = s.emg ∧ (State.idleX s p).seq = s.seq ∧
    (State.idleX s p).lnk = s.lnk ∧ (State.idleX s p).ser = s.ser ∧ (State.idleX s p).fab = s.fab ∧ (State.idleX s p).chk = s.chk ∧
    (State.idleX s p).tkr = s.tkr ∧ (State.idleX s p).tlm = s.tlm ∧ (State.idleX s p).cal = s.cal ∧ (State.idleX s p).arb = s.arb ∧
    (State.idleX s p).free = s.free ∧ (State.idleX s p).pending = s.pending := by unfold State.idleX; split <;> simp
@[simp] theorem State.hardReset_keeps (s : State) (p : Port) (sent : Bool) : (State.hardReset s p sent).part = s.part ∧
    (State.hardReset s p sent).straps = s.straps ∧ (State.hardReset s p sent).mode = s.mode ∧
    (State.hardReset s p sent).life = s.life ∧ (State.hardReset s p sent).chg = s.chg ∧ (State.hardReset s p sent).emg = s.emg ∧
    (State.hardReset s p sent).seq = s.seq ∧ (State.hardReset s p sent).lnk = s.lnk ∧ (State.hardReset s p sent).ser = s.ser ∧
    (State.hardReset s p sent).chk = s.chk ∧ (State.hardReset s p sent).tkr = s.tkr ∧ (State.hardReset s p sent).tlm = s.tlm ∧
    (State.hardReset s p sent).cal = s.cal ∧ (State.hardReset s p sent).arb = s.arb ∧ (State.hardReset s p sent).free = s.free ∧
    (State.hardReset s p sent).pending = s.pending := by
  unfold State.hardReset
  (repeat' apply And.intro) <;> (try simp) <;> (repeat' split) <;> (try simp) <;> (try simp_all)
@[simp] theorem State.takeSettings_keeps (s : State) (p : Port) : (State.takeSettings s p).part = s.part ∧
    (State.takeSettings s p).straps = s.straps ∧ (State.takeSettings s p).mode = s.mode ∧ (State.takeSettings s p).life = s.life ∧
    (State.takeSettings s p).regs = s.regs ∧ (State.takeSettings s p).pp = s.pp ∧ (State.takeSettings s p).cnv = s.cnv ∧
    (State.takeSettings s p).chg = s.chg ∧ (State.takeSettings s p).emg = s.emg ∧ (State.takeSettings s p).seq = s.seq ∧
    (State.takeSettings s p).lnk = s.lnk ∧ (State.takeSettings s p).ser = s.ser ∧ (State.takeSettings s p).fab = s.fab ∧
    (State.takeSettings s p).chk = s.chk ∧ (State.takeSettings s p).tkr = s.tkr ∧ (State.takeSettings s p).tlm = s.tlm ∧
    (State.takeSettings s p).cal = s.cal ∧ (State.takeSettings s p).arb = s.arb ∧ (State.takeSettings s p).free = s.free ∧
    (State.takeSettings s p).pending = s.pending := by simp [State.takeSettings]
@[simp] theorem State.unattach_keeps (s : State) (p : Port) : (State.unattach s p).part = s.part ∧
    (State.unattach s p).straps = s.straps ∧ (State.unattach s p).mode = s.mode ∧ (State.unattach s p).life = s.life ∧
    (State.unattach s p).regs = s.regs ∧ (State.unattach s p).pp = s.pp ∧ (State.unattach s p).cnv = s.cnv ∧
    (State.unattach s p).chg = s.chg ∧ (State.unattach s p).emg = s.emg ∧ (State.unattach s p).seq = s.seq ∧
    (State.unattach s p).lnk = s.lnk ∧ (State.unattach s p).ser = s.ser ∧ (State.unattach s p).fab = s.fab ∧
    (State.unattach s p).chk = s.chk ∧ (State.unattach s p).tkr = s.tkr ∧ (State.unattach s p).tlm = s.tlm ∧
    (State.unattach s p).cal = s.cal ∧ (State.unattach s p).arb = s.arb ∧ (State.unattach s p).free = s.free ∧
    (State.unattach s p).pending = s.pending := by simp [State.unattach]
@[simp] theorem State.cutPort_keeps (s : State) (p : Port) (by_ : CutBy) : (State.cutPort s p by_).part = s.part ∧
    (State.cutPort s p by_).straps = s.straps ∧ (State.cutPort s p by_).mode = s.mode ∧ (State.cutPort s p by_).life = s.life ∧
    (State.cutPort s p by_).chg = s.chg ∧ (State.cutPort s p by_).emg = s.emg ∧ (State.cutPort s p by_).seq = s.seq ∧
    (State.cutPort s p by_).lnk = s.lnk ∧ (State.cutPort s p by_).ser = s.ser ∧ (State.cutPort s p by_).chk = s.chk ∧
    (State.cutPort s p by_).tkr = s.tkr ∧ (State.cutPort s p by_).tlm = s.tlm ∧ (State.cutPort s p by_).cal = s.cal ∧
    (State.cutPort s p by_).arb = s.arb ∧ (State.cutPort s p by_).free = s.free ∧ (State.cutPort s p by_).pending = s.pending := by simp [State.cutPort]
@[simp] theorem State.xStopAlert_keeps (s : State) (p : Port) (fault : Nat) : (State.xStopAlert s p fault).part = s.part ∧
    (State.xStopAlert s p fault).straps = s.straps ∧ (State.xStopAlert s p fault).mode = s.mode ∧
    (State.xStopAlert s p fault).life = s.life ∧ (State.xStopAlert s p fault).chg = s.chg ∧
    (State.xStopAlert s p fault).emg = s.emg ∧ (State.xStopAlert s p fault).seq = s.seq ∧
    (State.xStopAlert s p fault).lnk = s.lnk ∧ (State.xStopAlert s p fault).ser = s.ser ∧
    (State.xStopAlert s p fault).chk = s.chk ∧ (State.xStopAlert s p fault).tkr = s.tkr ∧
    (State.xStopAlert s p fault).tlm = s.tlm ∧ (State.xStopAlert s p fault).cal = s.cal ∧
    (State.xStopAlert s p fault).arb = s.arb ∧ (State.xStopAlert s p fault).free = s.free ∧
    (State.xStopAlert s p fault).pending = s.pending := by
  unfold State.xStopAlert
  (repeat' apply And.intro) <;> (try simp) <;> (repeat' split) <;> (try simp) <;> (try simp_all)
@[simp] theorem State.readvertise_keeps (s : State) (p : Port) : (State.readvertise s p).part = s.part ∧
    (State.readvertise s p).straps = s.straps ∧ (State.readvertise s p).mode = s.mode ∧ (State.readvertise s p).life = s.life ∧
    (State.readvertise s p).regs = s.regs ∧ (State.readvertise s p).pp = s.pp ∧ (State.readvertise s p).cnv = s.cnv ∧
    (State.readvertise s p).chg = s.chg ∧ (State.readvertise s p).emg = s.emg ∧ (State.readvertise s p).seq = s.seq ∧
    (State.readvertise s p).lnk = s.lnk ∧ (State.readvertise s p).ser = s.ser ∧ (State.readvertise s p).chk = s.chk ∧
    (State.readvertise s p).tkr = s.tkr ∧ (State.readvertise s p).tlm = s.tlm ∧ (State.readvertise s p).cal = s.cal ∧
    (State.readvertise s p).arb = s.arb ∧ (State.readvertise s p).free = s.free ∧ (State.readvertise s p).pending = s.pending := by
  unfold State.readvertise
  (repeat' apply And.intro) <;> (try simp) <;> (repeat' split) <;> (try simp) <;> (try simp_all)
@[simp] theorem State.sendSoftReset_keeps (s : State) (p : Port) : (State.sendSoftReset s p).part = s.part ∧
    (State.sendSoftReset s p).straps = s.straps ∧ (State.sendSoftReset s p).mode = s.mode ∧
    (State.sendSoftReset s p).life = s.life ∧ (State.sendSoftReset s p).regs = s.regs ∧ (State.sendSoftReset s p).pp = s.pp ∧
    (State.sendSoftReset s p).chg = s.chg ∧ (State.sendSoftReset s p).emg = s.emg ∧ (State.sendSoftReset s p).seq = s.seq ∧
    (State.sendSoftReset s p).lnk = s.lnk ∧ (State.sendSoftReset s p).ser = s.ser ∧ (State.sendSoftReset s p).chk = s.chk ∧
    (State.sendSoftReset s p).tkr = s.tkr ∧ (State.sendSoftReset s p).tlm = s.tlm ∧ (State.sendSoftReset s p).cal = s.cal ∧
    (State.sendSoftReset s p).arb = s.arb ∧ (State.sendSoftReset s p).free = s.free ∧ (State.sendSoftReset s p).pending = s.pending := by simp [State.sendSoftReset]
@[simp] theorem State.hardTimeout_keeps (s : State) (p : Port) : (State.hardTimeout s p).part = s.part ∧
    (State.hardTimeout s p).straps = s.straps ∧ (State.hardTimeout s p).mode = s.mode ∧ (State.hardTimeout s p).life = s.life ∧
    (State.hardTimeout s p).chg = s.chg ∧ (State.hardTimeout s p).emg = s.emg ∧ (State.hardTimeout s p).seq = s.seq ∧
    (State.hardTimeout s p).lnk = s.lnk ∧ (State.hardTimeout s p).ser = s.ser ∧ (State.hardTimeout s p).chk = s.chk ∧
    (State.hardTimeout s p).tkr = s.tkr ∧ (State.hardTimeout s p).tlm = s.tlm ∧ (State.hardTimeout s p).cal = s.cal ∧
    (State.hardTimeout s p).arb = s.arb ∧ (State.hardTimeout s p).free = s.free ∧ (State.hardTimeout s p).pending = s.pending := by
  unfold State.hardTimeout
  (repeat' apply And.intro) <;> (try simp) <;> (repeat' split) <;> (try simp) <;> (try simp_all)
@[simp] theorem State.attachAs_keeps (s : State) (p : Port) (source : Bool) (cc2 : Bool) (rp : Nat) (rev : Nat) :
    (State.attachAs s p source cc2 rp rev).part = s.part ∧ (State.attachAs s p source cc2 rp rev).straps = s.straps ∧
    (State.attachAs s p source cc2 rp rev).mode = s.mode ∧ (State.attachAs s p source cc2 rp rev).life = s.life ∧
    (State.attachAs s p source cc2 rp rev).regs = s.regs ∧ (State.attachAs s p source cc2 rp rev).emg = s.emg ∧
    (State.attachAs s p source cc2 rp rev).seq = s.seq ∧ (State.attachAs s p source cc2 rp rev).lnk = s.lnk ∧
    (State.attachAs s p source cc2 rp rev).ser = s.ser ∧ (State.attachAs s p source cc2 rp rev).chk = s.chk ∧
    (State.attachAs s p source cc2 rp rev).tkr = s.tkr ∧ (State.attachAs s p source cc2 rp rev).cal = s.cal ∧
    (State.attachAs s p source cc2 rp rev).arb = s.arb ∧ (State.attachAs s p source cc2 rp rev).free = s.free ∧
    (State.attachAs s p source cc2 rp rev).pending = s.pending := by unfold State.attachAs; split <;> simp
@[simp] theorem State.detached_keeps (s : State) (p : Port) : (State.detached s p).part = s.part ∧
    (State.detached s p).straps = s.straps ∧ (State.detached s p).mode = s.mode ∧ (State.detached s p).life = s.life ∧
    (State.detached s p).regs = s.regs ∧ (State.detached s p).emg = s.emg ∧ (State.detached s p).seq = s.seq ∧
    (State.detached s p).lnk = s.lnk ∧ (State.detached s p).ser = s.ser ∧ (State.detached s p).chk = s.chk ∧
    (State.detached s p).tkr = s.tkr ∧ (State.detached s p).cal = s.cal ∧ (State.detached s p).arb = s.arb ∧
    (State.detached s p).free = s.free ∧ (State.detached s p).pending = s.pending := by simp [State.detached]
@[simp] theorem State.sourceOn_keeps (s : State) (p : Port) : (State.sourceOn s p).part = s.part ∧
    (State.sourceOn s p).straps = s.straps ∧ (State.sourceOn s p).mode = s.mode ∧ (State.sourceOn s p).life = s.life ∧
    (State.sourceOn s p).regs = s.regs ∧ (State.sourceOn s p).pp = s.pp ∧ (State.sourceOn s p).chg = s.chg ∧
    (State.sourceOn s p).emg = s.emg ∧ (State.sourceOn s p).seq = s.seq ∧ (State.sourceOn s p).lnk = s.lnk ∧
    (State.sourceOn s p).ser = s.ser ∧ (State.sourceOn s p).fab = s.fab ∧ (State.sourceOn s p).chk = s.chk ∧
    (State.sourceOn s p).tkr = s.tkr ∧ (State.sourceOn s p).tlm = s.tlm ∧ (State.sourceOn s p).cal = s.cal ∧
    (State.sourceOn s p).arb = s.arb ∧ (State.sourceOn s p).free = s.free ∧ (State.sourceOn s p).pending = s.pending := by simp [State.sourceOn]
@[simp] theorem State.becomeSink_keeps (s : State) (p : Port) : (State.becomeSink s p).part = s.part ∧
    (State.becomeSink s p).straps = s.straps ∧ (State.becomeSink s p).mode = s.mode ∧ (State.becomeSink s p).life = s.life ∧
    (State.becomeSink s p).regs = s.regs ∧ (State.becomeSink s p).cnv = s.cnv ∧ (State.becomeSink s p).chg = s.chg ∧
    (State.becomeSink s p).emg = s.emg ∧ (State.becomeSink s p).seq = s.seq ∧ (State.becomeSink s p).lnk = s.lnk ∧
    (State.becomeSink s p).ser = s.ser ∧ (State.becomeSink s p).fab = s.fab ∧ (State.becomeSink s p).chk = s.chk ∧
    (State.becomeSink s p).tkr = s.tkr ∧ (State.becomeSink s p).tlm = s.tlm ∧ (State.becomeSink s p).cal = s.cal ∧
    (State.becomeSink s p).arb = s.arb ∧ (State.becomeSink s p).free = s.free ∧ (State.becomeSink s p).pending = s.pending := by simp [State.becomeSink]
@[simp] theorem State.becomeSource_keeps (s : State) (p : Port) : (State.becomeSource s p).part = s.part ∧
    (State.becomeSource s p).straps = s.straps ∧ (State.becomeSource s p).mode = s.mode ∧ (State.becomeSource s p).life = s.life ∧
    (State.becomeSource s p).regs = s.regs ∧ (State.becomeSource s p).emg = s.emg ∧ (State.becomeSource s p).seq = s.seq ∧
    (State.becomeSource s p).lnk = s.lnk ∧ (State.becomeSource s p).ser = s.ser ∧ (State.becomeSource s p).chk = s.chk ∧
    (State.becomeSource s p).tkr = s.tkr ∧ (State.becomeSource s p).cal = s.cal ∧ (State.becomeSource s p).arb = s.arb ∧
    (State.becomeSource s p).free = s.free ∧ (State.becomeSource s p).pending = s.pending := by simp [State.becomeSource]
@[simp] theorem State.swapStart_keeps (s : State) (p : Port) : (State.swapStart s p).part = s.part ∧
    (State.swapStart s p).straps = s.straps ∧ (State.swapStart s p).mode = s.mode ∧ (State.swapStart s p).life = s.life ∧
    (State.swapStart s p).regs = s.regs ∧ (State.swapStart s p).emg = s.emg ∧ (State.swapStart s p).seq = s.seq ∧
    (State.swapStart s p).lnk = s.lnk ∧ (State.swapStart s p).ser = s.ser ∧ (State.swapStart s p).chk = s.chk ∧
    (State.swapStart s p).tkr = s.tkr ∧ (State.swapStart s p).cal = s.cal ∧ (State.swapStart s p).arb = s.arb ∧
    (State.swapStart s p).free = s.free ∧ (State.swapStart s p).pending = s.pending := by
  unfold State.swapStart
  (repeat' apply And.intro) <;> (try simp) <;> (repeat' split) <;> (try simp) <;> (try simp_all)
@[simp] theorem State.answerRev3_keeps (s : State) (p : Port) (ext : Bool) (typ : Nat) (objs : List Word32) :
    (State.answerRev3 s p ext typ objs).part = s.part ∧ (State.answerRev3 s p ext typ objs).straps = s.straps ∧
    (State.answerRev3 s p ext typ objs).mode = s.mode ∧ (State.answerRev3 s p ext typ objs).life = s.life ∧
    (State.answerRev3 s p ext typ objs).regs = s.regs ∧ (State.answerRev3 s p ext typ objs).pp = s.pp ∧
    (State.answerRev3 s p ext typ objs).cnv = s.cnv ∧ (State.answerRev3 s p ext typ objs).chg = s.chg ∧
    (State.answerRev3 s p ext typ objs).emg = s.emg ∧ (State.answerRev3 s p ext typ objs).seq = s.seq ∧
    (State.answerRev3 s p ext typ objs).lnk = s.lnk ∧ (State.answerRev3 s p ext typ objs).ser = s.ser ∧
    (State.answerRev3 s p ext typ objs).chk = s.chk ∧ (State.answerRev3 s p ext typ objs).tkr = s.tkr ∧
    (State.answerRev3 s p ext typ objs).tlm = s.tlm ∧ (State.answerRev3 s p ext typ objs).cal = s.cal ∧
    (State.answerRev3 s p ext typ objs).arb = s.arb ∧ (State.answerRev3 s p ext typ objs).free = s.free ∧
    (State.answerRev3 s p ext typ objs).pending = s.pending := by unfold State.answerRev3; split <;> simp
@[simp] theorem State.writeRoleCfg_keeps (s : State) (p : Port) (cfg : Bool) (v : Nat) :
    (State.writeRoleCfg s p cfg v).part = s.part ∧ (State.writeRoleCfg s p cfg v).straps = s.straps ∧
    (State.writeRoleCfg s p cfg v).mode = s.mode ∧ (State.writeRoleCfg s p cfg v).life = s.life ∧
    (State.writeRoleCfg s p cfg v).pp = s.pp ∧ (State.writeRoleCfg s p cfg v).cnv = s.cnv ∧
    (State.writeRoleCfg s p cfg v).chg = s.chg ∧ (State.writeRoleCfg s p cfg v).emg = s.emg ∧
    (State.writeRoleCfg s p cfg v).seq = s.seq ∧ (State.writeRoleCfg s p cfg v).lnk = s.lnk ∧
    (State.writeRoleCfg s p cfg v).ser = s.ser ∧ (State.writeRoleCfg s p cfg v).fab = s.fab ∧
    (State.writeRoleCfg s p cfg v).chk = s.chk ∧ (State.writeRoleCfg s p cfg v).tkr = s.tkr ∧
    (State.writeRoleCfg s p cfg v).tlm = s.tlm ∧ (State.writeRoleCfg s p cfg v).cal = s.cal ∧
    (State.writeRoleCfg s p cfg v).arb = s.arb ∧ (State.writeRoleCfg s p cfg v).free = s.free ∧
    (State.writeRoleCfg s p cfg v).pending = s.pending := by
  unfold State.writeRoleCfg
  (repeat' apply And.intro) <;> (try simp) <;> (repeat' split) <;> (try simp) <;> (try simp_all)
@[simp] theorem State.result_keeps (s : State) (a : Agent) (v : Nat) : (State.result s a v).part = s.part ∧
    (State.result s a v).straps = s.straps ∧ (State.result s a v).mode = s.mode ∧ (State.result s a v).life = s.life ∧
    (State.result s a v).regs = s.regs ∧ (State.result s a v).pp = s.pp ∧ (State.result s a v).cnv = s.cnv ∧
    (State.result s a v).chg = s.chg ∧ (State.result s a v).emg = s.emg ∧ (State.result s a v).seq = s.seq ∧
    (State.result s a v).pdp = s.pdp ∧ (State.result s a v).lnk = s.lnk ∧ (State.result s a v).fab = s.fab ∧
    (State.result s a v).chk = s.chk ∧ (State.result s a v).tkr = s.tkr ∧ (State.result s a v).tlm = s.tlm ∧
    (State.result s a v).cal = s.cal ∧ (State.result s a v).arb = s.arb ∧ (State.result s a v).free = s.free ∧
    (State.result s a v).pending = s.pending := by simp [State.result]
@[simp] theorem State.setLatch_keeps (s : State) (a : Agent) (l : Eight Word) : (State.setLatch s a l).part = s.part ∧
    (State.setLatch s a l).straps = s.straps ∧ (State.setLatch s a l).mode = s.mode ∧ (State.setLatch s a l).life = s.life ∧
    (State.setLatch s a l).regs = s.regs ∧ (State.setLatch s a l).pp = s.pp ∧ (State.setLatch s a l).cnv = s.cnv ∧
    (State.setLatch s a l).chg = s.chg ∧ (State.setLatch s a l).emg = s.emg ∧ (State.setLatch s a l).seq = s.seq ∧
    (State.setLatch s a l).pdp = s.pdp ∧ (State.setLatch s a l).lnk = s.lnk ∧ (State.setLatch s a l).fab = s.fab ∧
    (State.setLatch s a l).chk = s.chk ∧ (State.setLatch s a l).tkr = s.tkr ∧ (State.setLatch s a l).tlm = s.tlm ∧
    (State.setLatch s a l).cal = s.cal ∧ (State.setLatch s a l).arb = s.arb ∧ (State.setLatch s a l).free = s.free ∧
    (State.setLatch s a l).pending = s.pending := by simp [State.setLatch]
@[simp] theorem State.clearLatch_keeps (s : State) (a : Agent) : (State.clearLatch s a).part = s.part ∧
    (State.clearLatch s a).straps = s.straps ∧ (State.clearLatch s a).mode = s.mode ∧ (State.clearLatch s a).life = s.life ∧
    (State.clearLatch s a).regs = s.regs ∧ (State.clearLatch s a).pp = s.pp ∧ (State.clearLatch s a).cnv = s.cnv ∧
    (State.clearLatch s a).chg = s.chg ∧ (State.clearLatch s a).emg = s.emg ∧ (State.clearLatch s a).seq = s.seq ∧
    (State.clearLatch s a).pdp = s.pdp ∧ (State.clearLatch s a).lnk = s.lnk ∧ (State.clearLatch s a).fab = s.fab ∧
    (State.clearLatch s a).chk = s.chk ∧ (State.clearLatch s a).tkr = s.tkr ∧ (State.clearLatch s a).tlm = s.tlm ∧
    (State.clearLatch s a).cal = s.cal ∧ (State.clearLatch s a).arb = s.arb ∧ (State.clearLatch s a).free = s.free ∧
    (State.clearLatch s a).pending = s.pending := by simp [State.clearLatch]
@[simp] theorem State.eccFound_keeps (s : State) (w : Nat) : (State.eccFound s w).part = s.part ∧
    (State.eccFound s w).straps = s.straps ∧ (State.eccFound s w).mode = s.mode ∧ (State.eccFound s w).life = s.life ∧
    (State.eccFound s w).regs = s.regs ∧ (State.eccFound s w).pp = s.pp ∧ (State.eccFound s w).cnv = s.cnv ∧
    (State.eccFound s w).chg = s.chg ∧ (State.eccFound s w).emg = s.emg ∧ (State.eccFound s w).seq = s.seq ∧
    (State.eccFound s w).pdp = s.pdp ∧ (State.eccFound s w).lnk = s.lnk ∧ (State.eccFound s w).ser = s.ser ∧
    (State.eccFound s w).chk = s.chk ∧ (State.eccFound s w).tkr = s.tkr ∧ (State.eccFound s w).tlm = s.tlm ∧
    (State.eccFound s w).cal = s.cal ∧ (State.eccFound s w).arb = s.arb ∧ (State.eccFound s w).free = s.free ∧
    (State.eccFound s w).pending = s.pending := by simp [State.eccFound]
@[simp] theorem State.eccFoundAll_keeps (s : State) (x1 : List Nat) : (State.eccFoundAll s x1).part = s.part ∧
    (State.eccFoundAll s x1).straps = s.straps ∧ (State.eccFoundAll s x1).mode = s.mode ∧ (State.eccFoundAll s x1).life = s.life ∧
    (State.eccFoundAll s x1).regs = s.regs ∧ (State.eccFoundAll s x1).pp = s.pp ∧ (State.eccFoundAll s x1).cnv = s.cnv ∧
    (State.eccFoundAll s x1).chg = s.chg ∧ (State.eccFoundAll s x1).emg = s.emg ∧ (State.eccFoundAll s x1).seq = s.seq ∧
    (State.eccFoundAll s x1).pdp = s.pdp ∧ (State.eccFoundAll s x1).lnk = s.lnk ∧ (State.eccFoundAll s x1).ser = s.ser ∧
    (State.eccFoundAll s x1).chk = s.chk ∧ (State.eccFoundAll s x1).tkr = s.tkr ∧ (State.eccFoundAll s x1).tlm = s.tlm ∧
    (State.eccFoundAll s x1).cal = s.cal ∧ (State.eccFoundAll s x1).arb = s.arb ∧ (State.eccFoundAll s x1).free = s.free ∧
    (State.eccFoundAll s x1).pending = s.pending := by
  induction x1 generalizing s  with
  | nil => simp [State.eccFoundAll]
  | cons y ys ih => simp [State.eccFoundAll, ih]
@[simp] theorem State.popRing_keeps (s : State) (k : Nat) (max : Nat) : (State.popRing s k max).1.part = s.part ∧
    (State.popRing s k max).1.straps = s.straps ∧ (State.popRing s k max).1.mode = s.mode ∧
    (State.popRing s k max).1.life = s.life ∧ (State.popRing s k max).1.regs = s.regs ∧ (State.popRing s k max).1.pp = s.pp ∧
    (State.popRing s k max).1.cnv = s.cnv ∧ (State.popRing s k max).1.chg = s.chg ∧ (State.popRing s k max).1.emg = s.emg ∧
    (State.popRing s k max).1.seq = s.seq ∧ (State.popRing s k max).1.pdp = s.pdp ∧ (State.popRing s k max).1.lnk = s.lnk ∧
    (State.popRing s k max).1.ser = s.ser ∧ (State.popRing s k max).1.chk = s.chk ∧ (State.popRing s k max).1.tkr = s.tkr ∧
    (State.popRing s k max).1.tlm = s.tlm ∧ (State.popRing s k max).1.cal = s.cal ∧ (State.popRing s k max).1.arb = s.arb ∧
    (State.popRing s k max).1.free = s.free ∧ (State.popRing s k max).1.pending = s.pending := by simp [State.popRing]
@[simp] theorem State.noUnit_keeps (s : State) (k : Nat) (tag : Nat) : (State.noUnit s k tag).part = s.part ∧
    (State.noUnit s k tag).straps = s.straps ∧ (State.noUnit s k tag).mode = s.mode ∧ (State.noUnit s k tag).life = s.life ∧
    (State.noUnit s k tag).regs = s.regs ∧ (State.noUnit s k tag).pp = s.pp ∧ (State.noUnit s k tag).cnv = s.cnv ∧
    (State.noUnit s k tag).chg = s.chg ∧ (State.noUnit s k tag).emg = s.emg ∧ (State.noUnit s k tag).seq = s.seq ∧
    (State.noUnit s k tag).pdp = s.pdp ∧ (State.noUnit s k tag).lnk = s.lnk ∧ (State.noUnit s k tag).ser = s.ser ∧
    (State.noUnit s k tag).chk = s.chk ∧ (State.noUnit s k tag).tkr = s.tkr ∧ (State.noUnit s k tag).tlm = s.tlm ∧
    (State.noUnit s k tag).cal = s.cal ∧ (State.noUnit s k tag).arb = s.arb ∧ (State.noUnit s k tag).free = s.free ∧
    (State.noUnit s k tag).pending = s.pending := by simp [State.noUnit]
@[simp] theorem State.takeEntry_keeps (s : State) (q : QJob) : (State.takeEntry s q).1.part = s.part ∧
    (State.takeEntry s q).1.straps = s.straps ∧ (State.takeEntry s q).1.mode = s.mode ∧ (State.takeEntry s q).1.life = s.life ∧
    (State.takeEntry s q).1.regs = s.regs ∧ (State.takeEntry s q).1.pp = s.pp ∧ (State.takeEntry s q).1.cnv = s.cnv ∧
    (State.takeEntry s q).1.chg = s.chg ∧ (State.takeEntry s q).1.emg = s.emg ∧ (State.takeEntry s q).1.seq = s.seq ∧
    (State.takeEntry s q).1.pdp = s.pdp ∧ (State.takeEntry s q).1.lnk = s.lnk ∧ (State.takeEntry s q).1.ser = s.ser ∧
    (State.takeEntry s q).1.tkr = s.tkr ∧ (State.takeEntry s q).1.tlm = s.tlm ∧ (State.takeEntry s q).1.cal = s.cal ∧
    (State.takeEntry s q).1.arb = s.arb ∧ (State.takeEntry s q).1.free = s.free ∧ (State.takeEntry s q).1.pending = s.pending := by simp [State.takeEntry]
@[simp] theorem State.noUnitOne_keeps (s : State) : (State.noUnitOne s).part = s.part ∧ (State.noUnitOne s).straps = s.straps ∧
    (State.noUnitOne s).mode = s.mode ∧ (State.noUnitOne s).life = s.life ∧ (State.noUnitOne s).regs = s.regs ∧
    (State.noUnitOne s).pp = s.pp ∧ (State.noUnitOne s).cnv = s.cnv ∧ (State.noUnitOne s).chg = s.chg ∧
    (State.noUnitOne s).emg = s.emg ∧ (State.noUnitOne s).seq = s.seq ∧ (State.noUnitOne s).pdp = s.pdp ∧
    (State.noUnitOne s).lnk = s.lnk ∧ (State.noUnitOne s).ser = s.ser ∧ (State.noUnitOne s).tkr = s.tkr ∧
    (State.noUnitOne s).tlm = s.tlm ∧ (State.noUnitOne s).cal = s.cal ∧ (State.noUnitOne s).arb = s.arb ∧
    (State.noUnitOne s).free = s.free ∧ (State.noUnitOne s).pending = s.pending := by
  unfold State.noUnitOne
  split
  · simp
  · rename_i q _ _
    have h := State.takeEntry_keeps s q
    split <;> simp_all
  · simp
@[simp] theorem State.noUnitAll_keeps (s : State) (x1 : Nat) : (State.noUnitAll s x1).part = s.part ∧
    (State.noUnitAll s x1).straps = s.straps ∧ (State.noUnitAll s x1).mode = s.mode ∧ (State.noUnitAll s x1).life = s.life ∧
    (State.noUnitAll s x1).regs = s.regs ∧ (State.noUnitAll s x1).pp = s.pp ∧ (State.noUnitAll s x1).cnv = s.cnv ∧
    (State.noUnitAll s x1).chg = s.chg ∧ (State.noUnitAll s x1).emg = s.emg ∧ (State.noUnitAll s x1).seq = s.seq ∧
    (State.noUnitAll s x1).pdp = s.pdp ∧ (State.noUnitAll s x1).lnk = s.lnk ∧ (State.noUnitAll s x1).ser = s.ser ∧
    (State.noUnitAll s x1).tkr = s.tkr ∧ (State.noUnitAll s x1).tlm = s.tlm ∧ (State.noUnitAll s x1).cal = s.cal ∧
    (State.noUnitAll s x1).arb = s.arb ∧ (State.noUnitAll s x1).free = s.free ∧ (State.noUnitAll s x1).pending = s.pending := by
  induction x1 generalizing s  with
  | zero => simp [State.noUnitAll]
  | succ n ih => unfold State.noUnitAll; (repeat' split) <;> simp_all
@[simp] theorem State.chkDrain_keeps (s : State) : (State.chkDrain s).part = s.part ∧ (State.chkDrain s).straps = s.straps ∧
    (State.chkDrain s).mode = s.mode ∧ (State.chkDrain s).life = s.life ∧ (State.chkDrain s).regs = s.regs ∧
    (State.chkDrain s).pp = s.pp ∧ (State.chkDrain s).cnv = s.cnv ∧ (State.chkDrain s).chg = s.chg ∧
    (State.chkDrain s).emg = s.emg ∧ (State.chkDrain s).seq = s.seq ∧ (State.chkDrain s).pdp = s.pdp ∧
    (State.chkDrain s).lnk = s.lnk ∧ (State.chkDrain s).ser = s.ser ∧ (State.chkDrain s).tkr = s.tkr ∧
    (State.chkDrain s).tlm = s.tlm ∧ (State.chkDrain s).cal = s.cal ∧ (State.chkDrain s).arb = s.arb ∧
    (State.chkDrain s).free = s.free ∧ (State.chkDrain s).pending = s.pending := by unfold State.chkDrain; split <;> simp
@[simp] theorem State.queueJobs_keeps (s : State) (a : Agent) (k : Nat) (x3 : Nat) : (State.queueJobs s a k x3).part = s.part ∧
    (State.queueJobs s a k x3).straps = s.straps ∧ (State.queueJobs s a k x3).mode = s.mode ∧
    (State.queueJobs s a k x3).life = s.life ∧ (State.queueJobs s a k x3).regs = s.regs ∧ (State.queueJobs s a k x3).pp = s.pp ∧
    (State.queueJobs s a k x3).cnv = s.cnv ∧ (State.queueJobs s a k x3).chg = s.chg ∧ (State.queueJobs s a k x3).emg = s.emg ∧
    (State.queueJobs s a k x3).seq = s.seq ∧ (State.queueJobs s a k x3).pdp = s.pdp ∧ (State.queueJobs s a k x3).lnk = s.lnk ∧
    (State.queueJobs s a k x3).ser = s.ser ∧ (State.queueJobs s a k x3).fab = s.fab ∧ (State.queueJobs s a k x3).tkr = s.tkr ∧
    (State.queueJobs s a k x3).tlm = s.tlm ∧ (State.queueJobs s a k x3).cal = s.cal ∧ (State.queueJobs s a k x3).arb = s.arb ∧
    (State.queueJobs s a k x3).free = s.free ∧ (State.queueJobs s a k x3).pending = s.pending := by
  induction x3 generalizing s  with
  | zero => simp [State.queueJobs]
  | succ n ih => unfold State.queueJobs; (repeat' split) <;> simp_all
@[simp] theorem State.agentPush_keeps (s : State) (a : Agent) (k : Nat) (es : List (List Byte)) :
    (State.agentPush s a k es).part = s.part ∧ (State.agentPush s a k es).straps = s.straps ∧
    (State.agentPush s a k es).mode = s.mode ∧ (State.agentPush s a k es).life = s.life ∧
    (State.agentPush s a k es).regs = s.regs ∧ (State.agentPush s a k es).pp = s.pp ∧ (State.agentPush s a k es).cnv = s.cnv ∧
    (State.agentPush s a k es).chg = s.chg ∧ (State.agentPush s a k es).emg = s.emg ∧ (State.agentPush s a k es).seq = s.seq ∧
    (State.agentPush s a k es).pdp = s.pdp ∧ (State.agentPush s a k es).lnk = s.lnk ∧ (State.agentPush s a k es).ser = s.ser ∧
    (State.agentPush s a k es).tkr = s.tkr ∧ (State.agentPush s a k es).tlm = s.tlm ∧ (State.agentPush s a k es).cal = s.cal ∧
    (State.agentPush s a k es).arb = s.arb ∧ (State.agentPush s a k es).free = s.free ∧
    (State.agentPush s a k es).pending = s.pending := by
  unfold State.agentPush
  (repeat' apply And.intro) <;> (try simp) <;> (repeat' split) <;> (try simp) <;> (try simp_all)
@[simp] theorem State.agentPop_keeps (s : State) (k : Nat) (max : Nat) : (State.agentPop s k max).1.part = s.part ∧
    (State.agentPop s k max).1.straps = s.straps ∧ (State.agentPop s k max).1.mode = s.mode ∧
    (State.agentPop s k max).1.life = s.life ∧ (State.agentPop s k max).1.regs = s.regs ∧ (State.agentPop s k max).1.pp = s.pp ∧
    (State.agentPop s k max).1.cnv = s.cnv ∧ (State.agentPop s k max).1.chg = s.chg ∧ (State.agentPop s k max).1.emg = s.emg ∧
    (State.agentPop s k max).1.seq = s.seq ∧ (State.agentPop s k max).1.pdp = s.pdp ∧ (State.agentPop s k max).1.lnk = s.lnk ∧
    (State.agentPop s k max).1.ser = s.ser ∧ (State.agentPop s k max).1.tkr = s.tkr ∧ (State.agentPop s k max).1.tlm = s.tlm ∧
    (State.agentPop s k max).1.cal = s.cal ∧ (State.agentPop s k max).1.arb = s.arb ∧ (State.agentPop s k max).1.free = s.free ∧
    (State.agentPop s k max).1.pending = s.pending := by simp [State.agentPop]
@[simp] theorem State.dataPush_keeps (s : State) (a : Agent) (data : List (Fin 8 × Word)) :
    (State.dataPush s a data).part = s.part ∧ (State.dataPush s a data).straps = s.straps ∧
    (State.dataPush s a data).mode = s.mode ∧ (State.dataPush s a data).life = s.life ∧ (State.dataPush s a data).regs = s.regs ∧
    (State.dataPush s a data).pp = s.pp ∧ (State.dataPush s a data).cnv = s.cnv ∧ (State.dataPush s a data).chg = s.chg ∧
    (State.dataPush s a data).emg = s.emg ∧ (State.dataPush s a data).seq = s.seq ∧ (State.dataPush s a data).pdp = s.pdp ∧
    (State.dataPush s a data).lnk = s.lnk ∧ (State.dataPush s a data).tkr = s.tkr ∧ (State.dataPush s a data).tlm = s.tlm ∧
    (State.dataPush s a data).cal = s.cal ∧ (State.dataPush s a data).arb = s.arb ∧ (State.dataPush s a data).free = s.free ∧
    (State.dataPush s a data).pending = s.pending := by
  unfold State.dataPush
  (repeat' apply And.intro) <;> (try simp) <;> (repeat' split) <;> (try simp) <;> (try simp_all)
@[simp] theorem State.stepAddr_keeps (s : State) (a : Agent) : (State.stepAddr s a).part = s.part ∧
    (State.stepAddr s a).straps = s.straps ∧ (State.stepAddr s a).mode = s.mode ∧ (State.stepAddr s a).life = s.life ∧
    (State.stepAddr s a).regs = s.regs ∧ (State.stepAddr s a).pp = s.pp ∧ (State.stepAddr s a).cnv = s.cnv ∧
    (State.stepAddr s a).chg = s.chg ∧ (State.stepAddr s a).emg = s.emg ∧ (State.stepAddr s a).seq = s.seq ∧
    (State.stepAddr s a).pdp = s.pdp ∧ (State.stepAddr s a).lnk = s.lnk ∧ (State.stepAddr s a).fab = s.fab ∧
    (State.stepAddr s a).chk = s.chk ∧ (State.stepAddr s a).tkr = s.tkr ∧ (State.stepAddr s a).tlm = s.tlm ∧
    (State.stepAddr s a).cal = s.cal ∧ (State.stepAddr s a).arb = s.arb ∧ (State.stepAddr s a).free = s.free ∧
    (State.stepAddr s a).pending = s.pending := by simp [State.stepAddr]
@[simp] theorem State.rawWrite_keeps (s : State) (a : Agent) (data : List (Fin 8 × Word)) :
    (State.rawWrite s a data).part = s.part ∧ (State.rawWrite s a data).straps = s.straps ∧
    (State.rawWrite s a data).mode = s.mode ∧ (State.rawWrite s a data).life = s.life ∧ (State.rawWrite s a data).regs = s.regs ∧
    (State.rawWrite s a data).pp = s.pp ∧ (State.rawWrite s a data).cnv = s.cnv ∧ (State.rawWrite s a data).chg = s.chg ∧
    (State.rawWrite s a data).emg = s.emg ∧ (State.rawWrite s a data).seq = s.seq ∧ (State.rawWrite s a data).pdp = s.pdp ∧
    (State.rawWrite s a data).lnk = s.lnk ∧ (State.rawWrite s a data).chk = s.chk ∧ (State.rawWrite s a data).tkr = s.tkr ∧
    (State.rawWrite s a data).tlm = s.tlm ∧ (State.rawWrite s a data).cal = s.cal ∧ (State.rawWrite s a data).arb = s.arb ∧
    (State.rawWrite s a data).free = s.free ∧ (State.rawWrite s a data).pending = s.pending := by
  unfold State.rawWrite
  (repeat' apply And.intro) <;> (try simp) <;> (repeat' split) <;> (try simp) <;> (try simp_all)
@[simp] theorem State.rawRead_keeps (s : State) (a : Agent) : (State.rawRead s a).part = s.part ∧
    (State.rawRead s a).straps = s.straps ∧ (State.rawRead s a).mode = s.mode ∧ (State.rawRead s a).life = s.life ∧
    (State.rawRead s a).regs = s.regs ∧ (State.rawRead s a).pp = s.pp ∧ (State.rawRead s a).cnv = s.cnv ∧
    (State.rawRead s a).chg = s.chg ∧ (State.rawRead s a).emg = s.emg ∧ (State.rawRead s a).seq = s.seq ∧
    (State.rawRead s a).pdp = s.pdp ∧ (State.rawRead s a).lnk = s.lnk ∧ (State.rawRead s a).chk = s.chk ∧
    (State.rawRead s a).tkr = s.tkr ∧ (State.rawRead s a).tlm = s.tlm ∧ (State.rawRead s a).cal = s.cal ∧
    (State.rawRead s a).arb = s.arb ∧ (State.rawRead s a).free = s.free ∧ (State.rawRead s a).pending = s.pending := by
  unfold State.rawRead
  (repeat' apply And.intro) <;> (try simp) <;> (repeat' split) <;> (try simp) <;> (try simp_all)
@[simp] theorem State.dataPop_keeps (s : State) (a : Agent) : (State.dataPop s a).part = s.part ∧
    (State.dataPop s a).straps = s.straps ∧ (State.dataPop s a).mode = s.mode ∧ (State.dataPop s a).life = s.life ∧
    (State.dataPop s a).pp = s.pp ∧ (State.dataPop s a).cnv = s.cnv ∧ (State.dataPop s a).chg = s.chg ∧
    (State.dataPop s a).emg = s.emg ∧ (State.dataPop s a).seq = s.seq ∧ (State.dataPop s a).pdp = s.pdp ∧
    (State.dataPop s a).lnk = s.lnk ∧ (State.dataPop s a).tkr = s.tkr ∧ (State.dataPop s a).tlm = s.tlm ∧
    (State.dataPop s a).cal = s.cal ∧ (State.dataPop s a).arb = s.arb ∧ (State.dataPop s a).free = s.free ∧
    (State.dataPop s a).pending = s.pending := by
  have h := State.agentPop_keeps s (s.selRing a) 1
  unfold State.dataPop; dsimp only
  generalize s.agentPop (s.selRing a) 1 = q at *
  (repeat' split) <;> simp_all
@[simp] theorem State.dataWrite_keeps (s : State) (a : Agent) (data : List (Fin 8 × Word)) :
    (State.dataWrite s a data).part = s.part ∧ (State.dataWrite s a data).straps = s.straps ∧
    (State.dataWrite s a data).mode = s.mode ∧ (State.dataWrite s a data).life = s.life ∧
    (State.dataWrite s a data).regs = s.regs ∧ (State.dataWrite s a data).pp = s.pp ∧ (State.dataWrite s a data).cnv = s.cnv ∧
    (State.dataWrite s a data).chg = s.chg ∧ (State.dataWrite s a data).emg = s.emg ∧ (State.dataWrite s a data).seq = s.seq ∧
    (State.dataWrite s a data).pdp = s.pdp ∧ (State.dataWrite s a data).lnk = s.lnk ∧ (State.dataWrite s a data).tkr = s.tkr ∧
    (State.dataWrite s a data).tlm = s.tlm ∧ (State.dataWrite s a data).cal = s.cal ∧ (State.dataWrite s a data).arb = s.arb ∧
    (State.dataWrite s a data).free = s.free ∧ (State.dataWrite s a data).pending = s.pending := by unfold State.dataWrite; split <;> simp
@[simp] theorem State.dataRead_keeps (s : State) (a : Agent) : (State.dataRead s a).part = s.part ∧
    (State.dataRead s a).straps = s.straps ∧ (State.dataRead s a).mode = s.mode ∧ (State.dataRead s a).life = s.life ∧
    (State.dataRead s a).pp = s.pp ∧ (State.dataRead s a).cnv = s.cnv ∧ (State.dataRead s a).chg = s.chg ∧
    (State.dataRead s a).emg = s.emg ∧ (State.dataRead s a).seq = s.seq ∧ (State.dataRead s a).pdp = s.pdp ∧
    (State.dataRead s a).lnk = s.lnk ∧ (State.dataRead s a).tkr = s.tkr ∧ (State.dataRead s a).tlm = s.tlm ∧
    (State.dataRead s a).cal = s.cal ∧ (State.dataRead s a).arb = s.arb ∧ (State.dataRead s a).free = s.free ∧
    (State.dataRead s a).pending = s.pending := by unfold State.dataRead; split <;> simp
@[simp] theorem State.ringAlloc_keeps (s : State) (a : Agent) (size : Option Nat) (base : Option Nat) :
    (State.ringAlloc s a size base).part = s.part ∧ (State.ringAlloc s a size base).straps = s.straps ∧
    (State.ringAlloc s a size base).mode = s.mode ∧ (State.ringAlloc s a size base).life = s.life ∧
    (State.ringAlloc s a size base).regs = s.regs ∧ (State.ringAlloc s a size base).pp = s.pp ∧
    (State.ringAlloc s a size base).cnv = s.cnv ∧ (State.ringAlloc s a size base).chg = s.chg ∧
    (State.ringAlloc s a size base).emg = s.emg ∧ (State.ringAlloc s a size base).seq = s.seq ∧
    (State.ringAlloc s a size base).pdp = s.pdp ∧ (State.ringAlloc s a size base).lnk = s.lnk ∧
    (State.ringAlloc s a size base).chk = s.chk ∧ (State.ringAlloc s a size base).tkr = s.tkr ∧
    (State.ringAlloc s a size base).tlm = s.tlm ∧ (State.ringAlloc s a size base).cal = s.cal ∧
    (State.ringAlloc s a size base).arb = s.arb ∧ (State.ringAlloc s a size base).free = s.free ∧
    (State.ringAlloc s a size base).pending = s.pending := by
  unfold State.ringAlloc
  (repeat' apply And.intro) <;> (try simp) <;> (repeat' split) <;> (try simp) <;> (try simp_all)
@[simp] theorem State.ringMode_keeps (s : State) (a : Agent) (v : Nat) : (State.ringMode s a v).part = s.part ∧
    (State.ringMode s a v).straps = s.straps ∧ (State.ringMode s a v).mode = s.mode ∧ (State.ringMode s a v).life = s.life ∧
    (State.ringMode s a v).regs = s.regs ∧ (State.ringMode s a v).pp = s.pp ∧ (State.ringMode s a v).cnv = s.cnv ∧
    (State.ringMode s a v).chg = s.chg ∧ (State.ringMode s a v).emg = s.emg ∧ (State.ringMode s a v).seq = s.seq ∧
    (State.ringMode s a v).pdp = s.pdp ∧ (State.ringMode s a v).lnk = s.lnk ∧ (State.ringMode s a v).ser = s.ser ∧
    (State.ringMode s a v).chk = s.chk ∧ (State.ringMode s a v).tkr = s.tkr ∧ (State.ringMode s a v).tlm = s.tlm ∧
    (State.ringMode s a v).cal = s.cal ∧ (State.ringMode s a v).arb = s.arb ∧ (State.ringMode s a v).free = s.free ∧
    (State.ringMode s a v).pending = s.pending := by
  unfold State.ringMode
  (repeat' apply And.intro) <;> (try simp) <;> (repeat' split) <;> (try simp) <;> (try simp_all)
@[simp] theorem State.ringWmark_keeps (s : State) (a : Agent) (v : Nat) : (State.ringWmark s a v).part = s.part ∧
    (State.ringWmark s a v).straps = s.straps ∧ (State.ringWmark s a v).mode = s.mode ∧ (State.ringWmark s a v).life = s.life ∧
    (State.ringWmark s a v).regs = s.regs ∧ (State.ringWmark s a v).pp = s.pp ∧ (State.ringWmark s a v).cnv = s.cnv ∧
    (State.ringWmark s a v).chg = s.chg ∧ (State.ringWmark s a v).emg = s.emg ∧ (State.ringWmark s a v).seq = s.seq ∧
    (State.ringWmark s a v).pdp = s.pdp ∧ (State.ringWmark s a v).lnk = s.lnk ∧ (State.ringWmark s a v).ser = s.ser ∧
    (State.ringWmark s a v).chk = s.chk ∧ (State.ringWmark s a v).tkr = s.tkr ∧ (State.ringWmark s a v).tlm = s.tlm ∧
    (State.ringWmark s a v).cal = s.cal ∧ (State.ringWmark s a v).arb = s.arb ∧ (State.ringWmark s a v).free = s.free ∧
    (State.ringWmark s a v).pending = s.pending := by
  unfold State.ringWmark
  (repeat' apply And.intro) <;> (try simp) <;> (repeat' split) <;> (try simp) <;> (try simp_all)
@[simp] theorem State.declare_keeps (s : State) : (State.declare s).part = s.part ∧ (State.declare s).straps = s.straps ∧
    (State.declare s).mode = s.mode ∧ (State.declare s).life = s.life ∧ (State.declare s).seq = s.seq ∧
    (State.declare s).pdp = s.pdp ∧ (State.declare s).lnk = s.lnk ∧ (State.declare s).ser = s.ser ∧ (State.declare s).chk = s.chk ∧
    (State.declare s).cal = s.cal ∧ (State.declare s).arb = s.arb ∧ (State.declare s).free = s.free ∧
    (State.declare s).pending = s.pending := by simp [State.declare]
@[simp] theorem State.settleDue_keeps (s : State) : (State.settleDue s).part = s.part ∧ (State.settleDue s).straps = s.straps ∧
    (State.settleDue s).mode = s.mode ∧ (State.settleDue s).life = s.life ∧ (State.settleDue s).pp = s.pp ∧
    (State.settleDue s).cnv = s.cnv ∧ (State.settleDue s).chg = s.chg ∧ (State.settleDue s).seq = s.seq ∧
    (State.settleDue s).pdp = s.pdp ∧ (State.settleDue s).lnk = s.lnk ∧ (State.settleDue s).ser = s.ser ∧
    (State.settleDue s).fab = s.fab ∧ (State.settleDue s).chk = s.chk ∧ (State.settleDue s).tkr = s.tkr ∧
    (State.settleDue s).tlm = s.tlm ∧ (State.settleDue s).cal = s.cal ∧ (State.settleDue s).arb = s.arb ∧
    (State.settleDue s).free = s.free ∧ (State.settleDue s).pending = s.pending := by unfold State.settleDue; split <;> simp
@[simp] theorem State.defer_keeps (s : State) (k : TestKind) : (State.defer s k).part = s.part ∧
    (State.defer s k).straps = s.straps ∧ (State.defer s k).mode = s.mode ∧ (State.defer s k).life = s.life ∧
    (State.defer s k).regs = s.regs ∧ (State.defer s k).pp = s.pp ∧ (State.defer s k).cnv = s.cnv ∧ (State.defer s k).chg = s.chg ∧
    (State.defer s k).seq = s.seq ∧ (State.defer s k).pdp = s.pdp ∧ (State.defer s k).lnk = s.lnk ∧ (State.defer s k).ser = s.ser ∧
    (State.defer s k).chk = s.chk ∧ (State.defer s k).tkr = s.tkr ∧ (State.defer s k).tlm = s.tlm ∧ (State.defer s k).cal = s.cal ∧
    (State.defer s k).arb = s.arb ∧ (State.defer s k).free = s.free ∧ (State.defer s k).pending = s.pending := by simp [State.defer]
@[simp] theorem State.decideStart_keeps (s : State) (d : Due) (lead : BitVec 48) : (State.decideStart s d lead).part = s.part ∧
    (State.decideStart s d lead).straps = s.straps ∧ (State.decideStart s d lead).mode = s.mode ∧
    (State.decideStart s d lead).life = s.life ∧ (State.decideStart s d lead).regs = s.regs ∧
    (State.decideStart s d lead).pp = s.pp ∧ (State.decideStart s d lead).cnv = s.cnv ∧ (State.decideStart s d lead).chg = s.chg ∧
    (State.decideStart s d lead).seq = s.seq ∧ (State.decideStart s d lead).pdp = s.pdp ∧
    (State.decideStart s d lead).lnk = s.lnk ∧ (State.decideStart s d lead).ser = s.ser ∧
    (State.decideStart s d lead).fab = s.fab ∧ (State.decideStart s d lead).chk = s.chk ∧
    (State.decideStart s d lead).tkr = s.tkr ∧ (State.decideStart s d lead).tlm = s.tlm ∧
    (State.decideStart s d lead).cal = s.cal ∧ (State.decideStart s d lead).arb = s.arb ∧
    (State.decideStart s d lead).free = s.free ∧ (State.decideStart s d lead).pending = s.pending := by simp [State.decideStart]
@[simp] theorem State.askSlot_keeps (s : State) (d : Due) : (State.askSlot s d).part = s.part ∧
    (State.askSlot s d).straps = s.straps ∧ (State.askSlot s d).mode = s.mode ∧ (State.askSlot s d).life = s.life ∧
    (State.askSlot s d).regs = s.regs ∧ (State.askSlot s d).pp = s.pp ∧ (State.askSlot s d).cnv = s.cnv ∧
    (State.askSlot s d).chg = s.chg ∧ (State.askSlot s d).seq = s.seq ∧ (State.askSlot s d).pdp = s.pdp ∧
    (State.askSlot s d).ser = s.ser ∧ (State.askSlot s d).fab = s.fab ∧ (State.askSlot s d).chk = s.chk ∧
    (State.askSlot s d).tkr = s.tkr ∧ (State.askSlot s d).tlm = s.tlm ∧ (State.askSlot s d).cal = s.cal ∧
    (State.askSlot s d).arb = s.arb ∧ (State.askSlot s d).free = s.free ∧ (State.askSlot s d).pending = s.pending := by unfold State.askSlot; split <;> simp
@[simp] theorem State.beginTest_keeps (s : State) (d : Due) : (State.beginTest s d).part = s.part ∧
    (State.beginTest s d).straps = s.straps ∧ (State.beginTest s d).mode = s.mode ∧ (State.beginTest s d).life = s.life ∧
    (State.beginTest s d).regs = s.regs ∧ (State.beginTest s d).pp = s.pp ∧ (State.beginTest s d).cnv = s.cnv ∧
    (State.beginTest s d).chg = s.chg ∧ (State.beginTest s d).seq = s.seq ∧ (State.beginTest s d).pdp = s.pdp ∧
    (State.beginTest s d).ser = s.ser ∧ (State.beginTest s d).fab = s.fab ∧ (State.beginTest s d).chk = s.chk ∧
    (State.beginTest s d).tkr = s.tkr ∧ (State.beginTest s d).tlm = s.tlm ∧ (State.beginTest s d).cal = s.cal ∧
    (State.beginTest s d).arb = s.arb ∧ (State.beginTest s d).free = s.free ∧ (State.beginTest s d).pending = s.pending := by unfold State.beginTest; split <;> simp
@[simp] theorem State.missTest_keeps (s : State) (k : TestKind) : (State.missTest s k).part = s.part ∧
    (State.missTest s k).straps = s.straps ∧ (State.missTest s k).mode = s.mode ∧ (State.missTest s k).life = s.life ∧
    (State.missTest s k).pp = s.pp ∧ (State.missTest s k).cnv = s.cnv ∧ (State.missTest s k).chg = s.chg ∧
    (State.missTest s k).seq = s.seq ∧ (State.missTest s k).pdp = s.pdp ∧ (State.missTest s k).lnk = s.lnk ∧
    (State.missTest s k).ser = s.ser ∧ (State.missTest s k).chk = s.chk ∧ (State.missTest s k).tlm = s.tlm ∧
    (State.missTest s k).cal = s.cal ∧ (State.missTest s k).arb = s.arb ∧ (State.missTest s k).free = s.free ∧
    (State.missTest s k).pending = s.pending := by simp [State.missTest]
@[simp] theorem State.tryScheduled_keeps (s : State) (k : TestKind) : (State.tryScheduled s k).part = s.part ∧
    (State.tryScheduled s k).straps = s.straps ∧ (State.tryScheduled s k).mode = s.mode ∧ (State.tryScheduled s k).life = s.life ∧
    (State.tryScheduled s k).pp = s.pp ∧ (State.tryScheduled s k).cnv = s.cnv ∧ (State.tryScheduled s k).chg = s.chg ∧
    (State.tryScheduled s k).seq = s.seq ∧ (State.tryScheduled s k).pdp = s.pdp ∧ (State.tryScheduled s k).ser = s.ser ∧
    (State.tryScheduled s k).chk = s.chk ∧ (State.tryScheduled s k).tlm = s.tlm ∧ (State.tryScheduled s k).cal = s.cal ∧
    (State.tryScheduled s k).arb = s.arb ∧ (State.tryScheduled s k).free = s.free ∧ (State.tryScheduled s k).pending = s.pending := by
  unfold State.tryScheduled
  (repeat' apply And.intro) <;> (try simp) <;> (repeat' split) <;> (try simp) <;> (try simp_all)
@[simp] theorem State.emgStatus_keeps (s : State) (v : Nat) : (State.emgStatus s v).part = s.part ∧
    (State.emgStatus s v).straps = s.straps ∧ (State.emgStatus s v).mode = s.mode ∧ (State.emgStatus s v).life = s.life ∧
    (State.emgStatus s v).pp = s.pp ∧ (State.emgStatus s v).cnv = s.cnv ∧ (State.emgStatus s v).chg = s.chg ∧
    (State.emgStatus s v).emg = s.emg ∧ (State.emgStatus s v).seq = s.seq ∧ (State.emgStatus s v).pdp = s.pdp ∧
    (State.emgStatus s v).lnk = s.lnk ∧ (State.emgStatus s v).ser = s.ser ∧ (State.emgStatus s v).fab = s.fab ∧
    (State.emgStatus s v).chk = s.chk ∧ (State.emgStatus s v).tkr = s.tkr ∧ (State.emgStatus s v).tlm = s.tlm ∧
    (State.emgStatus s v).cal = s.cal ∧ (State.emgStatus s v).arb = s.arb ∧ (State.emgStatus s v).free = s.free ∧
    (State.emgStatus s v).pending = s.pending := by simp [State.emgStatus]
@[simp] theorem State.slotHere_keeps (s : State) : (State.slotHere s).part = s.part ∧ (State.slotHere s).straps = s.straps ∧
    (State.slotHere s).mode = s.mode ∧ (State.slotHere s).life = s.life ∧ (State.slotHere s).pp = s.pp ∧
    (State.slotHere s).cnv = s.cnv ∧ (State.slotHere s).chg = s.chg ∧ (State.slotHere s).seq = s.seq ∧
    (State.slotHere s).pdp = s.pdp ∧ (State.slotHere s).lnk = s.lnk ∧ (State.slotHere s).ser = s.ser ∧
    (State.slotHere s).chk = s.chk ∧ (State.slotHere s).tkr = s.tkr ∧ (State.slotHere s).tlm = s.tlm ∧
    (State.slotHere s).cal = s.cal ∧ (State.slotHere s).arb = s.arb ∧ (State.slotHere s).free = s.free ∧
    (State.slotHere s).pending = s.pending := by unfold State.slotHere; (repeat' split) <;> simp
@[simp] theorem State.agentStart_keeps (s : State) (a : Agent) (k : TestKind) : (State.agentStart s a k).part = s.part ∧
    (State.agentStart s a k).straps = s.straps ∧ (State.agentStart s a k).mode = s.mode ∧ (State.agentStart s a k).life = s.life ∧
    (State.agentStart s a k).pp = s.pp ∧ (State.agentStart s a k).cnv = s.cnv ∧ (State.agentStart s a k).chg = s.chg ∧
    (State.agentStart s a k).seq = s.seq ∧ (State.agentStart s a k).pdp = s.pdp ∧ (State.agentStart s a k).ser = s.ser ∧
    (State.agentStart s a k).fab = s.fab ∧ (State.agentStart s a k).chk = s.chk ∧ (State.agentStart s a k).tkr = s.tkr ∧
    (State.agentStart s a k).tlm = s.tlm ∧ (State.agentStart s a k).cal = s.cal ∧ (State.agentStart s a k).arb = s.arb ∧
    (State.agentStart s a k).free = s.free ∧ (State.agentStart s a k).pending = s.pending := by unfold State.agentStart; (repeat' split) <;> simp
@[simp] theorem State.isolate_keeps (s : State) (d : Due) : (State.isolate s d).part = s.part ∧
    (State.isolate s d).straps = s.straps ∧ (State.isolate s d).mode = s.mode ∧ (State.isolate s d).life = s.life ∧
    (State.isolate s d).regs = s.regs ∧ (State.isolate s d).seq = s.seq ∧ (State.isolate s d).pdp = s.pdp ∧
    (State.isolate s d).ser = s.ser ∧ (State.isolate s d).chk = s.chk ∧ (State.isolate s d).tkr = s.tkr ∧
    (State.isolate s d).cal = s.cal ∧ (State.isolate s d).arb = s.arb ∧ (State.isolate s d).free = s.free ∧
    (State.isolate s d).pending = s.pending := by simp [State.isolate]
@[simp] theorem State.checkReverse_keeps (s : State) : (State.checkReverse s).part = s.part ∧
    (State.checkReverse s).straps = s.straps ∧ (State.checkReverse s).mode = s.mode ∧ (State.checkReverse s).life = s.life ∧
    (State.checkReverse s).regs = s.regs ∧ (State.checkReverse s).emg = s.emg ∧ (State.checkReverse s).seq = s.seq ∧
    (State.checkReverse s).pdp = s.pdp ∧ (State.checkReverse s).ser = s.ser ∧ (State.checkReverse s).chk = s.chk ∧
    (State.checkReverse s).tkr = s.tkr ∧ (State.checkReverse s).cal = s.cal ∧ (State.checkReverse s).arb = s.arb ∧
    (State.checkReverse s).free = s.free ∧ (State.checkReverse s).pending = s.pending := by unfold State.checkReverse; split <;> simp
@[simp] theorem State.isolatePhase_keeps (s : State) (p : Phase) (f : PhaseFault) : (State.isolatePhase s p f).part = s.part ∧
    (State.isolatePhase s p f).straps = s.straps ∧ (State.isolatePhase s p f).mode = s.mode ∧
    (State.isolatePhase s p f).life = s.life ∧ (State.isolatePhase s p f).seq = s.seq ∧ (State.isolatePhase s p f).pdp = s.pdp ∧
    (State.isolatePhase s p f).ser = s.ser ∧ (State.isolatePhase s p f).chk = s.chk ∧ (State.isolatePhase s p f).cal = s.cal ∧
    (State.isolatePhase s p f).arb = s.arb ∧ (State.isolatePhase s p f).free = s.free ∧
    (State.isolatePhase s p f).pending = s.pending := by
  unfold State.isolatePhase
  (repeat' apply And.intro) <;> (try simp) <;> (repeat' split) <;> (try simp) <;> (try simp_all)
@[simp] theorem State.seeSense_keeps (s : State) (out : Bool) : (State.seeSense s out).part = s.part ∧
    (State.seeSense s out).straps = s.straps ∧ (State.seeSense s out).mode = s.mode ∧ (State.seeSense s out).life = s.life ∧
    (State.seeSense s out).regs = s.regs ∧ (State.seeSense s out).pp = s.pp ∧ (State.seeSense s out).chg = s.chg ∧
    (State.seeSense s out).emg = s.emg ∧ (State.seeSense s out).seq = s.seq ∧ (State.seeSense s out).pdp = s.pdp ∧
    (State.seeSense s out).lnk = s.lnk ∧ (State.seeSense s out).ser = s.ser ∧ (State.seeSense s out).fab = s.fab ∧
    (State.seeSense s out).chk = s.chk ∧ (State.seeSense s out).tkr = s.tkr ∧ (State.seeSense s out).tlm = s.tlm ∧
    (State.seeSense s out).cal = s.cal ∧ (State.seeSense s out).arb = s.arb ∧ (State.seeSense s out).free = s.free ∧
    (State.seeSense s out).pending = s.pending := by simp [State.seeSense]
@[simp] theorem State.retrySense_keeps (s : State) : (State.retrySense s).part = s.part ∧ (State.retrySense s).straps = s.straps ∧
    (State.retrySense s).mode = s.mode ∧ (State.retrySense s).life = s.life ∧ (State.retrySense s).regs = s.regs ∧
    (State.retrySense s).pp = s.pp ∧ (State.retrySense s).chg = s.chg ∧ (State.retrySense s).emg = s.emg ∧
    (State.retrySense s).seq = s.seq ∧ (State.retrySense s).pdp = s.pdp ∧ (State.retrySense s).lnk = s.lnk ∧
    (State.retrySense s).ser = s.ser ∧ (State.retrySense s).chk = s.chk ∧ (State.retrySense s).tkr = s.tkr ∧
    (State.retrySense s).tlm = s.tlm ∧ (State.retrySense s).cal = s.cal ∧ (State.retrySense s).arb = s.arb ∧
    (State.retrySense s).free = s.free ∧ (State.retrySense s).pending = s.pending := by unfold State.retrySense; split <;> simp
@[simp] theorem State.restorePhase_keeps (s : State) (p : Phase) : (State.restorePhase s p).part = s.part ∧
    (State.restorePhase s p).straps = s.straps ∧ (State.restorePhase s p).mode = s.mode ∧ (State.restorePhase s p).life = s.life ∧
    (State.restorePhase s p).regs = s.regs ∧ (State.restorePhase s p).pp = s.pp ∧ (State.restorePhase s p).chg = s.chg ∧
    (State.restorePhase s p).emg = s.emg ∧ (State.restorePhase s p).seq = s.seq ∧ (State.restorePhase s p).pdp = s.pdp ∧
    (State.restorePhase s p).lnk = s.lnk ∧ (State.restorePhase s p).ser = s.ser ∧ (State.restorePhase s p).chk = s.chk ∧
    (State.restorePhase s p).tkr = s.tkr ∧ (State.restorePhase s p).tlm = s.tlm ∧ (State.restorePhase s p).cal = s.cal ∧
    (State.restorePhase s p).arb = s.arb ∧ (State.restorePhase s p).free = s.free ∧ (State.restorePhase s p).pending = s.pending := by simp [State.restorePhase]
@[simp] theorem State.restore_keeps (s : State) (x1 : List Phase) : (State.restore s x1).part = s.part ∧
    (State.restore s x1).straps = s.straps ∧ (State.restore s x1).mode = s.mode ∧ (State.restore s x1).life = s.life ∧
    (State.restore s x1).seq = s.seq ∧ (State.restore s x1).pdp = s.pdp ∧ (State.restore s x1).ser = s.ser ∧
    (State.restore s x1).chk = s.chk ∧ (State.restore s x1).cal = s.cal ∧ (State.restore s x1).arb = s.arb ∧
    (State.restore s x1).free = s.free ∧ (State.restore s x1).pending = s.pending := by
  induction x1 generalizing s  with
  | nil => simp [State.restore]
  | cons y ys ih => simp [State.restore, ih]
@[simp] theorem State.busUp_keeps (s : State) (vaux : Nat) : (State.busUp s vaux).part = s.part ∧
    (State.busUp s vaux).straps = s.straps ∧ (State.busUp s vaux).mode = s.mode ∧ (State.busUp s vaux).life = s.life ∧
    (State.busUp s vaux).regs = s.regs ∧ (State.busUp s vaux).pp = s.pp ∧ (State.busUp s vaux).chg = s.chg ∧
    (State.busUp s vaux).emg = s.emg ∧ (State.busUp s vaux).seq = s.seq ∧ (State.busUp s vaux).pdp = s.pdp ∧
    (State.busUp s vaux).lnk = s.lnk ∧ (State.busUp s vaux).ser = s.ser ∧ (State.busUp s vaux).fab = s.fab ∧
    (State.busUp s vaux).chk = s.chk ∧ (State.busUp s vaux).tkr = s.tkr ∧ (State.busUp s vaux).tlm = s.tlm ∧
    (State.busUp s vaux).cal = s.cal ∧ (State.busUp s vaux).arb = s.arb ∧ (State.busUp s vaux).free = s.free ∧
    (State.busUp s vaux).pending = s.pending := by simp [State.busUp]
@[simp] theorem State.stopX_keeps (s : State) (p : Port) (why : XFail) : (State.stopX s p why).part = s.part ∧
    (State.stopX s p why).straps = s.straps ∧ (State.stopX s p why).mode = s.mode ∧ (State.stopX s p why).life = s.life ∧
    (State.stopX s p why).chg = s.chg ∧ (State.stopX s p why).emg = s.emg ∧ (State.stopX s p why).seq = s.seq ∧
    (State.stopX s p why).lnk = s.lnk ∧ (State.stopX s p why).ser = s.ser ∧ (State.stopX s p why).chk = s.chk ∧
    (State.stopX s p why).tkr = s.tkr ∧ (State.stopX s p why).tlm = s.tlm ∧ (State.stopX s p why).cal = s.cal ∧
    (State.stopX s p why).arb = s.arb ∧ (State.stopX s p why).free = s.free ∧ (State.stopX s p why).pending = s.pending := by
  unfold State.stopX
  (repeat' apply And.intro) <;> (try simp) <;> (repeat' split) <;> (try simp) <;> (try simp_all)
@[simp] theorem State.clearX_keeps (s : State) (p : Port) : (State.clearX s p).part = s.part ∧
    (State.clearX s p).straps = s.straps ∧ (State.clearX s p).mode = s.mode ∧ (State.clearX s p).life = s.life ∧
    (State.clearX s p).regs = s.regs ∧ (State.clearX s p).pp = s.pp ∧ (State.clearX s p).chg = s.chg ∧
    (State.clearX s p).emg = s.emg ∧ (State.clearX s p).seq = s.seq ∧ (State.clearX s p).lnk = s.lnk ∧
    (State.clearX s p).ser = s.ser ∧ (State.clearX s p).chk = s.chk ∧ (State.clearX s p).tkr = s.tkr ∧
    (State.clearX s p).tlm = s.tlm ∧ (State.clearX s p).cal = s.cal ∧ (State.clearX s p).arb = s.arb ∧
    (State.clearX s p).free = s.free ∧ (State.clearX s p).pending = s.pending := by
  unfold State.clearX
  (repeat' apply And.intro) <;> (try simp) <;> (repeat' split) <;> (try simp) <;> (try simp_all)
@[simp] theorem State.mainLoop_keeps (s : State) (ma : Nat) (cs : Four Cycle) : (State.mainLoop s ma cs).part = s.part ∧
    (State.mainLoop s ma cs).straps = s.straps ∧ (State.mainLoop s ma cs).mode = s.mode ∧ (State.mainLoop s ma cs).life = s.life ∧
    (State.mainLoop s ma cs).regs = s.regs ∧ (State.mainLoop s ma cs).pp = s.pp ∧ (State.mainLoop s ma cs).chg = s.chg ∧
    (State.mainLoop s ma cs).emg = s.emg ∧ (State.mainLoop s ma cs).seq = s.seq ∧ (State.mainLoop s ma cs).pdp = s.pdp ∧
    (State.mainLoop s ma cs).lnk = s.lnk ∧ (State.mainLoop s ma cs).ser = s.ser ∧ (State.mainLoop s ma cs).chk = s.chk ∧
    (State.mainLoop s ma cs).tkr = s.tkr ∧ (State.mainLoop s ma cs).tlm = s.tlm ∧ (State.mainLoop s ma cs).cal = s.cal ∧
    (State.mainLoop s ma cs).arb = s.arb ∧ (State.mainLoop s ma cs).free = s.free ∧ (State.mainLoop s ma cs).pending = s.pending := by simp [State.mainLoop]
@[simp] theorem State.alertCondition_keeps (s : State) (p : Port) : (State.alertCondition s p).part = s.part ∧
    (State.alertCondition s p).straps = s.straps ∧ (State.alertCondition s p).mode = s.mode ∧
    (State.alertCondition s p).life = s.life ∧ (State.alertCondition s p).regs = s.regs ∧ (State.alertCondition s p).pp = s.pp ∧
    (State.alertCondition s p).cnv = s.cnv ∧ (State.alertCondition s p).chg = s.chg ∧ (State.alertCondition s p).emg = s.emg ∧
    (State.alertCondition s p).seq = s.seq ∧ (State.alertCondition s p).lnk = s.lnk ∧ (State.alertCondition s p).ser = s.ser ∧
    (State.alertCondition s p).chk = s.chk ∧ (State.alertCondition s p).tkr = s.tkr ∧ (State.alertCondition s p).tlm = s.tlm ∧
    (State.alertCondition s p).cal = s.cal ∧ (State.alertCondition s p).arb = s.arb ∧ (State.alertCondition s p).free = s.free ∧
    (State.alertCondition s p).pending = s.pending := by
  unfold State.alertCondition
  (repeat' apply And.intro) <;> (try simp) <;> (repeat' split) <;> (try simp) <;> (try simp_all)
@[simp] theorem State.xLoop_keeps (s : State) (p : Port) (ma : Nat) (c : Cycle) : (State.xLoop s p ma c).part = s.part ∧
    (State.xLoop s p ma c).straps = s.straps ∧ (State.xLoop s p ma c).mode = s.mode ∧ (State.xLoop s p ma c).life = s.life ∧
    (State.xLoop s p ma c).regs = s.regs ∧ (State.xLoop s p ma c).pp = s.pp ∧ (State.xLoop s p ma c).chg = s.chg ∧
    (State.xLoop s p ma c).emg = s.emg ∧ (State.xLoop s p ma c).seq = s.seq ∧ (State.xLoop s p ma c).lnk = s.lnk ∧
    (State.xLoop s p ma c).ser = s.ser ∧ (State.xLoop s p ma c).chk = s.chk ∧ (State.xLoop s p ma c).tkr = s.tkr ∧
    (State.xLoop s p ma c).tlm = s.tlm ∧ (State.xLoop s p ma c).cal = s.cal ∧ (State.xLoop s p ma c).arb = s.arb ∧
    (State.xLoop s p ma c).free = s.free ∧ (State.xLoop s p ma c).pending = s.pending := by
  unfold State.xLoop
  (repeat' apply And.intro) <;> (try simp) <;> (repeat' split) <;> (try simp) <;> (try simp_all)
@[simp] theorem State.lnkFresh_keeps (s : State) : (State.lnkFresh s).part = s.part ∧ (State.lnkFresh s).straps = s.straps ∧
    (State.lnkFresh s).mode = s.mode ∧ (State.lnkFresh s).life = s.life ∧ (State.lnkFresh s).regs = s.regs ∧
    (State.lnkFresh s).pp = s.pp ∧ (State.lnkFresh s).cnv = s.cnv ∧ (State.lnkFresh s).chg = s.chg ∧
    (State.lnkFresh s).emg = s.emg ∧ (State.lnkFresh s).seq = s.seq ∧ (State.lnkFresh s).pdp = s.pdp ∧
    (State.lnkFresh s).ser = s.ser ∧ (State.lnkFresh s).fab = s.fab ∧ (State.lnkFresh s).chk = s.chk ∧
    (State.lnkFresh s).tkr = s.tkr ∧ (State.lnkFresh s).tlm = s.tlm ∧ (State.lnkFresh s).cal = s.cal ∧
    (State.lnkFresh s).arb = s.arb ∧ (State.lnkFresh s).free = s.free ∧ (State.lnkFresh s).pending = s.pending := by simp [State.lnkFresh]
@[simp] theorem State.lnkHear_keeps (s : State) : (State.lnkHear s).part = s.part ∧ (State.lnkHear s).straps = s.straps ∧
    (State.lnkHear s).mode = s.mode ∧ (State.lnkHear s).life = s.life ∧ (State.lnkHear s).pp = s.pp ∧
    (State.lnkHear s).cnv = s.cnv ∧ (State.lnkHear s).chg = s.chg ∧ (State.lnkHear s).emg = s.emg ∧ (State.lnkHear s).seq = s.seq ∧
    (State.lnkHear s).pdp = s.pdp ∧ (State.lnkHear s).ser = s.ser ∧ (State.lnkHear s).fab = s.fab ∧ (State.lnkHear s).chk = s.chk ∧
    (State.lnkHear s).tkr = s.tkr ∧ (State.lnkHear s).tlm = s.tlm ∧ (State.lnkHear s).cal = s.cal ∧ (State.lnkHear s).arb = s.arb ∧
    (State.lnkHear s).pending = s.pending := by simp [State.lnkHear]
@[simp] theorem State.sendAck_keeps (s : State) (dst : Nat) (seqNo : Nat) : (State.sendAck s dst seqNo).part = s.part ∧
    (State.sendAck s dst seqNo).straps = s.straps ∧ (State.sendAck s dst seqNo).mode = s.mode ∧
    (State.sendAck s dst seqNo).life = s.life ∧ (State.sendAck s dst seqNo).regs = s.regs ∧ (State.sendAck s dst seqNo).pp = s.pp ∧
    (State.sendAck s dst seqNo).cnv = s.cnv ∧ (State.sendAck s dst seqNo).chg = s.chg ∧ (State.sendAck s dst seqNo).emg = s.emg ∧
    (State.sendAck s dst seqNo).seq = s.seq ∧ (State.sendAck s dst seqNo).pdp = s.pdp ∧ (State.sendAck s dst seqNo).ser = s.ser ∧
    (State.sendAck s dst seqNo).fab = s.fab ∧ (State.sendAck s dst seqNo).chk = s.chk ∧ (State.sendAck s dst seqNo).tkr = s.tkr ∧
    (State.sendAck s dst seqNo).tlm = s.tlm ∧ (State.sendAck s dst seqNo).cal = s.cal ∧ (State.sendAck s dst seqNo).arb = s.arb ∧
    (State.sendAck s dst seqNo).free = s.free ∧ (State.sendAck s dst seqNo).pending = s.pending := by simp [State.sendAck]
@[simp] theorem State.noteFrame_keeps (s : State) (src : Nat) (seqNo : Nat) (key : List Byte) :
    (State.noteFrame s src seqNo key).part = s.part ∧ (State.noteFrame s src seqNo key).straps = s.straps ∧
    (State.noteFrame s src seqNo key).mode = s.mode ∧ (State.noteFrame s src seqNo key).life = s.life ∧
    (State.noteFrame s src seqNo key).regs = s.regs ∧ (State.noteFrame s src seqNo key).pp = s.pp ∧
    (State.noteFrame s src seqNo key).cnv = s.cnv ∧ (State.noteFrame s src seqNo key).chg = s.chg ∧
    (State.noteFrame s src seqNo key).emg = s.emg ∧ (State.noteFrame s src seqNo key).seq = s.seq ∧
    (State.noteFrame s src seqNo key).pdp = s.pdp ∧ (State.noteFrame s src seqNo key).ser = s.ser ∧
    (State.noteFrame s src seqNo key).fab = s.fab ∧ (State.noteFrame s src seqNo key).chk = s.chk ∧
    (State.noteFrame s src seqNo key).tkr = s.tkr ∧ (State.noteFrame s src seqNo key).tlm = s.tlm ∧
    (State.noteFrame s src seqNo key).cal = s.cal ∧ (State.noteFrame s src seqNo key).arb = s.arb ∧
    (State.noteFrame s src seqNo key).free = s.free ∧ (State.noteFrame s src seqNo key).pending = s.pending := by simp [State.noteFrame]
@[simp] theorem State.setLead_keeps (s : State) (id : BitVec 48) : (State.setLead s id).part = s.part ∧
    (State.setLead s id).straps = s.straps ∧ (State.setLead s id).mode = s.mode ∧ (State.setLead s id).life = s.life ∧
    (State.setLead s id).regs = s.regs ∧ (State.setLead s id).pp = s.pp ∧ (State.setLead s id).cnv = s.cnv ∧
    (State.setLead s id).chg = s.chg ∧ (State.setLead s id).emg = s.emg ∧ (State.setLead s id).seq = s.seq ∧
    (State.setLead s id).pdp = s.pdp ∧ (State.setLead s id).ser = s.ser ∧ (State.setLead s id).chk = s.chk ∧
    (State.setLead s id).tkr = s.tkr ∧ (State.setLead s id).tlm = s.tlm ∧ (State.setLead s id).cal = s.cal ∧
    (State.setLead s id).arb = s.arb ∧ (State.setLead s id).free = s.free ∧ (State.setLead s id).pending = s.pending := by simp [State.setLead]
@[simp] theorem State.sendJoin_keeps (s : State) : (State.sendJoin s).part = s.part ∧ (State.sendJoin s).straps = s.straps ∧
    (State.sendJoin s).mode = s.mode ∧ (State.sendJoin s).life = s.life ∧ (State.sendJoin s).regs = s.regs ∧
    (State.sendJoin s).pp = s.pp ∧ (State.sendJoin s).cnv = s.cnv ∧ (State.sendJoin s).chg = s.chg ∧
    (State.sendJoin s).emg = s.emg ∧ (State.sendJoin s).seq = s.seq ∧ (State.sendJoin s).pdp = s.pdp ∧
    (State.sendJoin s).ser = s.ser ∧ (State.sendJoin s).fab = s.fab ∧ (State.sendJoin s).chk = s.chk ∧
    (State.sendJoin s).tkr = s.tkr ∧ (State.sendJoin s).tlm = s.tlm ∧ (State.sendJoin s).cal = s.cal ∧
    (State.sendJoin s).arb = s.arb ∧ (State.sendJoin s).free = s.free ∧ (State.sendJoin s).pending = s.pending := by simp [State.sendJoin]
@[simp] theorem State.askAgain_keeps (s : State) : (State.askAgain s).part = s.part ∧ (State.askAgain s).straps = s.straps ∧
    (State.askAgain s).mode = s.mode ∧ (State.askAgain s).life = s.life ∧ (State.askAgain s).regs = s.regs ∧
    (State.askAgain s).pp = s.pp ∧ (State.askAgain s).cnv = s.cnv ∧ (State.askAgain s).chg = s.chg ∧
    (State.askAgain s).emg = s.emg ∧ (State.askAgain s).seq = s.seq ∧ (State.askAgain s).pdp = s.pdp ∧
    (State.askAgain s).ser = s.ser ∧ (State.askAgain s).fab = s.fab ∧ (State.askAgain s).chk = s.chk ∧
    (State.askAgain s).tkr = s.tkr ∧ (State.askAgain s).tlm = s.tlm ∧ (State.askAgain s).cal = s.cal ∧
    (State.askAgain s).arb = s.arb ∧ (State.askAgain s).free = s.free ∧ (State.askAgain s).pending = s.pending := by unfold State.askAgain; (repeat' split) <;> simp
@[simp] theorem State.report_keeps (s : State) : (State.report s).part = s.part ∧ (State.report s).straps = s.straps ∧
    (State.report s).mode = s.mode ∧ (State.report s).life = s.life ∧ (State.report s).regs = s.regs ∧
    (State.report s).emg = s.emg ∧ (State.report s).seq = s.seq ∧ (State.report s).pdp = s.pdp ∧ (State.report s).ser = s.ser ∧
    (State.report s).chk = s.chk ∧ (State.report s).tkr = s.tkr ∧ (State.report s).cal = s.cal ∧ (State.report s).arb = s.arb ∧
    (State.report s).free = s.free ∧ (State.report s).pending = s.pending := by
  unfold State.report
  (repeat' apply And.intro) <;> (try simp) <;> (repeat' split) <;> (try simp) <;> (try simp_all)
@[simp] theorem State.applyGrants_keeps (s : State) (gs : List GrantEntry) : (State.applyGrants s gs).part = s.part ∧
    (State.applyGrants s gs).straps = s.straps ∧ (State.applyGrants s gs).mode = s.mode ∧ (State.applyGrants s gs).life = s.life ∧
    (State.applyGrants s gs).regs = s.regs ∧ (State.applyGrants s gs).emg = s.emg ∧ (State.applyGrants s gs).seq = s.seq ∧
    (State.applyGrants s gs).pdp = s.pdp ∧ (State.applyGrants s gs).ser = s.ser ∧ (State.applyGrants s gs).chk = s.chk ∧
    (State.applyGrants s gs).tkr = s.tkr ∧ (State.applyGrants s gs).cal = s.cal ∧ (State.applyGrants s gs).arb = s.arb ∧
    (State.applyGrants s gs).free = s.free ∧ (State.applyGrants s gs).pending = s.pending := by
  unfold State.applyGrants
  (repeat' apply And.intro) <;> (try simp) <;> (repeat' split) <;> (try simp) <;> (try simp_all)
@[simp] theorem State.freeSlot_keeps (s : State) : (State.freeSlot s).part = s.part ∧ (State.freeSlot s).straps = s.straps ∧
    (State.freeSlot s).mode = s.mode ∧ (State.freeSlot s).life = s.life ∧ (State.freeSlot s).regs = s.regs ∧
    (State.freeSlot s).pp = s.pp ∧ (State.freeSlot s).cnv = s.cnv ∧ (State.freeSlot s).chg = s.chg ∧
    (State.freeSlot s).emg = s.emg ∧ (State.freeSlot s).seq = s.seq ∧ (State.freeSlot s).pdp = s.pdp ∧
    (State.freeSlot s).ser = s.ser ∧ (State.freeSlot s).chk = s.chk ∧ (State.freeSlot s).tkr = s.tkr ∧
    (State.freeSlot s).tlm = s.tlm ∧ (State.freeSlot s).cal = s.cal ∧ (State.freeSlot s).arb = s.arb ∧
    (State.freeSlot s).free = s.free ∧ (State.freeSlot s).pending = s.pending := by simp [State.freeSlot]
@[simp] theorem State.serveSlot_keeps (s : State) : (State.serveSlot s).part = s.part ∧ (State.serveSlot s).straps = s.straps ∧
    (State.serveSlot s).mode = s.mode ∧ (State.serveSlot s).life = s.life ∧ (State.serveSlot s).pp = s.pp ∧
    (State.serveSlot s).cnv = s.cnv ∧ (State.serveSlot s).chg = s.chg ∧ (State.serveSlot s).seq = s.seq ∧
    (State.serveSlot s).pdp = s.pdp ∧ (State.serveSlot s).ser = s.ser ∧ (State.serveSlot s).chk = s.chk ∧
    (State.serveSlot s).tkr = s.tkr ∧ (State.serveSlot s).tlm = s.tlm ∧ (State.serveSlot s).cal = s.cal ∧
    (State.serveSlot s).arb = s.arb ∧ (State.serveSlot s).free = s.free ∧ (State.serveSlot s).pending = s.pending := by unfold State.serveSlot; (repeat' split) <;> simp
@[simp] theorem State.freeMember_keeps (s : State) (a : Nat) : (State.freeMember s a).part = s.part ∧
    (State.freeMember s a).straps = s.straps ∧ (State.freeMember s a).mode = s.mode ∧ (State.freeMember s a).life = s.life ∧
    (State.freeMember s a).regs = s.regs ∧ (State.freeMember s a).pp = s.pp ∧ (State.freeMember s a).cnv = s.cnv ∧
    (State.freeMember s a).chg = s.chg ∧ (State.freeMember s a).emg = s.emg ∧ (State.freeMember s a).seq = s.seq ∧
    (State.freeMember s a).pdp = s.pdp ∧ (State.freeMember s a).ser = s.ser ∧ (State.freeMember s a).chk = s.chk ∧
    (State.freeMember s a).tkr = s.tkr ∧ (State.freeMember s a).tlm = s.tlm ∧ (State.freeMember s a).cal = s.cal ∧
    (State.freeMember s a).arb = s.arb ∧ (State.freeMember s a).free = s.free ∧ (State.freeMember s a).pending = s.pending := by
  unfold State.freeMember
  (repeat' apply And.intro) <;> (try simp) <;> (repeat' split) <;> (try simp) <;> (try simp_all)
@[simp] theorem State.freeMembers_keeps (s : State) (x1 : List Nat) : (State.freeMembers s x1).part = s.part ∧
    (State.freeMembers s x1).straps = s.straps ∧ (State.freeMembers s x1).mode = s.mode ∧ (State.freeMembers s x1).life = s.life ∧
    (State.freeMembers s x1).regs = s.regs ∧ (State.freeMembers s x1).pp = s.pp ∧ (State.freeMembers s x1).cnv = s.cnv ∧
    (State.freeMembers s x1).chg = s.chg ∧ (State.freeMembers s x1).emg = s.emg ∧ (State.freeMembers s x1).seq = s.seq ∧
    (State.freeMembers s x1).pdp = s.pdp ∧ (State.freeMembers s x1).ser = s.ser ∧ (State.freeMembers s x1).chk = s.chk ∧
    (State.freeMembers s x1).tkr = s.tkr ∧ (State.freeMembers s x1).tlm = s.tlm ∧ (State.freeMembers s x1).cal = s.cal ∧
    (State.freeMembers s x1).arb = s.arb ∧ (State.freeMembers s x1).free = s.free ∧ (State.freeMembers s x1).pending = s.pending := by
  induction x1 generalizing s  with
  | nil => simp [State.freeMembers]
  | cons y ys ih => simp [State.freeMembers, ih]
@[simp] theorem State.closeRound_keeps (s : State) : (State.closeRound s).part = s.part ∧ (State.closeRound s).straps = s.straps ∧
    (State.closeRound s).mode = s.mode ∧ (State.closeRound s).life = s.life ∧ (State.closeRound s).regs = s.regs ∧
    (State.closeRound s).pp = s.pp ∧ (State.closeRound s).cnv = s.cnv ∧ (State.closeRound s).chg = s.chg ∧
    (State.closeRound s).emg = s.emg ∧ (State.closeRound s).seq = s.seq ∧ (State.closeRound s).pdp = s.pdp ∧
    (State.closeRound s).ser = s.ser ∧ (State.closeRound s).chk = s.chk ∧ (State.closeRound s).tkr = s.tkr ∧
    (State.closeRound s).tlm = s.tlm ∧ (State.closeRound s).cal = s.cal ∧ (State.closeRound s).arb = s.arb ∧
    (State.closeRound s).free = s.free ∧ (State.closeRound s).pending = s.pending := by simp [State.closeRound]
@[simp] theorem State.computeRound_keeps (s : State) : (State.computeRound s).part = s.part ∧
    (State.computeRound s).straps = s.straps ∧ (State.computeRound s).mode = s.mode ∧ (State.computeRound s).life = s.life ∧
    (State.computeRound s).regs = s.regs ∧ (State.computeRound s).emg = s.emg ∧ (State.computeRound s).seq = s.seq ∧
    (State.computeRound s).pdp = s.pdp ∧ (State.computeRound s).ser = s.ser ∧ (State.computeRound s).chk = s.chk ∧
    (State.computeRound s).tkr = s.tkr ∧ (State.computeRound s).cal = s.cal ∧ (State.computeRound s).arb = s.arb ∧
    (State.computeRound s).free = s.free ∧ (State.computeRound s).pending = s.pending := by simp [State.computeRound]
@[simp] theorem State.listenFor_keeps (s : State) (ms : Nat) : (State.listenFor s ms).part = s.part ∧
    (State.listenFor s ms).straps = s.straps ∧ (State.listenFor s ms).mode = s.mode ∧ (State.listenFor s ms).life = s.life ∧
    (State.listenFor s ms).regs = s.regs ∧ (State.listenFor s ms).pp = s.pp ∧ (State.listenFor s ms).cnv = s.cnv ∧
    (State.listenFor s ms).chg = s.chg ∧ (State.listenFor s ms).emg = s.emg ∧ (State.listenFor s ms).seq = s.seq ∧
    (State.listenFor s ms).pdp = s.pdp ∧ (State.listenFor s ms).ser = s.ser ∧ (State.listenFor s ms).chk = s.chk ∧
    (State.listenFor s ms).tkr = s.tkr ∧ (State.listenFor s ms).tlm = s.tlm ∧ (State.listenFor s ms).cal = s.cal ∧
    (State.listenFor s ms).arb = s.arb ∧ (State.listenFor s ms).free = s.free ∧ (State.listenFor s ms).pending = s.pending := by simp [State.listenFor]
@[simp] theorem State.toListen_keeps (s : State) : (State.toListen s).part = s.part ∧ (State.toListen s).straps = s.straps ∧
    (State.toListen s).mode = s.mode ∧ (State.toListen s).life = s.life ∧ (State.toListen s).regs = s.regs ∧
    (State.toListen s).pp = s.pp ∧ (State.toListen s).cnv = s.cnv ∧ (State.toListen s).chg = s.chg ∧
    (State.toListen s).emg = s.emg ∧ (State.toListen s).seq = s.seq ∧ (State.toListen s).pdp = s.pdp ∧
    (State.toListen s).ser = s.ser ∧ (State.toListen s).chk = s.chk ∧ (State.toListen s).tkr = s.tkr ∧
    (State.toListen s).tlm = s.tlm ∧ (State.toListen s).cal = s.cal ∧ (State.toListen s).arb = s.arb ∧
    (State.toListen s).pending = s.pending := by simp [State.toListen]
@[simp] theorem State.startJoin_keeps (s : State) (b : Beacon) : (State.startJoin s b).part = s.part ∧
    (State.startJoin s b).straps = s.straps ∧ (State.startJoin s b).mode = s.mode ∧ (State.startJoin s b).life = s.life ∧
    (State.startJoin s b).regs = s.regs ∧ (State.startJoin s b).pp = s.pp ∧ (State.startJoin s b).cnv = s.cnv ∧
    (State.startJoin s b).chg = s.chg ∧ (State.startJoin s b).emg = s.emg ∧ (State.startJoin s b).seq = s.seq ∧
    (State.startJoin s b).pdp = s.pdp ∧ (State.startJoin s b).ser = s.ser ∧ (State.startJoin s b).chk = s.chk ∧
    (State.startJoin s b).tkr = s.tkr ∧ (State.startJoin s b).tlm = s.tlm ∧ (State.startJoin s b).cal = s.cal ∧
    (State.startJoin s b).arb = s.arb ∧ (State.startJoin s b).free = s.free ∧ (State.startJoin s b).pending = s.pending := by simp [State.startJoin]
@[simp] theorem State.memberBeacon_keeps (s : State) (b : Beacon) : (State.memberBeacon s b).part = s.part ∧
    (State.memberBeacon s b).straps = s.straps ∧ (State.memberBeacon s b).mode = s.mode ∧ (State.memberBeacon s b).life = s.life ∧
    (State.memberBeacon s b).seq = s.seq ∧ (State.memberBeacon s b).pdp = s.pdp ∧ (State.memberBeacon s b).ser = s.ser ∧
    (State.memberBeacon s b).chk = s.chk ∧ (State.memberBeacon s b).tkr = s.tkr ∧ (State.memberBeacon s b).cal = s.cal ∧
    (State.memberBeacon s b).arb = s.arb ∧ (State.memberBeacon s b).free = s.free ∧ (State.memberBeacon s b).pending = s.pending := by unfold State.memberBeacon; (repeat' split) <;> simp
@[simp] theorem State.listenAgain_keeps (s : State) : (State.listenAgain s).part = s.part ∧
    (State.listenAgain s).straps = s.straps ∧ (State.listenAgain s).mode = s.mode ∧ (State.listenAgain s).life = s.life ∧
    (State.listenAgain s).regs = s.regs ∧ (State.listenAgain s).pp = s.pp ∧ (State.listenAgain s).cnv = s.cnv ∧
    (State.listenAgain s).chg = s.chg ∧ (State.listenAgain s).emg = s.emg ∧ (State.listenAgain s).seq = s.seq ∧
    (State.listenAgain s).pdp = s.pdp ∧ (State.listenAgain s).ser = s.ser ∧ (State.listenAgain s).fab = s.fab ∧
    (State.listenAgain s).chk = s.chk ∧ (State.listenAgain s).tkr = s.tkr ∧ (State.listenAgain s).tlm = s.tlm ∧
    (State.listenAgain s).cal = s.cal ∧ (State.listenAgain s).arb = s.arb ∧ (State.listenAgain s).free = s.free ∧
    (State.listenAgain s).pending = s.pending := by simp [State.listenAgain]
@[simp] theorem State.ownSlot_keeps (s : State) : (State.ownSlot s).part = s.part ∧ (State.ownSlot s).straps = s.straps ∧
    (State.ownSlot s).mode = s.mode ∧ (State.ownSlot s).life = s.life ∧ (State.ownSlot s).pp = s.pp ∧
    (State.ownSlot s).cnv = s.cnv ∧ (State.ownSlot s).chg = s.chg ∧ (State.ownSlot s).seq = s.seq ∧ (State.ownSlot s).pdp = s.pdp ∧
    (State.ownSlot s).ser = s.ser ∧ (State.ownSlot s).chk = s.chk ∧ (State.ownSlot s).tkr = s.tkr ∧ (State.ownSlot s).tlm = s.tlm ∧
    (State.ownSlot s).cal = s.cal ∧ (State.ownSlot s).arb = s.arb ∧ (State.ownSlot s).free = s.free ∧
    (State.ownSlot s).pending = s.pending := by unfold State.ownSlot; (repeat' split) <;> simp
@[simp] theorem State.joinAck_keeps (s : State) (id : BitVec 48) (a : Nat) : (State.joinAck s id a).part = s.part ∧
    (State.joinAck s id a).straps = s.straps ∧ (State.joinAck s id a).mode = s.mode ∧ (State.joinAck s id a).life = s.life ∧
    (State.joinAck s id a).regs = s.regs ∧ (State.joinAck s id a).pp = s.pp ∧ (State.joinAck s id a).cnv = s.cnv ∧
    (State.joinAck s id a).chg = s.chg ∧ (State.joinAck s id a).emg = s.emg ∧ (State.joinAck s id a).seq = s.seq ∧
    (State.joinAck s id a).pdp = s.pdp ∧ (State.joinAck s id a).ser = s.ser ∧ (State.joinAck s id a).fab = s.fab ∧
    (State.joinAck s id a).chk = s.chk ∧ (State.joinAck s id a).tkr = s.tkr ∧ (State.joinAck s id a).tlm = s.tlm ∧
    (State.joinAck s id a).cal = s.cal ∧ (State.joinAck s id a).arb = s.arb ∧ (State.joinAck s id a).free = s.free ∧
    (State.joinAck s id a).pending = s.pending := by simp [State.joinAck]
@[simp] theorem State.keepRx_keeps (s : State) (ring : Nat) (bytes : List Byte) : (State.keepRx s ring bytes).part = s.part ∧
    (State.keepRx s ring bytes).straps = s.straps ∧ (State.keepRx s ring bytes).mode = s.mode ∧
    (State.keepRx s ring bytes).life = s.life ∧ (State.keepRx s ring bytes).regs = s.regs ∧ (State.keepRx s ring bytes).pp = s.pp ∧
    (State.keepRx s ring bytes).cnv = s.cnv ∧ (State.keepRx s ring bytes).chg = s.chg ∧ (State.keepRx s ring bytes).emg = s.emg ∧
    (State.keepRx s ring bytes).seq = s.seq ∧ (State.keepRx s ring bytes).pdp = s.pdp ∧ (State.keepRx s ring bytes).ser = s.ser ∧
    (State.keepRx s ring bytes).fab = s.fab ∧ (State.keepRx s ring bytes).chk = s.chk ∧ (State.keepRx s ring bytes).tkr = s.tkr ∧
    (State.keepRx s ring bytes).tlm = s.tlm ∧ (State.keepRx s ring bytes).cal = s.cal ∧ (State.keepRx s ring bytes).arb = s.arb ∧
    (State.keepRx s ring bytes).free = s.free ∧ (State.keepRx s ring bytes).pending = s.pending := by simp [State.keepRx]
@[simp] theorem State.linkStore_keeps (s : State) (f : AgentFrame) (typ : Nat) (ring : Nat) (payload : List Byte) :
    (State.linkStore s f typ ring payload).1.part = s.part ∧ (State.linkStore s f typ ring payload).1.straps = s.straps ∧
    (State.linkStore s f typ ring payload).1.mode = s.mode ∧ (State.linkStore s f typ ring payload).1.life = s.life ∧
    (State.linkStore s f typ ring payload).1.regs = s.regs ∧ (State.linkStore s f typ ring payload).1.pp = s.pp ∧
    (State.linkStore s f typ ring payload).1.cnv = s.cnv ∧ (State.linkStore s f typ ring payload).1.chg = s.chg ∧
    (State.linkStore s f typ ring payload).1.emg = s.emg ∧ (State.linkStore s f typ ring payload).1.seq = s.seq ∧
    (State.linkStore s f typ ring payload).1.pdp = s.pdp ∧ (State.linkStore s f typ ring payload).1.ser = s.ser ∧
    (State.linkStore s f typ ring payload).1.chk = s.chk ∧ (State.linkStore s f typ ring payload).1.tkr = s.tkr ∧
    (State.linkStore s f typ ring payload).1.tlm = s.tlm ∧ (State.linkStore s f typ ring payload).1.cal = s.cal ∧
    (State.linkStore s f typ ring payload).1.arb = s.arb ∧ (State.linkStore s f typ ring payload).1.free = s.free ∧
    (State.linkStore s f typ ring payload).1.pending = s.pending := by
  unfold State.linkStore
  (repeat' apply And.intro) <;> (try simp) <;> (repeat' split) <;> (try simp) <;> (try simp_all)
@[simp] theorem State.txDone_keeps (s : State) (v : Nat) : (State.txDone s v).part = s.part ∧
    (State.txDone s v).straps = s.straps ∧ (State.txDone s v).mode = s.mode ∧ (State.txDone s v).life = s.life ∧
    (State.txDone s v).pp = s.pp ∧ (State.txDone s v).cnv = s.cnv ∧ (State.txDone s v).chg = s.chg ∧
    (State.txDone s v).emg = s.emg ∧ (State.txDone s v).seq = s.seq ∧ (State.txDone s v).pdp = s.pdp ∧
    (State.txDone s v).lnk = s.lnk ∧ (State.txDone s v).ser = s.ser ∧ (State.txDone s v).chk = s.chk ∧
    (State.txDone s v).tkr = s.tkr ∧ (State.txDone s v).tlm = s.tlm ∧ (State.txDone s v).cal = s.cal ∧
    (State.txDone s v).arb = s.arb ∧ (State.txDone s v).free = s.free ∧ (State.txDone s v).pending = s.pending := by simp [State.txDone]
@[simp] theorem State.putFrame_keeps (s : State) (f : Frame) (tries : Nat) : (State.putFrame s f tries).part = s.part ∧
    (State.putFrame s f tries).straps = s.straps ∧ (State.putFrame s f tries).mode = s.mode ∧
    (State.putFrame s f tries).life = s.life ∧ (State.putFrame s f tries).pp = s.pp ∧ (State.putFrame s f tries).cnv = s.cnv ∧
    (State.putFrame s f tries).chg = s.chg ∧ (State.putFrame s f tries).emg = s.emg ∧ (State.putFrame s f tries).seq = s.seq ∧
    (State.putFrame s f tries).pdp = s.pdp ∧ (State.putFrame s f tries).ser = s.ser ∧ (State.putFrame s f tries).chk = s.chk ∧
    (State.putFrame s f tries).tkr = s.tkr ∧ (State.putFrame s f tries).tlm = s.tlm ∧ (State.putFrame s f tries).cal = s.cal ∧
    (State.putFrame s f tries).arb = s.arb ∧ (State.putFrame s f tries).free = s.free ∧
    (State.putFrame s f tries).pending = s.pending := by unfold State.putFrame; split <;> simp
@[simp] theorem State.dropEntries_keeps (s : State) (k : Nat) (n : Nat) : (State.dropEntries s k n).part = s.part ∧
    (State.dropEntries s k n).straps = s.straps ∧ (State.dropEntries s k n).mode = s.mode ∧
    (State.dropEntries s k n).life = s.life ∧ (State.dropEntries s k n).regs = s.regs ∧ (State.dropEntries s k n).pp = s.pp ∧
    (State.dropEntries s k n).cnv = s.cnv ∧ (State.dropEntries s k n).chg = s.chg ∧ (State.dropEntries s k n).emg = s.emg ∧
    (State.dropEntries s k n).seq = s.seq ∧ (State.dropEntries s k n).pdp = s.pdp ∧ (State.dropEntries s k n).lnk = s.lnk ∧
    (State.dropEntries s k n).ser = s.ser ∧ (State.dropEntries s k n).chk = s.chk ∧ (State.dropEntries s k n).tkr = s.tkr ∧
    (State.dropEntries s k n).tlm = s.tlm ∧ (State.dropEntries s k n).cal = s.cal ∧ (State.dropEntries s k n).arb = s.arb ∧
    (State.dropEntries s k n).free = s.free ∧ (State.dropEntries s k n).pending = s.pending := by simp [State.dropEntries]
@[simp] theorem State.sendRing_keeps (s : State) (k : Nat) (freeUs : Nat) (leftUs : Nat) :
    (State.sendRing s k freeUs leftUs).part = s.part ∧ (State.sendRing s k freeUs leftUs).straps = s.straps ∧
    (State.sendRing s k freeUs leftUs).mode = s.mode ∧ (State.sendRing s k freeUs leftUs).life = s.life ∧
    (State.sendRing s k freeUs leftUs).pp = s.pp ∧ (State.sendRing s k freeUs leftUs).cnv = s.cnv ∧
    (State.sendRing s k freeUs leftUs).chg = s.chg ∧ (State.sendRing s k freeUs leftUs).emg = s.emg ∧
    (State.sendRing s k freeUs leftUs).seq = s.seq ∧ (State.sendRing s k freeUs leftUs).pdp = s.pdp ∧
    (State.sendRing s k freeUs leftUs).ser = s.ser ∧ (State.sendRing s k freeUs leftUs).chk = s.chk ∧
    (State.sendRing s k freeUs leftUs).tkr = s.tkr ∧ (State.sendRing s k freeUs leftUs).tlm = s.tlm ∧
    (State.sendRing s k freeUs leftUs).cal = s.cal ∧ (State.sendRing s k freeUs leftUs).arb = s.arb ∧
    (State.sendRing s k freeUs leftUs).free = s.free ∧ (State.sendRing s k freeUs leftUs).pending = s.pending := by
  unfold State.sendRing
  (repeat' apply And.intro) <;> (try simp) <;> (repeat' split) <;> (try simp) <;> (try simp_all)
@[simp] theorem State.dbSend_keeps (s : State) (dst : Nat) (d : Nat) : (State.dbSend s dst d).part = s.part ∧
    (State.dbSend s dst d).straps = s.straps ∧ (State.dbSend s dst d).mode = s.mode ∧ (State.dbSend s dst d).life = s.life ∧
    (State.dbSend s dst d).pp = s.pp ∧ (State.dbSend s dst d).cnv = s.cnv ∧ (State.dbSend s dst d).chg = s.chg ∧
    (State.dbSend s dst d).emg = s.emg ∧ (State.dbSend s dst d).seq = s.seq ∧ (State.dbSend s dst d).pdp = s.pdp ∧
    (State.dbSend s dst d).ser = s.ser ∧ (State.dbSend s dst d).chk = s.chk ∧ (State.dbSend s dst d).tkr = s.tkr ∧
    (State.dbSend s dst d).tlm = s.tlm ∧ (State.dbSend s dst d).cal = s.cal ∧ (State.dbSend s dst d).arb = s.arb ∧
    (State.dbSend s dst d).free = s.free ∧ (State.dbSend s dst d).pending = s.pending := by unfold State.dbSend; (repeat' split) <;> simp
@[simp] theorem State.linkOff_keeps (s : State) : (State.linkOff s).part = s.part ∧ (State.linkOff s).straps = s.straps ∧
    (State.linkOff s).mode = s.mode ∧ (State.linkOff s).life = s.life ∧ (State.linkOff s).regs = s.regs ∧
    (State.linkOff s).emg = s.emg ∧ (State.linkOff s).seq = s.seq ∧ (State.linkOff s).pdp = s.pdp ∧ (State.linkOff s).ser = s.ser ∧
    (State.linkOff s).chk = s.chk ∧ (State.linkOff s).tkr = s.tkr ∧ (State.linkOff s).cal = s.cal ∧ (State.linkOff s).arb = s.arb ∧
    (State.linkOff s).free = s.free ∧ (State.linkOff s).pending = s.pending := by simp [State.linkOff]
@[simp] theorem State.setPoe_keeps (s : State) (p : Poe) : (State.setPoe s p).part = s.part ∧
    (State.setPoe s p).straps = s.straps ∧ (State.setPoe s p).mode = s.mode ∧ (State.setPoe s p).life = s.life ∧
    (State.setPoe s p).regs = s.regs ∧ (State.setPoe s p).cnv = s.cnv ∧ (State.setPoe s p).chg = s.chg ∧
    (State.setPoe s p).emg = s.emg ∧ (State.setPoe s p).seq = s.seq ∧ (State.setPoe s p).pdp = s.pdp ∧
    (State.setPoe s p).lnk = s.lnk ∧ (State.setPoe s p).ser = s.ser ∧ (State.setPoe s p).fab = s.fab ∧
    (State.setPoe s p).chk = s.chk ∧ (State.setPoe s p).tkr = s.tkr ∧ (State.setPoe s p).tlm = s.tlm ∧
    (State.setPoe s p).cal = s.cal ∧ (State.setPoe s p).arb = s.arb ∧ (State.setPoe s p).free = s.free ∧
    (State.setPoe s p).pending = s.pending := by simp [State.setPoe]
@[simp] theorem State.setAlloc_keeps (s : State) : (State.setAlloc s).part = s.part ∧ (State.setAlloc s).straps = s.straps ∧
    (State.setAlloc s).mode = s.mode ∧ (State.setAlloc s).life = s.life ∧ (State.setAlloc s).regs = s.regs ∧
    (State.setAlloc s).cnv = s.cnv ∧ (State.setAlloc s).chg = s.chg ∧ (State.setAlloc s).emg = s.emg ∧
    (State.setAlloc s).seq = s.seq ∧ (State.setAlloc s).pdp = s.pdp ∧ (State.setAlloc s).lnk = s.lnk ∧
    (State.setAlloc s).ser = s.ser ∧ (State.setAlloc s).chk = s.chk ∧ (State.setAlloc s).tkr = s.tkr ∧
    (State.setAlloc s).tlm = s.tlm ∧ (State.setAlloc s).cal = s.cal ∧ (State.setAlloc s).arb = s.arb ∧
    (State.setAlloc s).free = s.free ∧ (State.setAlloc s).pending = s.pending := by simp [State.setAlloc]
@[simp] theorem State.classDefault_keeps (s : State) : (State.classDefault s).part = s.part ∧
    (State.classDefault s).straps = s.straps ∧ (State.classDefault s).mode = s.mode ∧ (State.classDefault s).life = s.life ∧
    (State.classDefault s).regs = s.regs ∧ (State.classDefault s).cnv = s.cnv ∧ (State.classDefault s).chg = s.chg ∧
    (State.classDefault s).emg = s.emg ∧ (State.classDefault s).seq = s.seq ∧ (State.classDefault s).pdp = s.pdp ∧
    (State.classDefault s).lnk = s.lnk ∧ (State.classDefault s).ser = s.ser ∧ (State.classDefault s).fab = s.fab ∧
    (State.classDefault s).chk = s.chk ∧ (State.classDefault s).tkr = s.tkr ∧ (State.classDefault s).tlm = s.tlm ∧
    (State.classDefault s).cal = s.cal ∧ (State.classDefault s).arb = s.arb ∧ (State.classDefault s).free = s.free ∧
    (State.classDefault s).pending = s.pending := by unfold State.classDefault; split <;> simp
@[simp] theorem State.writeDll_keeps (s : State) (v : Nat) (mv : Nat) : (State.writeDll s v mv).part = s.part ∧
    (State.writeDll s v mv).straps = s.straps ∧ (State.writeDll s v mv).mode = s.mode ∧ (State.writeDll s v mv).life = s.life ∧
    (State.writeDll s v mv).cnv = s.cnv ∧ (State.writeDll s v mv).chg = s.chg ∧ (State.writeDll s v mv).emg = s.emg ∧
    (State.writeDll s v mv).seq = s.seq ∧ (State.writeDll s v mv).pdp = s.pdp ∧ (State.writeDll s v mv).lnk = s.lnk ∧
    (State.writeDll s v mv).ser = s.ser ∧ (State.writeDll s v mv).chk = s.chk ∧ (State.writeDll s v mv).tkr = s.tkr ∧
    (State.writeDll s v mv).tlm = s.tlm ∧ (State.writeDll s v mv).cal = s.cal ∧ (State.writeDll s v mv).arb = s.arb ∧
    (State.writeDll s v mv).free = s.free ∧ (State.writeDll s v mv).pending = s.pending := by simp [State.writeDll]
@[simp] theorem State.wakeInput_keeps (s : State) : (State.wakeInput s).part = s.part ∧ (State.wakeInput s).straps = s.straps ∧
    (State.wakeInput s).regs = s.regs ∧ (State.wakeInput s).emg = s.emg ∧ (State.wakeInput s).seq = s.seq ∧
    (State.wakeInput s).pdp = s.pdp ∧ (State.wakeInput s).lnk = s.lnk ∧ (State.wakeInput s).ser = s.ser ∧
    (State.wakeInput s).chk = s.chk ∧ (State.wakeInput s).tkr = s.tkr ∧ (State.wakeInput s).cal = s.cal ∧
    (State.wakeInput s).arb = s.arb ∧ (State.wakeInput s).free = s.free ∧ (State.wakeInput s).pending = s.pending := by unfold State.wakeInput; split <;> simp
@[simp] theorem State.becomeValid_keeps (s : State) (i : InputId) : (State.becomeValid s i).part = s.part ∧
    (State.becomeValid s i).straps = s.straps ∧ (State.becomeValid s i).regs = s.regs ∧ (State.becomeValid s i).emg = s.emg ∧
    (State.becomeValid s i).seq = s.seq ∧ (State.becomeValid s i).lnk = s.lnk ∧ (State.becomeValid s i).ser = s.ser ∧
    (State.becomeValid s i).chk = s.chk ∧ (State.becomeValid s i).tkr = s.tkr ∧ (State.becomeValid s i).cal = s.cal ∧
    (State.becomeValid s i).arb = s.arb ∧ (State.becomeValid s i).free = s.free ∧ (State.becomeValid s i).pending = s.pending := by
  unfold State.becomeValid
  (repeat' apply And.intro) <;> (try simp) <;> (repeat' split) <;> (try simp) <;> (try simp_all)
@[simp] theorem State.becomeInvalid_keeps (s : State) (i : InputId) : (State.becomeInvalid s i).part = s.part ∧
    (State.becomeInvalid s i).straps = s.straps ∧ (State.becomeInvalid s i).regs = s.regs ∧ (State.becomeInvalid s i).emg = s.emg ∧
    (State.becomeInvalid s i).pdp = s.pdp ∧ (State.becomeInvalid s i).lnk = s.lnk ∧ (State.becomeInvalid s i).ser = s.ser ∧
    (State.becomeInvalid s i).chk = s.chk ∧ (State.becomeInvalid s i).tkr = s.tkr ∧ (State.becomeInvalid s i).cal = s.cal ∧
    (State.becomeInvalid s i).arb = s.arb ∧ (State.becomeInvalid s i).free = s.free ∧ (State.becomeInvalid s i).pending = s.pending := by
  unfold State.becomeInvalid
  (repeat' apply And.intro) <;> (try simp) <;> (repeat' split) <;> (try simp) <;> (try simp_all)
@[simp] theorem State.endSwap_keeps (s : State) (i : InputId) : (State.endSwap s i).part = s.part ∧
    (State.endSwap s i).straps = s.straps ∧ (State.endSwap s i).mode = s.mode ∧ (State.endSwap s i).life = s.life ∧
    (State.endSwap s i).regs = s.regs ∧ (State.endSwap s i).pp = s.pp ∧ (State.endSwap s i).cnv = s.cnv ∧
    (State.endSwap s i).chg = s.chg ∧ (State.endSwap s i).emg = s.emg ∧ (State.endSwap s i).seq = s.seq ∧
    (State.endSwap s i).lnk = s.lnk ∧ (State.endSwap s i).ser = s.ser ∧ (State.endSwap s i).fab = s.fab ∧
    (State.endSwap s i).chk = s.chk ∧ (State.endSwap s i).tkr = s.tkr ∧ (State.endSwap s i).tlm = s.tlm ∧
    (State.endSwap s i).cal = s.cal ∧ (State.endSwap s i).arb = s.arb ∧ (State.endSwap s i).free = s.free ∧
    (State.endSwap s i).pending = s.pending := by unfold State.endSwap; split <;> simp
@[simp] theorem State.collapse_keeps (s : State) : (State.collapse s).part = s.part ∧ (State.collapse s).straps = s.straps ∧
    (State.collapse s).mode = s.mode ∧ (State.collapse s).life = s.life ∧ (State.collapse s).emg = s.emg ∧
    (State.collapse s).seq = s.seq ∧ (State.collapse s).lnk = s.lnk ∧ (State.collapse s).ser = s.ser ∧
    (State.collapse s).chk = s.chk ∧ (State.collapse s).tkr = s.tkr ∧ (State.collapse s).cal = s.cal ∧
    (State.collapse s).arb = s.arb ∧ (State.collapse s).free = s.free ∧ (State.collapse s).pending = s.pending := by simp [State.collapse]
@[simp] theorem State.overvoltage_keeps (s : State) (i : InputId) : (State.overvoltage s i).part = s.part ∧
    (State.overvoltage s i).straps = s.straps ∧ (State.overvoltage s i).emg = s.emg ∧ (State.overvoltage s i).lnk = s.lnk ∧
    (State.overvoltage s i).ser = s.ser ∧ (State.overvoltage s i).chk = s.chk ∧ (State.overvoltage s i).tkr = s.tkr ∧
    (State.overvoltage s i).cal = s.cal ∧ (State.overvoltage s i).arb = s.arb ∧ (State.overvoltage s i).free = s.free ∧
    (State.overvoltage s i).pending = s.pending := by unfold State.overvoltage; (repeat' split) <;> simp
@[simp] theorem State.writePthEn_keeps (s : State) (v : Nat) : (State.writePthEn s v).part = s.part ∧
    (State.writePthEn s v).straps = s.straps ∧ (State.writePthEn s v).mode = s.mode ∧ (State.writePthEn s v).life = s.life ∧
    (State.writePthEn s v).emg = s.emg ∧ (State.writePthEn s v).seq = s.seq ∧ (State.writePthEn s v).pdp = s.pdp ∧
    (State.writePthEn s v).lnk = s.lnk ∧ (State.writePthEn s v).ser = s.ser ∧ (State.writePthEn s v).chk = s.chk ∧
    (State.writePthEn s v).tkr = s.tkr ∧ (State.writePthEn s v).cal = s.cal ∧ (State.writePthEn s v).arb = s.arb ∧
    (State.writePthEn s v).free = s.free ∧ (State.writePthEn s v).pending = s.pending := by simp [State.writePthEn]
@[simp] theorem State.setAcc_keeps (s : State) (u : UnitId) (v : Nat) : (State.setAcc s u v).part = s.part ∧
    (State.setAcc s u v).straps = s.straps ∧ (State.setAcc s u v).mode = s.mode ∧ (State.setAcc s u v).life = s.life ∧
    (State.setAcc s u v).pp = s.pp ∧ (State.setAcc s u v).cnv = s.cnv ∧ (State.setAcc s u v).chg = s.chg ∧
    (State.setAcc s u v).emg = s.emg ∧ (State.setAcc s u v).seq = s.seq ∧ (State.setAcc s u v).pdp = s.pdp ∧
    (State.setAcc s u v).lnk = s.lnk ∧ (State.setAcc s u v).ser = s.ser ∧ (State.setAcc s u v).fab = s.fab ∧
    (State.setAcc s u v).chk = s.chk ∧ (State.setAcc s u v).tkr = s.tkr ∧ (State.setAcc s u v).tlm = s.tlm ∧
    (State.setAcc s u v).cal = s.cal ∧ (State.setAcc s u v).arb = s.arb ∧ (State.setAcc s u v).free = s.free ∧
    (State.setAcc s u v).pending = s.pending := by simp [State.setAcc]
@[simp] theorem State.runJob_keeps (s : State) (u : UnitId) (j : Job) : (State.runJob s u j).part = s.part ∧
    (State.runJob s u j).straps = s.straps ∧ (State.runJob s u j).mode = s.mode ∧ (State.runJob s u j).life = s.life ∧
    (State.runJob s u j).pp = s.pp ∧ (State.runJob s u j).cnv = s.cnv ∧ (State.runJob s u j).chg = s.chg ∧
    (State.runJob s u j).emg = s.emg ∧ (State.runJob s u j).seq = s.seq ∧ (State.runJob s u j).pdp = s.pdp ∧
    (State.runJob s u j).lnk = s.lnk ∧ (State.runJob s u j).ser = s.ser ∧ (State.runJob s u j).tkr = s.tkr ∧
    (State.runJob s u j).tlm = s.tlm ∧ (State.runJob s u j).cal = s.cal ∧ (State.runJob s u j).arb = s.arb ∧
    (State.runJob s u j).free = s.free ∧ (State.runJob s u j).pending = s.pending := by unfold State.runJob; split <;> simp
@[simp] theorem State.takeJob_keeps (s : State) (u : UnitId) (x2 : Nat) : (State.takeJob s u x2).part = s.part ∧
    (State.takeJob s u x2).straps = s.straps ∧ (State.takeJob s u x2).mode = s.mode ∧ (State.takeJob s u x2).life = s.life ∧
    (State.takeJob s u x2).pp = s.pp ∧ (State.takeJob s u x2).cnv = s.cnv ∧ (State.takeJob s u x2).chg = s.chg ∧
    (State.takeJob s u x2).emg = s.emg ∧ (State.takeJob s u x2).seq = s.seq ∧ (State.takeJob s u x2).pdp = s.pdp ∧
    (State.takeJob s u x2).lnk = s.lnk ∧ (State.takeJob s u x2).ser = s.ser ∧ (State.takeJob s u x2).tkr = s.tkr ∧
    (State.takeJob s u x2).tlm = s.tlm ∧ (State.takeJob s u x2).cal = s.cal ∧ (State.takeJob s u x2).arb = s.arb ∧
    (State.takeJob s u x2).free = s.free ∧ (State.takeJob s u x2).pending = s.pending := by
  induction x2 generalizing s with
  | zero => simp [State.takeJob]
  | succ n ih =>
    unfold State.takeJob; dsimp only
    split
    · simp
    · rename_i q _ _
      have h := State.takeEntry_keeps s q
      generalize s.takeEntry q = e at *
      split <;> simp_all
    · simp
@[simp] theorem State.resumeTest_keeps (s : State) (u : UnitId) : (State.resumeTest s u).part = s.part ∧
    (State.resumeTest s u).straps = s.straps ∧ (State.resumeTest s u).mode = s.mode ∧ (State.resumeTest s u).life = s.life ∧
    (State.resumeTest s u).regs = s.regs ∧ (State.resumeTest s u).pp = s.pp ∧ (State.resumeTest s u).cnv = s.cnv ∧
    (State.resumeTest s u).chg = s.chg ∧ (State.resumeTest s u).emg = s.emg ∧ (State.resumeTest s u).seq = s.seq ∧
    (State.resumeTest s u).pdp = s.pdp ∧ (State.resumeTest s u).lnk = s.lnk ∧ (State.resumeTest s u).ser = s.ser ∧
    (State.resumeTest s u).fab = s.fab ∧ (State.resumeTest s u).tkr = s.tkr ∧ (State.resumeTest s u).tlm = s.tlm ∧
    (State.resumeTest s u).cal = s.cal ∧ (State.resumeTest s u).arb = s.arb ∧ (State.resumeTest s u).free = s.free ∧
    (State.resumeTest s u).pending = s.pending := by simp [State.resumeTest]
@[simp] theorem State.savePreempted_keeps (s : State) (u : UnitId) (bg : Option (Word32 × Word32)) :
    (State.savePreempted s u bg).part = s.part ∧ (State.savePreempted s u bg).straps = s.straps ∧
    (State.savePreempted s u bg).mode = s.mode ∧ (State.savePreempted s u bg).life = s.life ∧
    (State.savePreempted s u bg).pp = s.pp ∧ (State.savePreempted s u bg).cnv = s.cnv ∧ (State.savePreempted s u bg).chg = s.chg ∧
    (State.savePreempted s u bg).emg = s.emg ∧ (State.savePreempted s u bg).seq = s.seq ∧
    (State.savePreempted s u bg).pdp = s.pdp ∧ (State.savePreempted s u bg).lnk = s.lnk ∧
    (State.savePreempted s u bg).ser = s.ser ∧ (State.savePreempted s u bg).fab = s.fab ∧
    (State.savePreempted s u bg).tkr = s.tkr ∧ (State.savePreempted s u bg).tlm = s.tlm ∧
    (State.savePreempted s u bg).cal = s.cal ∧ (State.savePreempted s u bg).arb = s.arb ∧
    (State.savePreempted s u bg).free = s.free ∧ (State.savePreempted s u bg).pending = s.pending := by
  unfold State.savePreempted
  (repeat' apply And.intro) <;> (try simp) <;> (repeat' split) <;> (try simp) <;> (try simp_all)
@[simp] theorem State.finishJob_keeps (s : State) (u : UnitId) (j : Job) : (State.finishJob s u j).part = s.part ∧
    (State.finishJob s u j).straps = s.straps ∧ (State.finishJob s u j).mode = s.mode ∧ (State.finishJob s u j).life = s.life ∧
    (State.finishJob s u j).pp = s.pp ∧ (State.finishJob s u j).cnv = s.cnv ∧ (State.finishJob s u j).chg = s.chg ∧
    (State.finishJob s u j).emg = s.emg ∧ (State.finishJob s u j).seq = s.seq ∧ (State.finishJob s u j).pdp = s.pdp ∧
    (State.finishJob s u j).lnk = s.lnk ∧ (State.finishJob s u j).ser = s.ser ∧ (State.finishJob s u j).tkr = s.tkr ∧
    (State.finishJob s u j).tlm = s.tlm ∧ (State.finishJob s u j).cal = s.cal ∧ (State.finishJob s u j).arb = s.arb ∧
    (State.finishJob s u j).free = s.free ∧ (State.finishJob s u j).pending = s.pending := by simp [State.finishJob]
@[simp] theorem State.reply_keeps (s : State) (a : Agent) (r : Req) (x : Answered) : (State.reply s a r x).part = s.part ∧
    (State.reply s a r x).straps = s.straps ∧ (State.reply s a r x).mode = s.mode ∧ (State.reply s a r x).life = s.life ∧
    (State.reply s a r x).regs = s.regs ∧ (State.reply s a r x).pp = s.pp ∧ (State.reply s a r x).cnv = s.cnv ∧
    (State.reply s a r x).chg = s.chg ∧ (State.reply s a r x).emg = s.emg ∧ (State.reply s a r x).seq = s.seq ∧
    (State.reply s a r x).pdp = s.pdp ∧ (State.reply s a r x).lnk = s.lnk ∧ (State.reply s a r x).ser = s.ser ∧
    (State.reply s a r x).chk = s.chk ∧ (State.reply s a r x).tlm = s.tlm ∧ (State.reply s a r x).cal = s.cal ∧
    (State.reply s a r x).arb = s.arb ∧ (State.reply s a r x).free = s.free ∧ (State.reply s a r x).pending = s.pending := by
  unfold State.reply
  (repeat' apply And.intro) <;> (try simp) <;> (repeat' split) <;> (try simp) <;> (try simp_all)
@[simp] theorem State.startRequest_keeps (s : State) (a : Agent) (r : Req) : (State.startRequest s a r).part = s.part ∧
    (State.startRequest s a r).straps = s.straps ∧ (State.startRequest s a r).mode = s.mode ∧
    (State.startRequest s a r).life = s.life ∧ (State.startRequest s a r).regs = s.regs ∧ (State.startRequest s a r).pp = s.pp ∧
    (State.startRequest s a r).cnv = s.cnv ∧ (State.startRequest s a r).chg = s.chg ∧ (State.startRequest s a r).emg = s.emg ∧
    (State.startRequest s a r).seq = s.seq ∧ (State.startRequest s a r).pdp = s.pdp ∧ (State.startRequest s a r).lnk = s.lnk ∧
    (State.startRequest s a r).ser = s.ser ∧ (State.startRequest s a r).chk = s.chk ∧ (State.startRequest s a r).tlm = s.tlm ∧
    (State.startRequest s a r).cal = s.cal ∧ (State.startRequest s a r).free = s.free ∧
    (State.startRequest s a r).pending = s.pending := by unfold State.startRequest; (repeat' split) <;> simp
@[simp] theorem State.noteFlips_keeps (s : State) (b : Nat) (flips : Nat) : (State.noteFlips s b flips).part = s.part ∧
    (State.noteFlips s b flips).straps = s.straps ∧ (State.noteFlips s b flips).mode = s.mode ∧
    (State.noteFlips s b flips).life = s.life ∧ (State.noteFlips s b flips).regs = s.regs ∧ (State.noteFlips s b flips).pp = s.pp ∧
    (State.noteFlips s b flips).cnv = s.cnv ∧ (State.noteFlips s b flips).chg = s.chg ∧ (State.noteFlips s b flips).emg = s.emg ∧
    (State.noteFlips s b flips).seq = s.seq ∧ (State.noteFlips s b flips).pdp = s.pdp ∧ (State.noteFlips s b flips).lnk = s.lnk ∧
    (State.noteFlips s b flips).ser = s.ser ∧ (State.noteFlips s b flips).fab = s.fab ∧ (State.noteFlips s b flips).chk = s.chk ∧
    (State.noteFlips s b flips).tlm = s.tlm ∧ (State.noteFlips s b flips).cal = s.cal ∧ (State.noteFlips s b flips).arb = s.arb ∧
    (State.noteFlips s b flips).free = s.free ∧ (State.noteFlips s b flips).pending = s.pending := by simp [State.noteFlips]
@[simp] theorem State.readPage_keeps (s : State) (pg : Nat) (flips : Nat) : (State.readPage s pg flips).1.part = s.part ∧
    (State.readPage s pg flips).1.straps = s.straps ∧ (State.readPage s pg flips).1.mode = s.mode ∧
    (State.readPage s pg flips).1.life = s.life ∧ (State.readPage s pg flips).1.pp = s.pp ∧
    (State.readPage s pg flips).1.cnv = s.cnv ∧ (State.readPage s pg flips).1.chg = s.chg ∧
    (State.readPage s pg flips).1.emg = s.emg ∧ (State.readPage s pg flips).1.seq = s.seq ∧
    (State.readPage s pg flips).1.pdp = s.pdp ∧ (State.readPage s pg flips).1.lnk = s.lnk ∧
    (State.readPage s pg flips).1.ser = s.ser ∧ (State.readPage s pg flips).1.chk = s.chk ∧
    (State.readPage s pg flips).1.tlm = s.tlm ∧ (State.readPage s pg flips).1.cal = s.cal ∧
    (State.readPage s pg flips).1.arb = s.arb ∧ (State.readPage s pg flips).1.pending = s.pending := by unfold State.readPage; (repeat' split) <;> simp
@[simp] theorem State.readPages_keeps (s : State) (pg : Nat) (flips : List Nat) (x3 : Nat) :
    (State.readPages s pg flips x3).1.part = s.part ∧ (State.readPages s pg flips x3).1.straps = s.straps ∧
    (State.readPages s pg flips x3).1.mode = s.mode ∧ (State.readPages s pg flips x3).1.life = s.life ∧
    (State.readPages s pg flips x3).1.pp = s.pp ∧ (State.readPages s pg flips x3).1.cnv = s.cnv ∧
    (State.readPages s pg flips x3).1.chg = s.chg ∧ (State.readPages s pg flips x3).1.emg = s.emg ∧
    (State.readPages s pg flips x3).1.seq = s.seq ∧ (State.readPages s pg flips x3).1.pdp = s.pdp ∧
    (State.readPages s pg flips x3).1.lnk = s.lnk ∧ (State.readPages s pg flips x3).1.ser = s.ser ∧
    (State.readPages s pg flips x3).1.chk = s.chk ∧ (State.readPages s pg flips x3).1.tlm = s.tlm ∧
    (State.readPages s pg flips x3).1.cal = s.cal ∧ (State.readPages s pg flips x3).1.arb = s.arb ∧
    (State.readPages s pg flips x3).1.pending = s.pending := by
  induction x3 generalizing s pg flips with
  | zero => simp [State.readPages]
  | succ n ih => have h := State.readPage_keeps s pg (flips.headD 0); simp [State.readPages, ih]
@[simp] theorem State.putSram_keeps (s : State) (d : Nat) (es : List (List Byte)) : (State.putSram s d es).part = s.part ∧
    (State.putSram s d es).straps = s.straps ∧ (State.putSram s d es).mode = s.mode ∧ (State.putSram s d es).life = s.life ∧
    (State.putSram s d es).regs = s.regs ∧ (State.putSram s d es).pp = s.pp ∧ (State.putSram s d es).cnv = s.cnv ∧
    (State.putSram s d es).chg = s.chg ∧ (State.putSram s d es).emg = s.emg ∧ (State.putSram s d es).seq = s.seq ∧
    (State.putSram s d es).pdp = s.pdp ∧ (State.putSram s d es).lnk = s.lnk ∧ (State.putSram s d es).ser = s.ser ∧
    (State.putSram s d es).chk = s.chk ∧ (State.putSram s d es).tkr = s.tkr ∧ (State.putSram s d es).tlm = s.tlm ∧
    (State.putSram s d es).cal = s.cal ∧ (State.putSram s d es).arb = s.arb ∧ (State.putSram s d es).free = s.free ∧
    (State.putSram s d es).pending = s.pending := by simp [State.putSram]
@[simp] theorem State.journalOut_keeps (s : State) : (State.journalOut s).part = s.part ∧ (State.journalOut s).straps = s.straps ∧
    (State.journalOut s).mode = s.mode ∧ (State.journalOut s).life = s.life ∧ (State.journalOut s).regs = s.regs ∧
    (State.journalOut s).pp = s.pp ∧ (State.journalOut s).cnv = s.cnv ∧ (State.journalOut s).chg = s.chg ∧
    (State.journalOut s).emg = s.emg ∧ (State.journalOut s).seq = s.seq ∧ (State.journalOut s).pdp = s.pdp ∧
    (State.journalOut s).lnk = s.lnk ∧ (State.journalOut s).ser = s.ser ∧ (State.journalOut s).chk = s.chk ∧
    (State.journalOut s).tlm = s.tlm ∧ (State.journalOut s).cal = s.cal ∧ (State.journalOut s).arb = s.arb ∧
    (State.journalOut s).free = s.free ∧ (State.journalOut s).pending = s.pending := by simp [State.journalOut]
@[simp] theorem State.sessionEnd_keeps (s : State) : (State.sessionEnd s).part = s.part ∧ (State.sessionEnd s).straps = s.straps ∧
    (State.sessionEnd s).mode = s.mode ∧ (State.sessionEnd s).life = s.life ∧ (State.sessionEnd s).regs = s.regs ∧
    (State.sessionEnd s).pp = s.pp ∧ (State.sessionEnd s).cnv = s.cnv ∧ (State.sessionEnd s).chg = s.chg ∧
    (State.sessionEnd s).emg = s.emg ∧ (State.sessionEnd s).seq = s.seq ∧ (State.sessionEnd s).pdp = s.pdp ∧
    (State.sessionEnd s).lnk = s.lnk ∧ (State.sessionEnd s).ser = s.ser ∧ (State.sessionEnd s).chk = s.chk ∧
    (State.sessionEnd s).tlm = s.tlm ∧ (State.sessionEnd s).cal = s.cal ∧ (State.sessionEnd s).arb = s.arb ∧
    (State.sessionEnd s).free = s.free ∧ (State.sessionEnd s).pending = s.pending := by simp [State.sessionEnd]
@[simp] theorem State.setImg_keeps (s : State) (slot : Nat) (v : Option Nat) : (State.setImg s slot v).part = s.part ∧
    (State.setImg s slot v).straps = s.straps ∧ (State.setImg s slot v).mode = s.mode ∧ (State.setImg s slot v).life = s.life ∧
    (State.setImg s slot v).regs = s.regs ∧ (State.setImg s slot v).pp = s.pp ∧ (State.setImg s slot v).cnv = s.cnv ∧
    (State.setImg s slot v).chg = s.chg ∧ (State.setImg s slot v).emg = s.emg ∧ (State.setImg s slot v).seq = s.seq ∧
    (State.setImg s slot v).pdp = s.pdp ∧ (State.setImg s slot v).lnk = s.lnk ∧ (State.setImg s slot v).ser = s.ser ∧
    (State.setImg s slot v).fab = s.fab ∧ (State.setImg s slot v).chk = s.chk ∧ (State.setImg s slot v).tlm = s.tlm ∧
    (State.setImg s slot v).cal = s.cal ∧ (State.setImg s slot v).arb = s.arb ∧ (State.setImg s slot v).free = s.free ∧
    (State.setImg s slot v).pending = s.pending := by simp [State.setImg]
@[simp] theorem State.writePages_keeps (s : State) (pg : Nat) (bs : List Byte) (x3 : Nat) :
    (State.writePages s pg bs x3).part = s.part ∧ (State.writePages s pg bs x3).straps = s.straps ∧
    (State.writePages s pg bs x3).mode = s.mode ∧ (State.writePages s pg bs x3).life = s.life ∧
    (State.writePages s pg bs x3).regs = s.regs ∧ (State.writePages s pg bs x3).pp = s.pp ∧
    (State.writePages s pg bs x3).cnv = s.cnv ∧ (State.writePages s pg bs x3).chg = s.chg ∧
    (State.writePages s pg bs x3).emg = s.emg ∧ (State.writePages s pg bs x3).seq = s.seq ∧
    (State.writePages s pg bs x3).pdp = s.pdp ∧ (State.writePages s pg bs x3).lnk = s.lnk ∧
    (State.writePages s pg bs x3).ser = s.ser ∧ (State.writePages s pg bs x3).chk = s.chk ∧
    (State.writePages s pg bs x3).tlm = s.tlm ∧ (State.writePages s pg bs x3).cal = s.cal ∧
    (State.writePages s pg bs x3).arb = s.arb ∧ (State.writePages s pg bs x3).free = s.free ∧
    (State.writePages s pg bs x3).pending = s.pending := by
  induction x3 generalizing s pg bs with
  | zero => simp [State.writePages]
  | succ n ih => unfold State.writePages; (repeat' split) <;> simp_all
@[simp] theorem State.activateBank_keeps (s : State) (e : Session) : (State.activateBank s e).1.part = s.part ∧
    (State.activateBank s e).1.straps = s.straps ∧ (State.activateBank s e).1.mode = s.mode ∧
    (State.activateBank s e).1.life = s.life ∧ (State.activateBank s e).1.regs = s.regs ∧ (State.activateBank s e).1.pp = s.pp ∧
    (State.activateBank s e).1.cnv = s.cnv ∧ (State.activateBank s e).1.chg = s.chg ∧ (State.activateBank s e).1.emg = s.emg ∧
    (State.activateBank s e).1.seq = s.seq ∧ (State.activateBank s e).1.pdp = s.pdp ∧ (State.activateBank s e).1.lnk = s.lnk ∧
    (State.activateBank s e).1.ser = s.ser ∧ (State.activateBank s e).1.chk = s.chk ∧ (State.activateBank s e).1.tlm = s.tlm ∧
    (State.activateBank s e).1.cal = s.cal ∧ (State.activateBank s e).1.arb = s.arb ∧ (State.activateBank s e).1.free = s.free ∧
    (State.activateBank s e).1.pending = s.pending := by
  unfold State.activateBank
  (repeat' apply And.intro) <;> (try simp) <;> (repeat' split) <;> (try simp) <;> (try simp_all)
@[simp] theorem State.installPatch_keeps (s : State) (e : Session) (install : Bool) :
    (State.installPatch s e install).1.part = s.part ∧ (State.installPatch s e install).1.straps = s.straps ∧
    (State.installPatch s e install).1.mode = s.mode ∧ (State.installPatch s e install).1.life = s.life ∧
    (State.installPatch s e install).1.regs = s.regs ∧ (State.installPatch s e install).1.pp = s.pp ∧
    (State.installPatch s e install).1.cnv = s.cnv ∧ (State.installPatch s e install).1.chg = s.chg ∧
    (State.installPatch s e install).1.emg = s.emg ∧ (State.installPatch s e install).1.seq = s.seq ∧
    (State.installPatch s e install).1.pdp = s.pdp ∧ (State.installPatch s e install).1.lnk = s.lnk ∧
    (State.installPatch s e install).1.ser = s.ser ∧ (State.installPatch s e install).1.chk = s.chk ∧
    (State.installPatch s e install).1.tlm = s.tlm ∧ (State.installPatch s e install).1.cal = s.cal ∧
    (State.installPatch s e install).1.arb = s.arb ∧ (State.installPatch s e install).1.free = s.free ∧
    (State.installPatch s e install).1.pending = s.pending := by
  unfold State.installPatch
  (repeat' apply And.intro) <;> (try simp) <;> (repeat' split) <;> (try simp) <;> (try simp_all)
@[simp] theorem State.closeSession_keeps (s : State) (r : Req) (e : Session) : (State.closeSession s r e).1.part = s.part ∧
    (State.closeSession s r e).1.straps = s.straps ∧ (State.closeSession s r e).1.mode = s.mode ∧
    (State.closeSession s r e).1.life = s.life ∧ (State.closeSession s r e).1.regs = s.regs ∧
    (State.closeSession s r e).1.pp = s.pp ∧ (State.closeSession s r e).1.cnv = s.cnv ∧ (State.closeSession s r e).1.chg = s.chg ∧
    (State.closeSession s r e).1.emg = s.emg ∧ (State.closeSession s r e).1.seq = s.seq ∧
    (State.closeSession s r e).1.pdp = s.pdp ∧ (State.closeSession s r e).1.lnk = s.lnk ∧
    (State.closeSession s r e).1.ser = s.ser ∧ (State.closeSession s r e).1.chk = s.chk ∧
    (State.closeSession s r e).1.tlm = s.tlm ∧ (State.closeSession s r e).1.cal = s.cal ∧
    (State.closeSession s r e).1.arb = s.arb ∧ (State.closeSession s r e).1.free = s.free ∧
    (State.closeSession s r e).1.pending = s.pending := by
  unfold State.closeSession
  (repeat' apply And.intro) <;> (try simp) <;> (repeat' split) <;> (try simp) <;> (try simp_all)
@[simp] theorem State.scrubPage_keeps (s : State) (pg : Nat) (flips : Nat) : (State.scrubPage s pg flips).part = s.part ∧
    (State.scrubPage s pg flips).straps = s.straps ∧ (State.scrubPage s pg flips).mode = s.mode ∧
    (State.scrubPage s pg flips).life = s.life ∧ (State.scrubPage s pg flips).pp = s.pp ∧
    (State.scrubPage s pg flips).cnv = s.cnv ∧ (State.scrubPage s pg flips).chg = s.chg ∧
    (State.scrubPage s pg flips).emg = s.emg ∧ (State.scrubPage s pg flips).seq = s.seq ∧
    (State.scrubPage s pg flips).pdp = s.pdp ∧ (State.scrubPage s pg flips).lnk = s.lnk ∧
    (State.scrubPage s pg flips).ser = s.ser ∧ (State.scrubPage s pg flips).chk = s.chk ∧
    (State.scrubPage s pg flips).tlm = s.tlm ∧ (State.scrubPage s pg flips).cal = s.cal ∧
    (State.scrubPage s pg flips).arb = s.arb ∧ (State.scrubPage s pg flips).pending = s.pending := by simp [State.scrubPage]
@[simp] theorem State.refresh_keeps (s : State) (b : Nat) (eraseOk : Bool) : (State.refresh s b eraseOk).part = s.part ∧
    (State.refresh s b eraseOk).straps = s.straps ∧ (State.refresh s b eraseOk).mode = s.mode ∧
    (State.refresh s b eraseOk).life = s.life ∧ (State.refresh s b eraseOk).regs = s.regs ∧ (State.refresh s b eraseOk).pp = s.pp ∧
    (State.refresh s b eraseOk).cnv = s.cnv ∧ (State.refresh s b eraseOk).chg = s.chg ∧ (State.refresh s b eraseOk).emg = s.emg ∧
    (State.refresh s b eraseOk).seq = s.seq ∧ (State.refresh s b eraseOk).pdp = s.pdp ∧ (State.refresh s b eraseOk).lnk = s.lnk ∧
    (State.refresh s b eraseOk).ser = s.ser ∧ (State.refresh s b eraseOk).chk = s.chk ∧ (State.refresh s b eraseOk).tlm = s.tlm ∧
    (State.refresh s b eraseOk).cal = s.cal ∧ (State.refresh s b eraseOk).arb = s.arb ∧ (State.refresh s b eraseOk).free = s.free ∧
    (State.refresh s b eraseOk).pending = s.pending := by unfold State.refresh; (repeat' split) <;> simp
@[simp] theorem State.storeReg_keeps (s : State) (a : Agent) (i : Nat) (v : Nat) : (State.storeReg s a i v).part = s.part ∧
    (State.storeReg s a i v).straps = s.straps ∧ (State.storeReg s a i v).mode = s.mode ∧ (State.storeReg s a i v).life = s.life ∧
    (State.storeReg s a i v).pp = s.pp ∧ (State.storeReg s a i v).cnv = s.cnv ∧ (State.storeReg s a i v).chg = s.chg ∧
    (State.storeReg s a i v).emg = s.emg ∧ (State.storeReg s a i v).seq = s.seq ∧ (State.storeReg s a i v).pdp = s.pdp ∧
    (State.storeReg s a i v).lnk = s.lnk ∧ (State.storeReg s a i v).fab = s.fab ∧ (State.storeReg s a i v).chk = s.chk ∧
    (State.storeReg s a i v).tkr = s.tkr ∧ (State.storeReg s a i v).tlm = s.tlm ∧ (State.storeReg s a i v).cal = s.cal ∧
    (State.storeReg s a i v).arb = s.arb ∧ (State.storeReg s a i v).free = s.free ∧ (State.storeReg s a i v).pending = s.pending := by unfold State.storeReg; (repeat' split) <;> simp
@[simp] theorem State.storeRegs_keeps (s : State) (a : Agent) (ws : List (Nat × Nat)) : (State.storeRegs s a ws).part = s.part ∧
    (State.storeRegs s a ws).straps = s.straps ∧ (State.storeRegs s a ws).mode = s.mode ∧ (State.storeRegs s a ws).life = s.life ∧
    (State.storeRegs s a ws).pp = s.pp ∧ (State.storeRegs s a ws).cnv = s.cnv ∧ (State.storeRegs s a ws).chg = s.chg ∧
    (State.storeRegs s a ws).emg = s.emg ∧ (State.storeRegs s a ws).seq = s.seq ∧ (State.storeRegs s a ws).pdp = s.pdp ∧
    (State.storeRegs s a ws).lnk = s.lnk ∧ (State.storeRegs s a ws).fab = s.fab ∧ (State.storeRegs s a ws).chk = s.chk ∧
    (State.storeRegs s a ws).tkr = s.tkr ∧ (State.storeRegs s a ws).tlm = s.tlm ∧ (State.storeRegs s a ws).cal = s.cal ∧
    (State.storeRegs s a ws).arb = s.arb ∧ (State.storeRegs s a ws).free = s.free ∧ (State.storeRegs s a ws).pending = s.pending := by
  unfold State.storeRegs
  (repeat' apply And.intro) <;> exact foldl_keep _ _ (fun t w => by simp) _ _
theorem orderRegs_keep {γ : Type} (p : State → γ) {set : State → Nat → Int → State} (h : ∀ t i v, p (set t i v) = p t) (s : State) (ws is : List Nat) (get : State → Nat → Int) : p (s.orderRegs ws is get set) = p s := by
  unfold State.orderRegs
  split
  · exact foldl_keep p _ (fun t x => by split <;> simp [h]) _ _
  · rfl
@[simp] theorem State.orderZones_keeps (s : State) (ws : List Nat) : (State.orderZones s ws).part = s.part ∧
    (State.orderZones s ws).straps = s.straps ∧ (State.orderZones s ws).mode = s.mode ∧ (State.orderZones s ws).life = s.life ∧
    (State.orderZones s ws).pp = s.pp ∧ (State.orderZones s ws).cnv = s.cnv ∧ (State.orderZones s ws).chg = s.chg ∧
    (State.orderZones s ws).emg = s.emg ∧ (State.orderZones s ws).seq = s.seq ∧ (State.orderZones s ws).pdp = s.pdp ∧
    (State.orderZones s ws).lnk = s.lnk ∧ (State.orderZones s ws).ser = s.ser ∧ (State.orderZones s ws).fab = s.fab ∧
    (State.orderZones s ws).chk = s.chk ∧ (State.orderZones s ws).tkr = s.tkr ∧ (State.orderZones s ws).tlm = s.tlm ∧
    (State.orderZones s ws).cal = s.cal ∧ (State.orderZones s ws).arb = s.arb ∧ (State.orderZones s ws).free = s.free ∧
    (State.orderZones s ws).pending = s.pending := by
  unfold State.orderZones
  (repeat' apply And.intro) <;> exact orderRegs_keep _ (fun t i v => by simp) _ _ _ _
@[simp] theorem State.orderRail_keeps (s : State) (ws : List Nat) (k : Rail) : (State.orderRail s ws k).part = s.part ∧
    (State.orderRail s ws k).straps = s.straps ∧ (State.orderRail s ws k).mode = s.mode ∧ (State.orderRail s ws k).life = s.life ∧
    (State.orderRail s ws k).pp = s.pp ∧ (State.orderRail s ws k).cnv = s.cnv ∧ (State.orderRail s ws k).chg = s.chg ∧
    (State.orderRail s ws k).emg = s.emg ∧ (State.orderRail s ws k).seq = s.seq ∧ (State.orderRail s ws k).pdp = s.pdp ∧
    (State.orderRail s ws k).lnk = s.lnk ∧ (State.orderRail s ws k).ser = s.ser ∧ (State.orderRail s ws k).fab = s.fab ∧
    (State.orderRail s ws k).chk = s.chk ∧ (State.orderRail s ws k).tkr = s.tkr ∧ (State.orderRail s ws k).tlm = s.tlm ∧
    (State.orderRail s ws k).cal = s.cal ∧ (State.orderRail s ws k).arb = s.arb ∧ (State.orderRail s ws k).free = s.free ∧
    (State.orderRail s ws k).pending = s.pending := by
  unfold State.orderRail
  (repeat' apply And.intro) <;> exact orderRegs_keep _ (fun t i v => by simp) _ _ _ _
@[simp] theorem State.orderRails_keeps (s : State) (ws : List Nat) : (State.orderRails s ws).part = s.part ∧
    (State.orderRails s ws).straps = s.straps ∧ (State.orderRails s ws).mode = s.mode ∧ (State.orderRails s ws).life = s.life ∧
    (State.orderRails s ws).pp = s.pp ∧ (State.orderRails s ws).cnv = s.cnv ∧ (State.orderRails s ws).chg = s.chg ∧
    (State.orderRails s ws).emg = s.emg ∧ (State.orderRails s ws).seq = s.seq ∧ (State.orderRails s ws).pdp = s.pdp ∧
    (State.orderRails s ws).lnk = s.lnk ∧ (State.orderRails s ws).ser = s.ser ∧ (State.orderRails s ws).fab = s.fab ∧
    (State.orderRails s ws).chk = s.chk ∧ (State.orderRails s ws).tkr = s.tkr ∧ (State.orderRails s ws).tlm = s.tlm ∧
    (State.orderRails s ws).cal = s.cal ∧ (State.orderRails s ws).arb = s.arb ∧ (State.orderRails s ws).free = s.free ∧
    (State.orderRails s ws).pending = s.pending := by
  unfold State.orderRails
  (repeat' apply And.intro) <;> exact foldl_keep _ _ (fun t w => by simp) _ _
@[simp] theorem State.orderEmg_keeps (s : State) (old : State) (ws : List Nat) : (State.orderEmg s old ws).part = s.part ∧
    (State.orderEmg s old ws).straps = s.straps ∧ (State.orderEmg s old ws).mode = s.mode ∧
    (State.orderEmg s old ws).life = s.life ∧ (State.orderEmg s old ws).pp = s.pp ∧ (State.orderEmg s old ws).cnv = s.cnv ∧
    (State.orderEmg s old ws).chg = s.chg ∧ (State.orderEmg s old ws).emg = s.emg ∧ (State.orderEmg s old ws).seq = s.seq ∧
    (State.orderEmg s old ws).pdp = s.pdp ∧ (State.orderEmg s old ws).lnk = s.lnk ∧ (State.orderEmg s old ws).ser = s.ser ∧
    (State.orderEmg s old ws).fab = s.fab ∧ (State.orderEmg s old ws).chk = s.chk ∧ (State.orderEmg s old ws).tkr = s.tkr ∧
    (State.orderEmg s old ws).tlm = s.tlm ∧ (State.orderEmg s old ws).cal = s.cal ∧ (State.orderEmg s old ws).arb = s.arb ∧
    (State.orderEmg s old ws).free = s.free ∧ (State.orderEmg s old ws).pending = s.pending := by simp [State.orderEmg]
@[simp] theorem State.orderShed_keeps (s : State) (ws : List Nat) : (State.orderShed s ws).part = s.part ∧
    (State.orderShed s ws).straps = s.straps ∧ (State.orderShed s ws).mode = s.mode ∧ (State.orderShed s ws).life = s.life ∧
    (State.orderShed s ws).pp = s.pp ∧ (State.orderShed s ws).cnv = s.cnv ∧ (State.orderShed s ws).chg = s.chg ∧
    (State.orderShed s ws).emg = s.emg ∧ (State.orderShed s ws).seq = s.seq ∧ (State.orderShed s ws).pdp = s.pdp ∧
    (State.orderShed s ws).lnk = s.lnk ∧ (State.orderShed s ws).ser = s.ser ∧ (State.orderShed s ws).fab = s.fab ∧
    (State.orderShed s ws).chk = s.chk ∧ (State.orderShed s ws).tkr = s.tkr ∧ (State.orderShed s ws).tlm = s.tlm ∧
    (State.orderShed s ws).cal = s.cal ∧ (State.orderShed s ws).arb = s.arb ∧ (State.orderShed s ws).free = s.free ∧
    (State.orderShed s ws).pending = s.pending := by
  unfold State.orderShed
  split
  · (repeat' apply And.intro) <;> exact foldl_keep _ _ (fun t w => by dsimp only; split <;> simp) _ _
  · simp
@[simp] theorem State.limitVsys_keeps (s : State) : (State.limitVsys s).part = s.part ∧ (State.limitVsys s).straps = s.straps ∧
    (State.limitVsys s).mode = s.mode ∧ (State.limitVsys s).life = s.life ∧ (State.limitVsys s).pp = s.pp ∧
    (State.limitVsys s).cnv = s.cnv ∧ (State.limitVsys s).chg = s.chg ∧ (State.limitVsys s).emg = s.emg ∧
    (State.limitVsys s).seq = s.seq ∧ (State.limitVsys s).pdp = s.pdp ∧ (State.limitVsys s).lnk = s.lnk ∧
    (State.limitVsys s).ser = s.ser ∧ (State.limitVsys s).chk = s.chk ∧ (State.limitVsys s).tkr = s.tkr ∧
    (State.limitVsys s).tlm = s.tlm ∧ (State.limitVsys s).cal = s.cal ∧ (State.limitVsys s).arb = s.arb ∧
    (State.limitVsys s).free = s.free ∧ (State.limitVsys s).pending = s.pending := by simp [State.limitVsys]
@[simp] theorem State.hardLimits_keeps (s : State) (ws : List Nat) : (State.hardLimits s ws).part = s.part ∧
    (State.hardLimits s ws).straps = s.straps ∧ (State.hardLimits s ws).mode = s.mode ∧ (State.hardLimits s ws).life = s.life ∧
    (State.hardLimits s ws).pp = s.pp ∧ (State.hardLimits s ws).cnv = s.cnv ∧ (State.hardLimits s ws).chg = s.chg ∧
    (State.hardLimits s ws).emg = s.emg ∧ (State.hardLimits s ws).seq = s.seq ∧ (State.hardLimits s ws).pdp = s.pdp ∧
    (State.hardLimits s ws).lnk = s.lnk ∧ (State.hardLimits s ws).ser = s.ser ∧ (State.hardLimits s ws).chk = s.chk ∧
    (State.hardLimits s ws).tkr = s.tkr ∧ (State.hardLimits s ws).tlm = s.tlm ∧ (State.hardLimits s ws).cal = s.cal ∧
    (State.hardLimits s ws).arb = s.arb ∧ (State.hardLimits s ws).free = s.free ∧ (State.hardLimits s ws).pending = s.pending := by simp [State.hardLimits]
@[simp] theorem State.keepOrders_keeps (s : State) (old : State) (ws : List Nat) : (State.keepOrders s old ws).part = s.part ∧
    (State.keepOrders s old ws).straps = s.straps ∧ (State.keepOrders s old ws).mode = s.mode ∧
    (State.keepOrders s old ws).life = s.life ∧ (State.keepOrders s old ws).pp = s.pp ∧ (State.keepOrders s old ws).cnv = s.cnv ∧
    (State.keepOrders s old ws).chg = s.chg ∧ (State.keepOrders s old ws).emg = s.emg ∧ (State.keepOrders s old ws).seq = s.seq ∧
    (State.keepOrders s old ws).pdp = s.pdp ∧ (State.keepOrders s old ws).lnk = s.lnk ∧ (State.keepOrders s old ws).ser = s.ser ∧
    (State.keepOrders s old ws).chk = s.chk ∧ (State.keepOrders s old ws).tkr = s.tkr ∧ (State.keepOrders s old ws).tlm = s.tlm ∧
    (State.keepOrders s old ws).cal = s.cal ∧ (State.keepOrders s old ws).arb = s.arb ∧ (State.keepOrders s old ws).free = s.free ∧
    (State.keepOrders s old ws).pending = s.pending := by simp [State.keepOrders]
@[simp] theorem State.ringWrites_keeps (s : State) (a : Agent) (ws : List (Nat × Nat)) : (State.ringWrites s a ws).part = s.part ∧
    (State.ringWrites s a ws).straps = s.straps ∧ (State.ringWrites s a ws).mode = s.mode ∧
    (State.ringWrites s a ws).life = s.life ∧ (State.ringWrites s a ws).regs = s.regs ∧ (State.ringWrites s a ws).pp = s.pp ∧
    (State.ringWrites s a ws).cnv = s.cnv ∧ (State.ringWrites s a ws).chg = s.chg ∧ (State.ringWrites s a ws).emg = s.emg ∧
    (State.ringWrites s a ws).seq = s.seq ∧ (State.ringWrites s a ws).pdp = s.pdp ∧ (State.ringWrites s a ws).lnk = s.lnk ∧
    (State.ringWrites s a ws).tkr = s.tkr ∧ (State.ringWrites s a ws).tlm = s.tlm ∧ (State.ringWrites s a ws).cal = s.cal ∧
    (State.ringWrites s a ws).arb = s.arb ∧ (State.ringWrites s a ws).free = s.free ∧ (State.ringWrites s a ws).pending = s.pending := by
  unfold State.ringWrites; dsimp only
  (repeat' apply And.intro) <;> split <;> (try simp only [State.dataWrite_keeps]) <;> (refine (foldl_keep _ _ ?_ _ _).trans ?_) <;> first | (intro t w; split <;> rfl) | ((repeat' split) <;> simp)
@[simp] theorem State.writeChgCtl_keeps (s : State) (old : State) (v : Nat) : (State.writeChgCtl s old v).part = s.part ∧
    (State.writeChgCtl s old v).straps = s.straps ∧ (State.writeChgCtl s old v).mode = s.mode ∧
    (State.writeChgCtl s old v).life = s.life ∧ (State.writeChgCtl s old v).seq = s.seq ∧ (State.writeChgCtl s old v).pdp = s.pdp ∧
    (State.writeChgCtl s old v).lnk = s.lnk ∧ (State.writeChgCtl s old v).ser = s.ser ∧ (State.writeChgCtl s old v).chk = s.chk ∧
    (State.writeChgCtl s old v).tlm = s.tlm ∧ (State.writeChgCtl s old v).cal = s.cal ∧ (State.writeChgCtl s old v).arb = s.arb ∧
    (State.writeChgCtl s old v).free = s.free ∧ (State.writeChgCtl s old v).pending = s.pending := by
  unfold State.writeChgCtl
  (repeat' apply And.intro) <;> (try simp) <;> (repeat' split) <;> (try simp) <;> (try simp_all)
@[simp] theorem State.writeCapNom_keeps (s : State) : (State.writeCapNom s).part = s.part ∧
    (State.writeCapNom s).straps = s.straps ∧ (State.writeCapNom s).mode = s.mode ∧ (State.writeCapNom s).life = s.life ∧
    (State.writeCapNom s).pp = s.pp ∧ (State.writeCapNom s).cnv = s.cnv ∧ (State.writeCapNom s).emg = s.emg ∧
    (State.writeCapNom s).seq = s.seq ∧ (State.writeCapNom s).pdp = s.pdp ∧ (State.writeCapNom s).lnk = s.lnk ∧
    (State.writeCapNom s).ser = s.ser ∧ (State.writeCapNom s).chk = s.chk ∧ (State.writeCapNom s).tlm = s.tlm ∧
    (State.writeCapNom s).cal = s.cal ∧ (State.writeCapNom s).arb = s.arb ∧ (State.writeCapNom s).free = s.free ∧
    (State.writeCapNom s).pending = s.pending := by unfold State.writeCapNom; split <;> simp
@[simp] theorem State.writeLnkCfg_keeps (s : State) (old : State) : (State.writeLnkCfg s old).part = s.part ∧
    (State.writeLnkCfg s old).straps = s.straps ∧ (State.writeLnkCfg s old).mode = s.mode ∧
    (State.writeLnkCfg s old).life = s.life ∧ (State.writeLnkCfg s old).regs = s.regs ∧ (State.writeLnkCfg s old).emg = s.emg ∧
    (State.writeLnkCfg s old).seq = s.seq ∧ (State.writeLnkCfg s old).pdp = s.pdp ∧ (State.writeLnkCfg s old).ser = s.ser ∧
    (State.writeLnkCfg s old).chk = s.chk ∧ (State.writeLnkCfg s old).tkr = s.tkr ∧ (State.writeLnkCfg s old).cal = s.cal ∧
    (State.writeLnkCfg s old).arb = s.arb ∧ (State.writeLnkCfg s old).free = s.free ∧ (State.writeLnkCfg s old).pending = s.pending := by
  unfold State.writeLnkCfg
  (repeat' apply And.intro) <;> (try simp) <;> (repeat' split) <;> (try simp) <;> (try simp_all)
@[simp] theorem State.rearmTest_keeps (s : State) (k : TestKind) (time : Bool) : (State.rearmTest s k time).part = s.part ∧
    (State.rearmTest s k time).straps = s.straps ∧ (State.rearmTest s k time).mode = s.mode ∧
    (State.rearmTest s k time).life = s.life ∧ (State.rearmTest s k time).regs = s.regs ∧ (State.rearmTest s k time).pp = s.pp ∧
    (State.rearmTest s k time).cnv = s.cnv ∧ (State.rearmTest s k time).chg = s.chg ∧ (State.rearmTest s k time).seq = s.seq ∧
    (State.rearmTest s k time).pdp = s.pdp ∧ (State.rearmTest s k time).lnk = s.lnk ∧ (State.rearmTest s k time).ser = s.ser ∧
    (State.rearmTest s k time).fab = s.fab ∧ (State.rearmTest s k time).chk = s.chk ∧ (State.rearmTest s k time).tkr = s.tkr ∧
    (State.rearmTest s k time).tlm = s.tlm ∧ (State.rearmTest s k time).cal = s.cal ∧ (State.rearmTest s k time).arb = s.arb ∧
    (State.rearmTest s k time).free = s.free ∧ (State.rearmTest s k time).pending = s.pending := by unfold State.rearmTest; split <;> simp
@[simp] theorem State.readClear_keeps (s : State) (a : Agent) (i : Nat) : (State.readClear s a i).part = s.part ∧
    (State.readClear s a i).straps = s.straps ∧ (State.readClear s a i).mode = s.mode ∧ (State.readClear s a i).life = s.life ∧
    (State.readClear s a i).pp = s.pp ∧ (State.readClear s a i).cnv = s.cnv ∧ (State.readClear s a i).chg = s.chg ∧
    (State.readClear s a i).emg = s.emg ∧ (State.readClear s a i).seq = s.seq ∧ (State.readClear s a i).pdp = s.pdp ∧
    (State.readClear s a i).lnk = s.lnk ∧ (State.readClear s a i).ser = s.ser ∧ (State.readClear s a i).chk = s.chk ∧
    (State.readClear s a i).tkr = s.tkr ∧ (State.readClear s a i).tlm = s.tlm ∧ (State.readClear s a i).cal = s.cal ∧
    (State.readClear s a i).arb = s.arb ∧ (State.readClear s a i).free = s.free ∧ (State.readClear s a i).pending = s.pending := by
  unfold State.readClear; dsimp only
  (repeat' split) <;> first | (simp; done) | ((repeat' apply And.intro) <;> exact foldl_keep _ _ (fun t w => by split <;> simp) _ _)
@[simp] theorem State.bootPair_keeps (s : State) (on : Bool) (i : Nat) (v : Nat) : (State.bootPair s on i v).part = s.part ∧
    (State.bootPair s on i v).straps = s.straps ∧ (State.bootPair s on i v).mode = s.mode ∧
    (State.bootPair s on i v).life = s.life ∧ (State.bootPair s on i v).seq = s.seq ∧ (State.bootPair s on i v).pdp = s.pdp ∧
    (State.bootPair s on i v).lnk = s.lnk ∧ (State.bootPair s on i v).chk = s.chk ∧ (State.bootPair s on i v).tkr = s.tkr ∧
    (State.bootPair s on i v).tlm = s.tlm ∧ (State.bootPair s on i v).cal = s.cal ∧ (State.bootPair s on i v).arb = s.arb ∧
    (State.bootPair s on i v).free = s.free ∧ (State.bootPair s on i v).pending = s.pending := by
  unfold State.bootPair; dsimp only
  (repeat' split) <;> simp
@[simp] theorem State.bootPairs_keeps (s : State) (on : Bool) (x2 : List Byte) : (State.bootPairs s on x2).part = s.part ∧
    (State.bootPairs s on x2).straps = s.straps ∧ (State.bootPairs s on x2).mode = s.mode ∧
    (State.bootPairs s on x2).life = s.life ∧ (State.bootPairs s on x2).seq = s.seq ∧ (State.bootPairs s on x2).pdp = s.pdp ∧
    (State.bootPairs s on x2).lnk = s.lnk ∧ (State.bootPairs s on x2).chk = s.chk ∧ (State.bootPairs s on x2).tkr = s.tkr ∧
    (State.bootPairs s on x2).tlm = s.tlm ∧ (State.bootPairs s on x2).cal = s.cal ∧ (State.bootPairs s on x2).arb = s.arb ∧
    (State.bootPairs s on x2).free = s.free ∧ (State.bootPairs s on x2).pending = s.pending := by
  fun_induction State.bootPairs s on x2 <;> simp_all
@[simp] theorem State.loadBank_keeps (s : State) (on : Bool) (b : Nat) (n : Nat) : (State.loadBank s on b n).part = s.part ∧
    (State.loadBank s on b n).straps = s.straps ∧ (State.loadBank s on b n).mode = s.mode ∧
    (State.loadBank s on b n).life = s.life ∧ (State.loadBank s on b n).seq = s.seq ∧ (State.loadBank s on b n).pdp = s.pdp ∧
    (State.loadBank s on b n).lnk = s.lnk ∧ (State.loadBank s on b n).chk = s.chk ∧ (State.loadBank s on b n).tkr = s.tkr ∧
    (State.loadBank s on b n).tlm = s.tlm ∧ (State.loadBank s on b n).cal = s.cal ∧ (State.loadBank s on b n).arb = s.arb ∧
    (State.loadBank s on b n).free = s.free ∧ (State.loadBank s on b n).pending = s.pending := by simp [State.loadBank]
@[simp] theorem State.fetchReg_keeps (s : State) (a : Agent) (i : Nat) (first : Bool) :
    (State.fetchReg s a i first).1.part = s.part ∧ (State.fetchReg s a i first).1.straps = s.straps ∧
    (State.fetchReg s a i first).1.mode = s.mode ∧ (State.fetchReg s a i first).1.life = s.life ∧
    (State.fetchReg s a i first).1.pp = s.pp ∧ (State.fetchReg s a i first).1.cnv = s.cnv ∧
    (State.fetchReg s a i first).1.chg = s.chg ∧ (State.fetchReg s a i first).1.emg = s.emg ∧
    (State.fetchReg s a i first).1.seq = s.seq ∧ (State.fetchReg s a i first).1.pdp = s.pdp ∧
    (State.fetchReg s a i first).1.lnk = s.lnk ∧ (State.fetchReg s a i first).1.tkr = s.tkr ∧
    (State.fetchReg s a i first).1.tlm = s.tlm ∧ (State.fetchReg s a i first).1.cal = s.cal ∧
    (State.fetchReg s a i first).1.arb = s.arb ∧ (State.fetchReg s a i first).1.free = s.free ∧
    (State.fetchReg s a i first).1.pending = s.pending := by
  unfold State.fetchReg; dsimp only
  split
  · simp
  · (repeat' apply And.intro) <;> (try simp only [State.readClear_keeps]) <;> (refine (foldl_keep _ _ (fun t j => by simp) _ _).trans ?_) <;> (repeat' split) <;> simp
@[simp] theorem State.pecError_keeps (s : State) (a : Agent) : (State.pecError s a).part = s.part ∧
    (State.pecError s a).straps = s.straps ∧ (State.pecError s a).mode = s.mode ∧ (State.pecError s a).life = s.life ∧
    (State.pecError s a).pp = s.pp ∧ (State.pecError s a).cnv = s.cnv ∧ (State.pecError s a).chg = s.chg ∧
    (State.pecError s a).emg = s.emg ∧ (State.pecError s a).seq = s.seq ∧ (State.pecError s a).pdp = s.pdp ∧
    (State.pecError s a).lnk = s.lnk ∧ (State.pecError s a).ser = s.ser ∧ (State.pecError s a).chk = s.chk ∧
    (State.pecError s a).tkr = s.tkr ∧ (State.pecError s a).tlm = s.tlm ∧ (State.pecError s a).cal = s.cal ∧
    (State.pecError s a).arb = s.arb ∧ (State.pecError s a).free = s.free ∧ (State.pecError s a).pending = s.pending := by simp [State.pecError]
@[simp] theorem State.settleRefusals_keeps (s : State) (a : Agent) (pec : Bool) (denied : Option Nat) :
    (State.settleRefusals s a pec denied).part = s.part ∧ (State.settleRefusals s a pec denied).straps = s.straps ∧
    (State.settleRefusals s a pec denied).mode = s.mode ∧ (State.settleRefusals s a pec denied).life = s.life ∧
    (State.settleRefusals s a pec denied).pp = s.pp ∧ (State.settleRefusals s a pec denied).cnv = s.cnv ∧
    (State.settleRefusals s a pec denied).chg = s.chg ∧ (State.settleRefusals s a pec denied).emg = s.emg ∧
    (State.settleRefusals s a pec denied).seq = s.seq ∧ (State.settleRefusals s a pec denied).pdp = s.pdp ∧
    (State.settleRefusals s a pec denied).lnk = s.lnk ∧ (State.settleRefusals s a pec denied).ser = s.ser ∧
    (State.settleRefusals s a pec denied).chk = s.chk ∧ (State.settleRefusals s a pec denied).tkr = s.tkr ∧
    (State.settleRefusals s a pec denied).tlm = s.tlm ∧ (State.settleRefusals s a pec denied).cal = s.cal ∧
    (State.settleRefusals s a pec denied).arb = s.arb ∧ (State.settleRefusals s a pec denied).free = s.free ∧
    (State.settleRefusals s a pec denied).pending = s.pending := by unfold State.settleRefusals; (repeat' split) <;> simp
@[simp] theorem State.refuseRead_keeps (s : State) (a : Agent) (p : Nat) (x3 : Refused) :
    (State.refuseRead s a p x3).part = s.part ∧ (State.refuseRead s a p x3).straps = s.straps ∧
    (State.refuseRead s a p x3).mode = s.mode ∧ (State.refuseRead s a p x3).life = s.life ∧ (State.refuseRead s a p x3).pp = s.pp ∧
    (State.refuseRead s a p x3).cnv = s.cnv ∧ (State.refuseRead s a p x3).chg = s.chg ∧ (State.refuseRead s a p x3).emg = s.emg ∧
    (State.refuseRead s a p x3).seq = s.seq ∧ (State.refuseRead s a p x3).pdp = s.pdp ∧ (State.refuseRead s a p x3).lnk = s.lnk ∧
    (State.refuseRead s a p x3).ser = s.ser ∧ (State.refuseRead s a p x3).chk = s.chk ∧ (State.refuseRead s a p x3).tkr = s.tkr ∧
    (State.refuseRead s a p x3).tlm = s.tlm ∧ (State.refuseRead s a p x3).cal = s.cal ∧ (State.refuseRead s a p x3).arb = s.arb ∧
    (State.refuseRead s a p x3).free = s.free ∧ (State.refuseRead s a p x3).pending = s.pending := by unfold State.refuseRead; (repeat' split) <;> simp
@[simp] theorem fetchLoop_keeps (a : Agent) (first : Bool) (n p : Nat) (r : Fetched) : (fetchLoop a first n p r).st.part = r.st.part ∧
    (fetchLoop a first n p r).st.straps = r.st.straps ∧ (fetchLoop a first n p r).st.mode = r.st.mode ∧
    (fetchLoop a first n p r).st.life = r.st.life ∧ (fetchLoop a first n p r).st.pp = r.st.pp ∧
    (fetchLoop a first n p r).st.cnv = r.st.cnv ∧ (fetchLoop a first n p r).st.chg = r.st.chg ∧
    (fetchLoop a first n p r).st.emg = r.st.emg ∧ (fetchLoop a first n p r).st.seq = r.st.seq ∧
    (fetchLoop a first n p r).st.pdp = r.st.pdp ∧ (fetchLoop a first n p r).st.lnk = r.st.lnk ∧
    (fetchLoop a first n p r).st.tkr = r.st.tkr ∧ (fetchLoop a first n p r).st.tlm = r.st.tlm ∧
    (fetchLoop a first n p r).st.cal = r.st.cal ∧ (fetchLoop a first n p r).st.arb = r.st.arb ∧ (fetchLoop a first n p r).st.free = r.st.free ∧
    (fetchLoop a first n p r).st.pending = r.st.pending := by
  induction n generalizing first p r with
  | zero => simp [fetchLoop]
  | succ n ih => unfold fetchLoop; dsimp only; split <;> simp [ih]
@[simp] theorem State.windowRead_keeps (s : State) (a : Agent) (written : List Byte) (p : Nat) (n : Nat) (clocked : Nat) :
    (State.windowRead s a written p n clocked).1.part = s.part ∧ (State.windowRead s a written p n clocked).1.straps = s.straps ∧
    (State.windowRead s a written p n clocked).1.mode = s.mode ∧ (State.windowRead s a written p n clocked).1.life = s.life ∧
    (State.windowRead s a written p n clocked).1.pp = s.pp ∧ (State.windowRead s a written p n clocked).1.cnv = s.cnv ∧
    (State.windowRead s a written p n clocked).1.chg = s.chg ∧ (State.windowRead s a written p n clocked).1.emg = s.emg ∧
    (State.windowRead s a written p n clocked).1.seq = s.seq ∧ (State.windowRead s a written p n clocked).1.pdp = s.pdp ∧
    (State.windowRead s a written p n clocked).1.lnk = s.lnk ∧ (State.windowRead s a written p n clocked).1.tkr = s.tkr ∧
    (State.windowRead s a written p n clocked).1.tlm = s.tlm ∧ (State.windowRead s a written p n clocked).1.cal = s.cal ∧
    (State.windowRead s a written p n clocked).1.arb = s.arb ∧ (State.windowRead s a written p n clocked).1.free = s.free ∧
    (State.windowRead s a written p n clocked).1.pending = s.pending := by
  unfold State.windowRead; dsimp only
  simp [fetchLoop_keeps]
@[simp] theorem State.refuseCmd_keeps (s : State) (a : Agent) (code : Nat) (x3 : Refused) :
    (State.refuseCmd s a code x3).part = s.part ∧ (State.refuseCmd s a code x3).straps = s.straps ∧
    (State.refuseCmd s a code x3).mode = s.mode ∧ (State.refuseCmd s a code x3).life = s.life ∧
    (State.refuseCmd s a code x3).pp = s.pp ∧ (State.refuseCmd s a code x3).cnv = s.cnv ∧
    (State.refuseCmd s a code x3).chg = s.chg ∧ (State.refuseCmd s a code x3).emg = s.emg ∧
    (State.refuseCmd s a code x3).seq = s.seq ∧ (State.refuseCmd s a code x3).pdp = s.pdp ∧
    (State.refuseCmd s a code x3).lnk = s.lnk ∧ (State.refuseCmd s a code x3).ser = s.ser ∧
    (State.refuseCmd s a code x3).chk = s.chk ∧ (State.refuseCmd s a code x3).tkr = s.tkr ∧
    (State.refuseCmd s a code x3).tlm = s.tlm ∧ (State.refuseCmd s a code x3).cal = s.cal ∧
    (State.refuseCmd s a code x3).arb = s.arb ∧ (State.refuseCmd s a code x3).free = s.free ∧
    (State.refuseCmd s a code x3).pending = s.pending := by unfold State.refuseCmd; split <;> simp
@[simp] theorem State.discardBad_keeps (s : State) (k : Nat) (max : Nat) : (State.discardBad s k max).part = s.part ∧
    (State.discardBad s k max).straps = s.straps ∧ (State.discardBad s k max).mode = s.mode ∧
    (State.discardBad s k max).life = s.life ∧ (State.discardBad s k max).regs = s.regs ∧ (State.discardBad s k max).pp = s.pp ∧
    (State.discardBad s k max).cnv = s.cnv ∧ (State.discardBad s k max).chg = s.chg ∧ (State.discardBad s k max).emg = s.emg ∧
    (State.discardBad s k max).seq = s.seq ∧ (State.discardBad s k max).pdp = s.pdp ∧ (State.discardBad s k max).lnk = s.lnk ∧
    (State.discardBad s k max).ser = s.ser ∧ (State.discardBad s k max).chk = s.chk ∧ (State.discardBad s k max).tkr = s.tkr ∧
    (State.discardBad s k max).tlm = s.tlm ∧ (State.discardBad s k max).cal = s.cal ∧ (State.discardBad s k max).arb = s.arb ∧
    (State.discardBad s k max).free = s.free ∧ (State.discardBad s k max).pending = s.pending := by
  unfold State.discardBad
  (repeat' apply And.intro) <;> (try simp) <;> (repeat' split) <;> (try simp) <;> (try simp_all)
@[simp] theorem State.alertLow_keeps (s : State) : (State.alertLow s).part = s.part ∧ (State.alertLow s).straps = s.straps ∧
    (State.alertLow s).mode = s.mode ∧ (State.alertLow s).life = s.life ∧ (State.alertLow s).regs = s.regs ∧
    (State.alertLow s).pp = s.pp ∧ (State.alertLow s).cnv = s.cnv ∧ (State.alertLow s).chg = s.chg ∧
    (State.alertLow s).emg = s.emg ∧ (State.alertLow s).seq = s.seq ∧ (State.alertLow s).pdp = s.pdp ∧
    (State.alertLow s).lnk = s.lnk ∧ (State.alertLow s).fab = s.fab ∧ (State.alertLow s).chk = s.chk ∧
    (State.alertLow s).tkr = s.tkr ∧ (State.alertLow s).tlm = s.tlm ∧ (State.alertLow s).cal = s.cal ∧
    (State.alertLow s).arb = s.arb ∧ (State.alertLow s).free = s.free ∧ (State.alertLow s).pending = s.pending := by simp [State.alertLow]
@[simp] theorem State.callAgent_keeps (s : State) (a : Agent) : (State.callAgent s a).part = s.part ∧
    (State.callAgent s a).straps = s.straps ∧ (State.callAgent s a).mode = s.mode ∧ (State.callAgent s a).life = s.life ∧
    (State.callAgent s a).regs = s.regs ∧ (State.callAgent s a).pp = s.pp ∧ (State.callAgent s a).cnv = s.cnv ∧
    (State.callAgent s a).chg = s.chg ∧ (State.callAgent s a).emg = s.emg ∧ (State.callAgent s a).seq = s.seq ∧
    (State.callAgent s a).pdp = s.pdp ∧ (State.callAgent s a).lnk = s.lnk ∧ (State.callAgent s a).fab = s.fab ∧
    (State.callAgent s a).chk = s.chk ∧ (State.callAgent s a).tkr = s.tkr ∧ (State.callAgent s a).tlm = s.tlm ∧
    (State.callAgent s a).cal = s.cal ∧ (State.callAgent s a).arb = s.arb ∧ (State.callAgent s a).free = s.free ∧
    (State.callAgent s a).pending = s.pending := by
  unfold State.callAgent
  (repeat' apply And.intro) <;> (try simp) <;> (repeat' split) <;> (try simp) <;> (try simp_all)
@[simp] theorem State.setMasked_keeps (s : State) (m : Nat) (f : SerAgent → SerAgent) : (State.setMasked s m f).part = s.part ∧
    (State.setMasked s m f).straps = s.straps ∧ (State.setMasked s m f).mode = s.mode ∧ (State.setMasked s m f).life = s.life ∧
    (State.setMasked s m f).regs = s.regs ∧ (State.setMasked s m f).pp = s.pp ∧ (State.setMasked s m f).cnv = s.cnv ∧
    (State.setMasked s m f).chg = s.chg ∧ (State.setMasked s m f).emg = s.emg ∧ (State.setMasked s m f).seq = s.seq ∧
    (State.setMasked s m f).pdp = s.pdp ∧ (State.setMasked s m f).lnk = s.lnk ∧ (State.setMasked s m f).fab = s.fab ∧
    (State.setMasked s m f).chk = s.chk ∧ (State.setMasked s m f).tkr = s.tkr ∧ (State.setMasked s m f).tlm = s.tlm ∧
    (State.setMasked s m f).cal = s.cal ∧ (State.setMasked s m f).arb = s.arb ∧ (State.setMasked s m f).free = s.free ∧
    (State.setMasked s m f).pending = s.pending := by
  unfold State.setMasked
  (repeat' apply And.intro) <;> exact foldl_keep _ _ (fun t a => by split <;> simp) _ _
@[simp] theorem State.sampleStraps_keeps (s : State) (vsafe : Option Nat) (chem : Option Nat) :
    (State.sampleStraps s vsafe chem).part = s.part ∧ (State.sampleStraps s vsafe chem).mode = s.mode ∧
    (State.sampleStraps s vsafe chem).life = s.life ∧ (State.sampleStraps s vsafe chem).pp = s.pp ∧
    (State.sampleStraps s vsafe chem).cnv = s.cnv ∧ (State.sampleStraps s vsafe chem).chg = s.chg ∧
    (State.sampleStraps s vsafe chem).emg = s.emg ∧ (State.sampleStraps s vsafe chem).seq = s.seq ∧
    (State.sampleStraps s vsafe chem).pdp = s.pdp ∧ (State.sampleStraps s vsafe chem).lnk = s.lnk ∧
    (State.sampleStraps s vsafe chem).ser = s.ser ∧ (State.sampleStraps s vsafe chem).fab = s.fab ∧
    (State.sampleStraps s vsafe chem).chk = s.chk ∧ (State.sampleStraps s vsafe chem).tkr = s.tkr ∧
    (State.sampleStraps s vsafe chem).tlm = s.tlm ∧ (State.sampleStraps s vsafe chem).cal = s.cal ∧
    (State.sampleStraps s vsafe chem).arb = s.arb ∧ (State.sampleStraps s vsafe chem).free = s.free ∧
    (State.sampleStraps s vsafe chem).pending = s.pending := by simp [State.sampleStraps]
@[simp] theorem State.firstSetpoints_keeps (s : State) : (State.firstSetpoints s).part = s.part ∧
    (State.firstSetpoints s).straps = s.straps ∧ (State.firstSetpoints s).mode = s.mode ∧ (State.firstSetpoints s).life = s.life ∧
    (State.firstSetpoints s).regs = s.regs ∧ (State.firstSetpoints s).chg = s.chg ∧ (State.firstSetpoints s).emg = s.emg ∧
    (State.firstSetpoints s).seq = s.seq ∧ (State.firstSetpoints s).pdp = s.pdp ∧ (State.firstSetpoints s).lnk = s.lnk ∧
    (State.firstSetpoints s).ser = s.ser ∧ (State.firstSetpoints s).fab = s.fab ∧ (State.firstSetpoints s).chk = s.chk ∧
    (State.firstSetpoints s).tkr = s.tkr ∧ (State.firstSetpoints s).tlm = s.tlm ∧ (State.firstSetpoints s).cal = s.cal ∧
    (State.firstSetpoints s).arb = s.arb ∧ (State.firstSetpoints s).free = s.free ∧ (State.firstSetpoints s).pending = s.pending := by simp [State.firstSetpoints]
@[simp] theorem State.watchdogFires_keeps (s : State) : (State.watchdogFires s).part = s.part ∧
    (State.watchdogFires s).straps = s.straps ∧ (State.watchdogFires s).free = s.free ∧ (State.watchdogFires s).pending = s.pending := by simp [State.watchdogFires]
@[simp] theorem State.setFrom_keeps (s : State) (i : Nat) (x2 : List Nat) : (State.setFrom s i x2).part = s.part ∧
    (State.setFrom s i x2).straps = s.straps ∧ (State.setFrom s i x2).mode = s.mode ∧ (State.setFrom s i x2).life = s.life ∧
    (State.setFrom s i x2).pp = s.pp ∧ (State.setFrom s i x2).cnv = s.cnv ∧ (State.setFrom s i x2).chg = s.chg ∧
    (State.setFrom s i x2).emg = s.emg ∧ (State.setFrom s i x2).seq = s.seq ∧ (State.setFrom s i x2).pdp = s.pdp ∧
    (State.setFrom s i x2).lnk = s.lnk ∧ (State.setFrom s i x2).ser = s.ser ∧ (State.setFrom s i x2).fab = s.fab ∧
    (State.setFrom s i x2).chk = s.chk ∧ (State.setFrom s i x2).tkr = s.tkr ∧ (State.setFrom s i x2).tlm = s.tlm ∧
    (State.setFrom s i x2).cal = s.cal ∧ (State.setFrom s i x2).arb = s.arb ∧ (State.setFrom s i x2).free = s.free ∧
    (State.setFrom s i x2).pending = s.pending := by
  induction x2 generalizing s i with
  | nil => simp [State.setFrom]
  | cons y ys ih => simp [State.setFrom, ih]
@[simp] theorem State.stageBoot_keeps (s : State) (copyOk : Bool) : (State.stageBoot s copyOk).part = s.part ∧
    (State.stageBoot s copyOk).straps = s.straps ∧ (State.stageBoot s copyOk).mode = s.mode ∧
    (State.stageBoot s copyOk).regs = s.regs ∧ (State.stageBoot s copyOk).pp = s.pp ∧ (State.stageBoot s copyOk).cnv = s.cnv ∧
    (State.stageBoot s copyOk).chg = s.chg ∧ (State.stageBoot s copyOk).emg = s.emg ∧ (State.stageBoot s copyOk).seq = s.seq ∧
    (State.stageBoot s copyOk).pdp = s.pdp ∧ (State.stageBoot s copyOk).lnk = s.lnk ∧ (State.stageBoot s copyOk).ser = s.ser ∧
    (State.stageBoot s copyOk).chk = s.chk ∧ (State.stageBoot s copyOk).tlm = s.tlm ∧ (State.stageBoot s copyOk).cal = s.cal ∧
    (State.stageBoot s copyOk).arb = s.arb ∧ (State.stageBoot s copyOk).pending = s.pending := by
  unfold State.stageBoot
  (repeat' apply And.intro) <;> (try simp) <;> (repeat' split) <;> (try simp) <;> (try simp_all)
@[simp] theorem State.applyRecord_keeps (s : State) (r : List Byte) (slot : Nat) : (State.applyRecord s r slot).part = s.part ∧
    (State.applyRecord s r slot).straps = s.straps ∧ (State.applyRecord s r slot).mode = s.mode ∧
    (State.applyRecord s r slot).life = s.life ∧ (State.applyRecord s r slot).pp = s.pp ∧
    (State.applyRecord s r slot).cnv = s.cnv ∧ (State.applyRecord s r slot).chg = s.chg ∧
    (State.applyRecord s r slot).emg = s.emg ∧ (State.applyRecord s r slot).seq = s.seq ∧
    (State.applyRecord s r slot).pdp = s.pdp ∧ (State.applyRecord s r slot).lnk = s.lnk ∧
    (State.applyRecord s r slot).ser = s.ser ∧ (State.applyRecord s r slot).fab = s.fab ∧
    (State.applyRecord s r slot).chk = s.chk ∧ (State.applyRecord s r slot).tkr = s.tkr ∧
    (State.applyRecord s r slot).tlm = s.tlm ∧ (State.applyRecord s r slot).cal = s.cal ∧
    (State.applyRecord s r slot).arb = s.arb ∧ (State.applyRecord s r slot).free = s.free ∧
    (State.applyRecord s r slot).pending = s.pending := by simp [State.applyRecord]
@[simp] theorem State.applyFallback_keeps (s : State) : (State.applyFallback s).part = s.part ∧
    (State.applyFallback s).straps = s.straps ∧ (State.applyFallback s).mode = s.mode ∧ (State.applyFallback s).life = s.life ∧
    (State.applyFallback s).pp = s.pp ∧ (State.applyFallback s).cnv = s.cnv ∧ (State.applyFallback s).chg = s.chg ∧
    (State.applyFallback s).emg = s.emg ∧ (State.applyFallback s).seq = s.seq ∧ (State.applyFallback s).pdp = s.pdp ∧
    (State.applyFallback s).lnk = s.lnk ∧ (State.applyFallback s).ser = s.ser ∧ (State.applyFallback s).fab = s.fab ∧
    (State.applyFallback s).chk = s.chk ∧ (State.applyFallback s).tkr = s.tkr ∧ (State.applyFallback s).tlm = s.tlm ∧
    (State.applyFallback s).cal = s.cal ∧ (State.applyFallback s).arb = s.arb ∧ (State.applyFallback s).free = s.free ∧
    (State.applyFallback s).pending = s.pending := by simp [State.applyFallback]
@[simp] theorem State.protect_keeps (s : State) (copyOk : Bool) : (State.protect s copyOk).part = s.part ∧
    (State.protect s copyOk).straps = s.straps ∧ (State.protect s copyOk).mode = s.mode ∧ (State.protect s copyOk).pp = s.pp ∧
    (State.protect s copyOk).cnv = s.cnv ∧ (State.protect s copyOk).chg = s.chg ∧ (State.protect s copyOk).emg = s.emg ∧
    (State.protect s copyOk).seq = s.seq ∧ (State.protect s copyOk).pdp = s.pdp ∧ (State.protect s copyOk).lnk = s.lnk ∧
    (State.protect s copyOk).ser = s.ser ∧ (State.protect s copyOk).chk = s.chk ∧ (State.protect s copyOk).tlm = s.tlm ∧
    (State.protect s copyOk).cal = s.cal ∧ (State.protect s copyOk).arb = s.arb ∧ (State.protect s copyOk).pending = s.pending := by
  unfold State.protect
  (repeat' apply And.intro) <;> (try simp) <;> (repeat' split) <;> (try simp) <;> (try simp_all)
@[simp] theorem State.applyBank_keeps (s : State) (on : Bool) : (State.applyBank s on).part = s.part ∧
    (State.applyBank s on).straps = s.straps ∧ (State.applyBank s on).mode = s.mode ∧ (State.applyBank s on).life = s.life ∧
    (State.applyBank s on).seq = s.seq ∧ (State.applyBank s on).pdp = s.pdp ∧ (State.applyBank s on).lnk = s.lnk ∧
    (State.applyBank s on).chk = s.chk ∧ (State.applyBank s on).tkr = s.tkr ∧ (State.applyBank s on).tlm = s.tlm ∧
    (State.applyBank s on).cal = s.cal ∧ (State.applyBank s on).arb = s.arb ∧ (State.applyBank s on).free = s.free ∧
    (State.applyBank s on).pending = s.pending := by unfold State.applyBank; (repeat' split) <;> simp
@[simp] theorem State.handOver_keeps (s : State) : (State.handOver s).part = s.part ∧ (State.handOver s).straps = s.straps ∧
    (State.handOver s).emg = s.emg ∧ (State.handOver s).seq = s.seq ∧ (State.handOver s).pdp = s.pdp ∧
    (State.handOver s).lnk = s.lnk ∧ (State.handOver s).ser = s.ser ∧ (State.handOver s).chk = s.chk ∧
    (State.handOver s).tkr = s.tkr ∧ (State.handOver s).cal = s.cal ∧ (State.handOver s).arb = s.arb ∧
    (State.handOver s).free = s.free ∧ (State.handOver s).pending = s.pending := by simp [State.handOver]
@[simp] theorem State.liftFaults_keeps (s : State) : (State.liftFaults s).part = s.part ∧ (State.liftFaults s).straps = s.straps ∧
    (State.liftFaults s).mode = s.mode ∧ (State.liftFaults s).life = s.life ∧ (State.liftFaults s).seq = s.seq ∧
    (State.liftFaults s).ser = s.ser ∧ (State.liftFaults s).chk = s.chk ∧ (State.liftFaults s).cal = s.cal ∧
    (State.liftFaults s).arb = s.arb ∧ (State.liftFaults s).free = s.free ∧ (State.liftFaults s).pending = s.pending := by simp [State.liftFaults]
@[simp] theorem State.bootPort_keeps (s : State) (p : Port) : (State.bootPort s p).part = s.part ∧
    (State.bootPort s p).straps = s.straps ∧ (State.bootPort s p).mode = s.mode ∧ (State.bootPort s p).life = s.life ∧
    (State.bootPort s p).regs = s.regs ∧ (State.bootPort s p).emg = s.emg ∧ (State.bootPort s p).seq = s.seq ∧
    (State.bootPort s p).lnk = s.lnk ∧ (State.bootPort s p).ser = s.ser ∧ (State.bootPort s p).chk = s.chk ∧
    (State.bootPort s p).tkr = s.tkr ∧ (State.bootPort s p).cal = s.cal ∧ (State.bootPort s p).arb = s.arb ∧
    (State.bootPort s p).free = s.free ∧ (State.bootPort s p).pending = s.pending := by
  unfold State.bootPort
  (repeat' apply And.intro) <;> (try simp) <;> (repeat' split) <;> (try simp) <;> (try simp_all)
@[simp] theorem State.bootCharge_keeps (s : State) : (State.bootCharge s).part = s.part ∧ (State.bootCharge s).straps = s.straps ∧
    (State.bootCharge s).mode = s.mode ∧ (State.bootCharge s).life = s.life ∧ (State.bootCharge s).pp = s.pp ∧
    (State.bootCharge s).cnv = s.cnv ∧ (State.bootCharge s).emg = s.emg ∧ (State.bootCharge s).seq = s.seq ∧
    (State.bootCharge s).pdp = s.pdp ∧ (State.bootCharge s).lnk = s.lnk ∧ (State.bootCharge s).ser = s.ser ∧
    (State.bootCharge s).chk = s.chk ∧ (State.bootCharge s).tlm = s.tlm ∧ (State.bootCharge s).cal = s.cal ∧
    (State.bootCharge s).arb = s.arb ∧ (State.bootCharge s).free = s.free ∧ (State.bootCharge s).pending = s.pending := by
  unfold State.bootCharge
  (repeat' apply And.intro) <;> (try simp) <;> (repeat' split) <;> (try simp) <;> (try simp_all)
@[simp] theorem State.bootSteps_keeps (s : State) (sns : Eight Nat) (vbat : Nat) (copyOk : Bool) :
    (State.bootSteps s sns vbat copyOk).part = s.part ∧ (State.bootSteps s sns vbat copyOk).straps = s.straps ∧
    (State.bootSteps s sns vbat copyOk).chk = s.chk ∧ (State.bootSteps s sns vbat copyOk).cal = s.cal ∧
    (State.bootSteps s sns vbat copyOk).arb = s.arb ∧ (State.bootSteps s sns vbat copyOk).pending = s.pending := by simp [State.bootSteps]
@[simp] theorem State.sampleAdr_keeps (s : State) (adr1 : AdrTie) (adr0 : AdrTie) : (State.sampleAdr s adr1 adr0).part = s.part ∧
    (State.sampleAdr s adr1 adr0).mode = s.mode ∧ (State.sampleAdr s adr1 adr0).life = s.life ∧
    (State.sampleAdr s adr1 adr0).regs = s.regs ∧ (State.sampleAdr s adr1 adr0).pp = s.pp ∧
    (State.sampleAdr s adr1 adr0).cnv = s.cnv ∧ (State.sampleAdr s adr1 adr0).chg = s.chg ∧
    (State.sampleAdr s adr1 adr0).emg = s.emg ∧ (State.sampleAdr s adr1 adr0).seq = s.seq ∧
    (State.sampleAdr s adr1 adr0).pdp = s.pdp ∧ (State.sampleAdr s adr1 adr0).lnk = s.lnk ∧
    (State.sampleAdr s adr1 adr0).ser = s.ser ∧ (State.sampleAdr s adr1 adr0).fab = s.fab ∧
    (State.sampleAdr s adr1 adr0).chk = s.chk ∧ (State.sampleAdr s adr1 adr0).tkr = s.tkr ∧
    (State.sampleAdr s adr1 adr0).tlm = s.tlm ∧ (State.sampleAdr s adr1 adr0).cal = s.cal ∧
    (State.sampleAdr s adr1 adr0).arb = s.arb ∧ (State.sampleAdr s adr1 adr0).pending = s.pending := by simp [State.sampleAdr]
@[simp] theorem State.bootJournal_keeps (s : State) : (State.bootJournal s).part = s.part ∧
    (State.bootJournal s).straps = s.straps ∧ (State.bootJournal s).mode = s.mode ∧ (State.bootJournal s).life = s.life ∧
    (State.bootJournal s).regs = s.regs ∧ (State.bootJournal s).pp = s.pp ∧ (State.bootJournal s).cnv = s.cnv ∧
    (State.bootJournal s).chg = s.chg ∧ (State.bootJournal s).emg = s.emg ∧ (State.bootJournal s).seq = s.seq ∧
    (State.bootJournal s).pdp = s.pdp ∧ (State.bootJournal s).lnk = s.lnk ∧ (State.bootJournal s).ser = s.ser ∧
    (State.bootJournal s).fab = s.fab ∧ (State.bootJournal s).chk = s.chk ∧ (State.bootJournal s).tlm = s.tlm ∧
    (State.bootJournal s).cal = s.cal ∧ (State.bootJournal s).arb = s.arb ∧ (State.bootJournal s).free = s.free ∧
    (State.bootJournal s).pending = s.pending := by unfold State.bootJournal; split <;> simp
@[simp] theorem State.closeInterrupted_keeps (s : State) : (State.closeInterrupted s).part = s.part ∧
    (State.closeInterrupted s).straps = s.straps ∧ (State.closeInterrupted s).mode = s.mode ∧
    (State.closeInterrupted s).life = s.life ∧ (State.closeInterrupted s).pp = s.pp ∧ (State.closeInterrupted s).cnv = s.cnv ∧
    (State.closeInterrupted s).chg = s.chg ∧ (State.closeInterrupted s).seq = s.seq ∧ (State.closeInterrupted s).pdp = s.pdp ∧
    (State.closeInterrupted s).lnk = s.lnk ∧ (State.closeInterrupted s).ser = s.ser ∧ (State.closeInterrupted s).chk = s.chk ∧
    (State.closeInterrupted s).tlm = s.tlm ∧ (State.closeInterrupted s).cal = s.cal ∧ (State.closeInterrupted s).arb = s.arb ∧
    (State.closeInterrupted s).pending = s.pending := by unfold State.closeInterrupted; split <;> simp
@[simp] theorem State.portAfterHold_keeps (s : State) (p : Port) : (State.portAfterHold s p).part = s.part ∧
    (State.portAfterHold s p).straps = s.straps ∧ (State.portAfterHold s p).mode = s.mode ∧
    (State.portAfterHold s p).life = s.life ∧ (State.portAfterHold s p).emg = s.emg ∧ (State.portAfterHold s p).seq = s.seq ∧
    (State.portAfterHold s p).lnk = s.lnk ∧ (State.portAfterHold s p).ser = s.ser ∧ (State.portAfterHold s p).chk = s.chk ∧
    (State.portAfterHold s p).tkr = s.tkr ∧ (State.portAfterHold s p).cal = s.cal ∧ (State.portAfterHold s p).arb = s.arb ∧
    (State.portAfterHold s p).free = s.free ∧ (State.portAfterHold s p).pending = s.pending := by
  unfold State.portAfterHold
  (repeat' apply And.intro) <;> (try simp) <;> (repeat' split) <;> (try simp) <;> (try simp_all)
@[simp] theorem State.chargeAfterHold_keeps (s : State) (posted : List Nat) : (State.chargeAfterHold s posted).part = s.part ∧
    (State.chargeAfterHold s posted).straps = s.straps ∧ (State.chargeAfterHold s posted).mode = s.mode ∧
    (State.chargeAfterHold s posted).life = s.life ∧ (State.chargeAfterHold s posted).seq = s.seq ∧
    (State.chargeAfterHold s posted).pdp = s.pdp ∧ (State.chargeAfterHold s posted).lnk = s.lnk ∧
    (State.chargeAfterHold s posted).ser = s.ser ∧ (State.chargeAfterHold s posted).chk = s.chk ∧
    (State.chargeAfterHold s posted).tlm = s.tlm ∧ (State.chargeAfterHold s posted).cal = s.cal ∧
    (State.chargeAfterHold s posted).arb = s.arb ∧ (State.chargeAfterHold s posted).free = s.free ∧
    (State.chargeAfterHold s posted).pending = s.pending := by simp [State.chargeAfterHold]
@[simp] theorem State.startRunning_keeps (s : State) : (State.startRunning s).part = s.part ∧
    (State.startRunning s).straps = s.straps ∧ (State.startRunning s).mode = s.mode ∧ (State.startRunning s).pp = s.pp ∧
    (State.startRunning s).cnv = s.cnv ∧ (State.startRunning s).chg = s.chg ∧ (State.startRunning s).emg = s.emg ∧
    (State.startRunning s).seq = s.seq ∧ (State.startRunning s).pdp = s.pdp ∧ (State.startRunning s).lnk = s.lnk ∧
    (State.startRunning s).fab = s.fab ∧ (State.startRunning s).tkr = s.tkr ∧ (State.startRunning s).free = s.free ∧
    (State.startRunning s).pending = s.pending := by simp [State.startRunning]
@[simp] theorem State.startUnits_keeps (s : State) : (State.startUnits s).part = s.part ∧ (State.startUnits s).straps = s.straps ∧
    (State.startUnits s).mode = s.mode ∧ (State.startUnits s).life = s.life ∧ (State.startUnits s).regs = s.regs ∧
    (State.startUnits s).pp = s.pp ∧ (State.startUnits s).cnv = s.cnv ∧ (State.startUnits s).chg = s.chg ∧
    (State.startUnits s).emg = s.emg ∧ (State.startUnits s).pdp = s.pdp ∧ (State.startUnits s).ser = s.ser ∧
    (State.startUnits s).chk = s.chk ∧ (State.startUnits s).tkr = s.tkr ∧ (State.startUnits s).tlm = s.tlm ∧
    (State.startUnits s).cal = s.cal ∧ (State.startUnits s).arb = s.arb ∧ (State.startUnits s).pending = s.pending := by
  unfold State.startUnits
  (repeat' apply And.intro) <;> (try simp) <;> (repeat' split) <;> (try simp) <;> (try simp_all)
@[simp] theorem State.ageOffsets_keeps (s : State) : (State.ageOffsets s).part = s.part ∧ (State.ageOffsets s).straps = s.straps ∧
    (State.ageOffsets s).mode = s.mode ∧ (State.ageOffsets s).life = s.life ∧ (State.ageOffsets s).pp = s.pp ∧
    (State.ageOffsets s).cnv = s.cnv ∧ (State.ageOffsets s).chg = s.chg ∧ (State.ageOffsets s).emg = s.emg ∧
    (State.ageOffsets s).seq = s.seq ∧ (State.ageOffsets s).pdp = s.pdp ∧ (State.ageOffsets s).lnk = s.lnk ∧
    (State.ageOffsets s).ser = s.ser ∧ (State.ageOffsets s).fab = s.fab ∧ (State.ageOffsets s).chk = s.chk ∧
    (State.ageOffsets s).tkr = s.tkr ∧ (State.ageOffsets s).tlm = s.tlm ∧ (State.ageOffsets s).arb = s.arb ∧
    (State.ageOffsets s).free = s.free ∧ (State.ageOffsets s).pending = s.pending := by
  unfold State.ageOffsets
  split
  · simp
  · (repeat' apply And.intro) <;> exact (foldl_keep _ _ (fun t w => by split <;> simp) _ _).trans (by rfl)
@[simp] theorem State.second_keeps (s : State) : (State.second s).part = s.part ∧ (State.second s).straps = s.straps ∧
    (State.second s).mode = s.mode ∧ (State.second s).life = s.life ∧ (State.second s).pp = s.pp ∧ (State.second s).seq = s.seq ∧
    (State.second s).ser = s.ser ∧ (State.second s).chk = s.chk ∧ (State.second s).tkr = s.tkr ∧ (State.second s).arb = s.arb ∧
    (State.second s).free = s.free ∧ (State.second s).pending = s.pending := by unfold State.second; (repeat' split) <;> simp
@[simp] theorem State.withFetchWord_keeps (s : State) (nbits : Nat) (w : Nat) : (State.withFetchWord s nbits w).part = s.part ∧
    (State.withFetchWord s nbits w).straps = s.straps ∧ (State.withFetchWord s nbits w).mode = s.mode ∧
    (State.withFetchWord s nbits w).life = s.life ∧ (State.withFetchWord s nbits w).regs = s.regs ∧
    (State.withFetchWord s nbits w).pp = s.pp ∧ (State.withFetchWord s nbits w).cnv = s.cnv ∧
    (State.withFetchWord s nbits w).chg = s.chg ∧ (State.withFetchWord s nbits w).emg = s.emg ∧
    (State.withFetchWord s nbits w).seq = s.seq ∧ (State.withFetchWord s nbits w).pdp = s.pdp ∧
    (State.withFetchWord s nbits w).lnk = s.lnk ∧ (State.withFetchWord s nbits w).ser = s.ser ∧
    (State.withFetchWord s nbits w).fab = s.fab ∧ (State.withFetchWord s nbits w).chk = s.chk ∧
    (State.withFetchWord s nbits w).tkr = s.tkr ∧ (State.withFetchWord s nbits w).tlm = s.tlm ∧
    (State.withFetchWord s nbits w).cal = s.cal ∧ (State.withFetchWord s nbits w).arb = s.arb ∧
    (State.withFetchWord s nbits w).free = s.free := by unfold State.withFetchWord; split <;> simp

end Sys2Proof.Machine
end

