-- ==== Sys2Proof/Laws/State.lean ====
section
/-! SUPPORT. What each update of the state changes, read back through the accessors, and that every operation on the ring
SRAM and on the store keeps its canonical form. What an update leaves alone stands in Laws/Keeps.lean. -/

namespace Sys2Proof.Machine

/-! Records with numbered fields. -/

@[simp] theorem Two.get_set_same {α : Type} (x : Two α) (p : Port) (v : α) : (x.set p v).get p = v := by cases p <;> rfl

theorem Two.get_set_ne {α : Type} (x : Two α) {p q : Port} (v : α) (h : q ≠ p) : (x.set p v).get q = x.get q := by
  cases p <;> cases q <;> first | rfl | exact absurd rfl h

@[simp] theorem Four.get_set_same {α : Type} (x : Four α) (k : Fin 4) (v : α) : (x.set k v).get k = v := by
  match k with
  | 0 | 1 | 2 | 3 => rfl

theorem Four.get_set_ne {α : Type} (x : Four α) {k j : Fin 4} (v : α) (h : j ≠ k) : (x.set k v).get j = x.get j := by
  match k, j with
  | 0, 0 | 1, 1 | 2, 2 | 3, 3 => exact absurd rfl h
  | 0, 1 | 0, 2 | 0, 3 | 1, 0 | 1, 2 | 1, 3 | 2, 0 | 2, 1 | 2, 3 | 3, 0 | 3, 1 | 3, 2 => rfl

@[simp] theorem Eight.get_set_same {α : Type} (x : Eight α) (k : Fin 8) (v : α) : (x.set k v).get k = v := by
  match k with
  | 0 | 1 | 2 | 3 | 4 | 5 | 6 | 7 => rfl

/-! Registers. -/

@[simp] theorem State.setReg_regs (s : State) (i v : Nat) :
    (s.setReg i v).regs = SMap.set (resetWord s.part s.straps) s.regs i (BitVec.ofNat 16 v) := rfl

@[simp] theorem State.postAs_regs (s : State) (x o i : Nat) : (s.postAs x o).reg i = s.reg i := rfl
@[simp] theorem State.post_reg (s : State) (x i : Nat) : (s.post x).reg i = s.reg i := rfl
@[simp] theorem State.postIf_reg (s : State) (c : Bool) (x i : Nat) : (s.postIf c x).reg i = s.reg i := rfl
@[simp] theorem State.setPrt_reg (s : State) (p : Port) (c : PortSt) (i : Nat) : (s.setPrt p c).reg i = s.reg i := rfl
@[simp] theorem State.setX_reg (s : State) (p : Port) (x : XCell) (i : Nat) : (s.setX p x).reg i = s.reg i := rfl
@[simp] theorem State.setAg_reg (s : State) (a : Agent) (f : SerAgent → SerAgent) (i : Nat) : (s.setAg a f).reg i = s.reg i := rfl
@[simp] theorem State.nextFree_reg (s : State) (i : Nat) : s.nextFree.reg i = s.reg i := rfl

theorem State.setFld_reg (s : State) (i lsb w v : Nat) : (s.setFld i lsb w v).reg i = putBits (s.reg i) lsb w v % 65536 := by
  simp [State.setFld]

theorem State.bump_reg (s : State) (i n : Nat) : (s.bump i n).reg i = satAdd 65535 (s.reg i) n % 65536 := by simp [State.bump]

/-! Postings. -/

@[simp] theorem State.postAs_fab (s : State) (x o : Nat) : (s.postAs x o).fab = s.postFab x o := rfl
@[simp] theorem State.post_fab (s : State) (x : Nat) : (s.post x).fab = s.postFab x 0 := rfl
@[simp] theorem State.postIf_fab (s : State) (c : Bool) (x : Nat) : (s.postIf c x).fab = if c then s.postFab x 0 else s.fab := rfl
@[simp] theorem State.posts_nil (s : State) : s.posts [] = s := rfl
theorem State.posts_cons (s : State) (x : Nat) (xs : List Nat) : s.posts (x :: xs) = (s.post x).posts xs := rfl
@[simp] theorem State.when_true (s : State) (f : State → State) : s.when true f = f s := rfl
@[simp] theorem State.when_false (s : State) (f : State → State) : s.when false f = s := rfl
@[simp] theorem State.nextFree_free (s : State) : s.nextFree.free = s.free + 1 := rfl

/-- What a posting reads. -/
theorem State.deliver_congr {s t : State} (hp : t.part = s.part) (hs : t.straps = s.straps) (hr : t.regs = s.regs) :
    t.deliver = s.deliver := by
  have h : t.reg = s.reg := funext (State.reg_congr hp hs hr)
  have hr : t.route = s.route := by funext x; simp only [State.route, h]
  have ha : t.awake = s.awake := by funext a; simp only [State.awake, State.flag, h]
  funext f e
  simp only [State.deliver, State.nextBound, hr, ha]

theorem State.deliverAll_congr {s t : State} (h : t.deliver = s.deliver) (f : Fabric) (es : List Entry) :
    t.deliverAll f es = s.deliverAll f es := by
  induction es generalizing f with
  | nil => rfl
  | cons e es ih => simp only [State.deliverAll, h, ih]

theorem State.postOne_congr {s t : State} (hp : t.part = s.part) (hs : t.straps = s.straps) (hr : t.regs = s.regs) :
    t.postOne = s.postOne := by
  have h : t.reg = s.reg := funext (State.reg_congr hp hs hr)
  have hd := State.deliver_congr hp hs hr
  have hr : t.route = s.route := by funext x; simp only [State.route, h]
  have hc : t.closeBatch = s.closeBatch := by funext f g; simp only [State.closeBatch, State.deliverAll_congr hd]
  have ht : t.rtc = s.rtc := by simp only [State.rtc, State.reg32, h]
  have hf : t.fld = s.fld := by funext i a b; simp only [State.fld, h]
  funext f x o
  unfold State.postOne
  rw [hr, ht, hd, hc, hf]

theorem State.postAll_congr {s t : State} (h : t.postOne = s.postOne) (n : Nat) (xs : List (Nat × Nat)) (f : Fabric) :
    t.postAll n xs f = s.postAll n xs f := by
  induction n generalizing xs f with
  | zero => rfl
  | succ n ih =>
    cases xs with
    | nil => rfl
    | cons x xs => simp only [State.postAll, h, ih]

/-- Two states that agree on these fields post alike. -/
theorem State.postFab_congr {s t : State} (hp : t.part = s.part) (hs : t.straps = s.straps) (hr : t.regs = s.regs)
    (hm : t.mode = s.mode) (hf : t.fab = s.fab) (x o : Nat) : t.postFab x o = s.postFab x o := by
  simp only [State.postFab, State.active, hp, hm, hf, State.postAll_congr (State.postOne_congr hp hs hr)]

/-! Ports, converters and agents. -/

@[simp] theorem State.setPrt_pdp (s : State) (p : Port) (c : PortSt) : (s.setPrt p c).pdp = s.pdp.set p c := rfl
@[simp] theorem State.prt_setPrt_same (s : State) (p : Port) (c : PortSt) : (s.setPrt p c).prt p = c := Two.get_set_same _ _ _
theorem State.prt_setPrt_ne (s : State) {p q : Port} (c : PortSt) (h : q ≠ p) : (s.setPrt p c).prt q = s.prt q := Two.get_set_ne _ _ h
@[simp] theorem State.setX_cnv (s : State) (p : Port) (x : XCell) : (s.setX p x).cnv = { s.cnv with x := s.cnv.x.set p x } := rfl
@[simp] theorem State.setAg_same (s : State) (a : Agent) (f : SerAgent → SerAgent) : (s.setAg a f).ser.ag.get a = f (s.ser.ag.get a) :=
  Four.get_set_same _ _ _
theorem State.setAg_ne (s : State) {a b : Agent} (f : SerAgent → SerAgent) (h : b ≠ a) : (s.setAg a f).ser.ag.get b = s.ser.ag.get b :=
  Four.get_set_ne _ _ h

/-! Canonical forms. -/

theorem Fabric.putWord_wf (f : Fabric) (w : Nat) (e : List Byte) (h : Memory.wf sramDefault f.sram = true) :
    Memory.wf sramDefault (f.putWord w e).sram = true := Memory.wf_write _ _ _ h

theorem Fabric.putEntries_wf (f : Fabric) (r : Ring) (n : Nat) (es : List (List Byte)) (h : Memory.wf sramDefault f.sram = true) :
    Memory.wf sramDefault (f.putEntries r n es).sram = true := by
  induction es generalizing f n with
  | nil => exact h
  | cons e es ih => exact ih _ _ (f.putWord_wf _ e h)

theorem Fabric.append_wf (f : Fabric) (k : Nat) (es : List (List Byte)) (h : Memory.wf sramDefault f.sram = true) :
    Memory.wf sramDefault (f.append k es).sram = true := f.putEntries_wf _ _ es h

theorem Tkr.program_wf (x : Tkr) (pg : Nat) (bs : List Byte) (h : Memory.wf eraseByte x.store = true) :
    Memory.wf eraseByte (x.program pg bs).store = true := Memory.wf_write _ _ _ h

theorem Tkr.clear_wf (x : Tkr) (b : Nat) (h : Memory.wf eraseByte x.store = true) : Memory.wf eraseByte (x.clear b).store = true :=
  Memory.wf_filter _ _ h

theorem State.eraseBlk_wf (s : State) (b : Nat) (hb : (s.tkr.bad.any fun p => p / 256 == b) = false)
    (h : Memory.wf eraseByte s.tkr.store = true) : Memory.wf eraseByte (s.eraseBlk b).tkr.store = true := by
  unfold State.eraseBlk
  rw [hb]
  exact s.tkr.clear_wf b h

/-- A byte of SRAM outside the word stored reads as before. -/
theorem Fabric.putWord_outside (f : Fabric) (w : Nat) (e : List Byte) {a : Nat} (he : e.length ≤ 16) (h : a < 16 * w ∨ 16 * w + 16 ≤ a) :
    SMap.get sramDefault (f.putWord w e).sram a = SMap.get sramDefault f.sram a := by
  apply Memory.get_write_outside
  have hl : (padTo 16 e).length = 16 := by simp [padTo]
  omega

end Sys2Proof.Machine
end

