-- ==== Sys2Proof/WellFormed.lean ====
section
/-! DEFINITION. Which commands can come at all: operands that a transaction, a frame or a measurement can carry. -/

namespace Sys2Proof

/-- A grant entry fits its two bytes (10, BEACON payload). -/
def GrantEntry.wf (g : GrantEntry) : Bool := g.short < 32 && g.cur < 128

/-- A beacon fits its payload. -/
def Beacon.wf (b : Beacon) : Bool :=
  b.prio < 16 && b.members ≤ 32 && (b.holder < 32 || b.holder == 0xFF) && b.grants.length ≤ 32 && b.grants.all GrantEntry.wf

/-- A STATUS fits its payload. -/
def LinkStatus.wf (s : LinkStatus) : Bool := s.offer < 256 && s.demand < 256

/-- A received agent frame fits R375. -/
def AgentFrame.wf (f : AgentFrame) : Bool := f.src < 32 && f.seqNo < 4 && f.payload.length ≤ 128

/-- A Request fits its data object. -/
def PdRequest.wf : PdRequest → Bool
  | .fixed pos cur => 1 ≤ pos && pos ≤ 7 && cur < 1024
  | .pps pos volt cur => 1 ≤ pos && pos ≤ 7 && volt < 4096 && cur < 128

/-- A block command carries a count and at most 255 bytes, and possibly a PEC byte. -/
def CmdTx.wf (t : CmdTx) : Bool := t.written.length ≤ 257

/-- Window data names no register twice. -/
def dataWf (d : List (Fin 8 × Word)) : Bool := (d.map (·.1)).Nodup

/-- The command can come. -/
def Instr.wf : Instr → Bool
  | .beaconReceived b => b.wf
  | .statusReceived src st => src < 32 && st.wf
  | .joinReceived _ prio n => prio < 16 && n < 4
  | .joinAckReceived _ short => short < 32 || short == 0xFE
  | .claimWithdraw b _ => b < 52
  | .leaveReceived src _ => src < 32
  | .testReqReceived src _ secs n => src < 32 && secs < 2 ^ 32 && n < 4
  | .testGrantReceived _ n => n < 4
  | .testEndReceived src _ n => src < 32 && n < 4
  | .doorbellReceived f => f.wf && 1 ≤ f.payload.length && f.payload.length ≤ 15
  | .dataReceived f => f.wf
  | .ackReceived n => n < 4
  | .request _ r _ _ => r.wf
  | .sourceCapabilities _ pdos => 1 ≤ pdos.length && pdos.length ≤ 7
  | .sinkCapabilities _ pdos => 1 ≤ pdos.length && pdos.length ≤ 7
  | .summary _ tx | .ident _ tx | .status _ tx | .pendingCmd _ tx | .claim _ tx | .complete _ tx | .doorbell _ tx
  | .ringPush _ tx | .ringPop _ tx | .tkrReq _ tx => tx.wf
  | .ringDataPush _ d => dataWf d
  | .rawAccess _ (some d) => dataWf d
  | .oneshotDone _ xs => 1 ≤ xs.length && xs.length ≤ 128
  | .telemetryResult _ xs _ => 1 ≤ xs.length && xs.length ≤ 512
  | _ => true

end Sys2Proof
end

