-- ==== Sys2Proof/Tests/Slice0.lean ====
section
/-! SUPPORT. Small tests. First the check values and reset values that the manual prints, and the checks of WellFormed; then,
for each command, a state and operands that meet the premises of each clause stated about it, and what the clause concludes
(one step each). -/

namespace Sys2Proof.Tests

open Sys2Proof Sys2Proof.Machine Sys2Proof.Safety

set_option maxRecDepth 10000
set_option Elab.async false

/-! States. -/

/-- The state after a command. -/
def after (c : Instr) (s : State) : State :=
  match exec c s with
  | .next t => t
  | _ => s

/-- What two states' fabrics show of their postings, but for the parts of their seconds. -/
def sameFab (f g : Fabric) : Bool :=
  g.seq == f.seq && g.unrouted == f.unrouted && g.merged == f.merged && g.pend.map (·.num) == f.pend.map (·.num)
    && g.absent == f.absent

/-- The posting of source x with origin o, but for the part of its second. -/
def postedB (s t : State) (x o : Nat) : Bool := sameFab (s.postFab x o) t.fab

/-- ACTIVE, with 4 Li-ion cells strapped and a protection record without limits applied. -/
def live : State :=
  ((({ State.reset with mode := .active, straps := ⟨false, 2, 3, 0⟩ } : State).setReg Reg.sysLimMisc 0xF).setReg Reg.sysBoot 1).setReg Reg.chgChem 0x14

/-- A phase in service. -/
def runs : PhaseCell := { PhaseCell.init with st := .run }

/-- With AUX connected and a phase running. -/
def fed : State :=
  { live with pp := { live.pp with valid := ⟨false, true, false, false⟩, conn := some .aux },
              cnv := { live.cnv with phases := live.cnv.phases.set 0 runs } }

/-- With C1 sourcing 5 V. -/
def sourcing : State :=
  { fed with pdp := { fed.pdp with p1 := { PortSt.init with role := .source, roleIn := 3, rev := 2, partnerRev := 2, offered := [⟨false, 5000, 3000⟩, ⟨false, 9000, 3000⟩] } },
             cnv := { fed.cnv with x := { fed.cnv.x with p1 := { XCell.init with run := true, vtgt := 5000, iset := 3000 } } } }

/-- With C1 unattached as a dual-role port. -/
def drp : State := ({ fed with pdp := { fed.pdp with p1 := { PortSt.init with roleIn := 3 } } } : State).setReg Reg.sysLimPort 30

/-- With C1 sinking from a partner that offers 5 V and 9 V. -/
def sinking : State :=
  ({ fed with pdp := { fed.pdp with p1 := { PortSt.init with role := .sink, roleIn := 3, cfgIn := 0x0C00, rev := 2, partnerRev := 2, partner := [0x1912C#32, 0x2D12C#32] } } } : State).setReg Reg.sysLimPort 30

/-- With the Link in a state, at short address 3. -/
def linked (k : LnkState) : State :=
  ({ fed with lnk := { fed.lnk with state := k, short := 3, lead := 5 } } : State).setReg Reg.lnkCfg 0x383

/-- A lead that knows member 1. -/
def leading : State :=
  { linked .lead with lnk := { (linked .lead).lnk with short := 0, count := 2, lead := State.reset.part.uid, members := [⟨1, 7, 3, 0, 5, 6, 50, 10, 2, false⟩] } }

/-- With every agent allowed to write every bank, and ring 64 of 16 entries. -/
def served : State :=
  { (List.range 32).foldl (fun s w => s.setReg (0x40 + w) 0xAAAA) fed with
    fab := fed.fab.setRing 64 { fed.fab.ring 64 with size := 4, base := 2000, pop := 15 } }

/-- With agent 0 called in an attention mode, and entry 32 claimable. -/
def called (mode : Nat) : State :=
  (({ served with fab := { served.fab with pend := [⟨32, 0, 7, 1, 5, 0, 0, false, false, false, false, ⟨true, false, false, false⟩⟩] } } : State).setReg (Reg.agtCtl 0) 1).setReg
    (Reg.serAgtCfg 0) mode

/-- With agent 0's request running. -/
def asking (bytes : List Byte) : State := { served with tkr := { served.tkr with run := served.tkr.run.set 0 (some ⟨1, bytes⟩) } }

/-- With agent 0's request first in its queue. -/
def queued (bytes : List Byte) : State := { served with tkr := { served.tkr with queue := served.tkr.queue.set 0 [⟨1, bytes⟩] } }

/-- What `replied` says, as a Bool. -/
def repliedB (s t : State) (a : Agent) (r : Req) (x : Answered) : Bool :=
  t.tkr.run.get a == none && (if s.tkr.replies.get a == [] && s.ringFits (2 * a.val + 1) (r.item x).entries.length then
    t.tkr.replies.get a == [] && (t.fab.ring (2 * a.val + 1)).items == (s.fab.ring (2 * a.val + 1)).items ++ [(r.item x).entries.length]
  else t.tkr.replies.get a == s.tkr.replies.get a ++ [r.item x])

/-- What `said` and `saidData` say, as Bools. -/
def saidB (t : State) (p : Port) (ext : Bool) (typ : Nat) : Bool :=
  (t.prt p).sent.any fun m => m.signal == .message && m.ext == ext && m.typ == typ && (ext || m.objs.isEmpty)

def saidDataB (t : State) (p : Port) (typ : Nat) : Bool :=
  (t.prt p).sent.any fun m => m.signal == .message && !m.ext && m.typ == typ && !m.objs.isEmpty

/-- What `upkeepFree` and `upkeepYields` say, as Bools. -/
def freeB (s : State) (p : Fin 4) (act : Nat) : Bool :=
  !s.planeHeld p && !s.planeFg p none && (s.arb.plane.get p).free (s.floors [3, 4]) (fun _ => 1) (some act)

def yieldsB (s : State) (p : Fin 4) : Bool :=
  !s.planeHeld p && s.planeFg p none && (s.arb.plane.get p).mayRun (s.floors [3, 4]) (fun _ => 1) true 4
    && !(s.arb.plane.get p).due (s.floors [3, 4]) 4

/-- What `chargeReady` says, as a Bool. -/
def readyB (s : State) : Bool :=
  !s.emg.emergency && s.chgPermitted && s.chg.zone != .cold && s.chg.zone != .hot && !s.chg.ntcFault && !s.chg.boardHot

/-- With rails 1 and 2 up. -/
def railsOn : State :=
  ({ fed with seq := { fed.seq with state := .on, en := Eight.ofNat 3, pg := Eight.ofNat 3, disch := Eight.ofNat 0xFC,
                                    armedHi := Eight.ofNat 3, armedLo := Eight.ofNat 3 } } : State).setReg Reg.seqEn 3

/-- With every rail dark. -/
def dark : State := { live with seq := { live.seq with disch := Eight.ofNat 0xFF } }

/-- With rail 2 rising as the first rail of a power-up. -/
def rising : State :=
  ({ live with seq := { live.seq with state := .up, dir := 1, cur := some 1, rise := some 1, en := Eight.ofNat 2, disch := Eight.ofNat 0xFD } } : State).setReg Reg.seqEn 2

/-- With rail 1 adopted in HELD and rail 2 not up. -/
def heldUp : State :=
  ({ fed with seq := { fed.seq with state := .held, en := Eight.ofNat 1, pg := Eight.ofNat 1, disch := Eight.ofNat 0xFE,
                                    armedHi := Eight.ofNat 1, armedLo := Eight.ofNat 1 } } : State).setReg Reg.seqEn 3

/-- With a FUNCTION test due and everything ready for it. -/
def scheduled : State :=
  ((((({ fed with emg := { fed.emg with durStop := true }, pp := { fed.pp with vbat := 16000 } } : State).setReg32 Reg.kprRtc 1000).setFlag Reg.kprStat 1 true).setReg32 Reg.emgFnNext 900).setReg Reg.chgVbat 1600).setFlag Reg.emgCtl 8 true

/-- With a FUNCTION test of 60 s running. -/
def running : State :=
  { fed with pp := { fed.pp with isolated := true, conn := none, batfet := .on }, chg := { fed.chg with st := .isolated },
             emg := { fed.emg with run := some ⟨.function, 0, 900, 1, 900, 60, none, .normal, 0, 16000, 16000, 100, none, 0, 250, 250, 0⟩, serial := 1 } }

/-! Values that the manual prints. -/

/-- The bytes "123456789" (13, Algorithms). -/
def digits : List Byte := (List.range 9).map fun k => BitVec.ofNat 8 (0x31 + k)

theorem test_crc8_check : algCrc8.value digits = 0xF4 := by decide
theorem test_ccitt_check : algCcitt.value digits = 0x29B1 := by decide
theorem test_crc32_check : algCrc32.value digits = 0xCBF43926 := by decide
theorem test_crc32c_check : algCrc32c.value digits = 0xE3069283 := by decide
theorem test_fletcher_check : algFletcher.value [0x61, 0x62, 0x63, 0x64, 0x65] = 0xF04FC729 := by decide
theorem test_sum_check : algSum.value digits = 0x6C6A689F := by decide

/-- The claim values of the two nodes of 10, Two nodes starting together; they first differ in bit 42 of the claim field. -/
theorem test_claim_values :
    claimValue 8 0x001234567890 = 0x8001234567890 ∧ claimValue 8 0x001234567A10 = 0x8001234567A10
      ∧ bit (claimValue 8 0x001234567890) (51 - 42) = false ∧ bit (claimValue 8 0x001234567A10) (51 - 42) = true := by decide

/-- Reset: OFF, the queue empty, AGT0_CTL, SER_AGT0_ATTN and EMG_CTL.SCHED_EN as their tables print them. -/
theorem test_reset :
    State.reset.mode = .off ∧ State.reset.pending = [] ∧ State.reset.reg (Reg.agtCtl 0) = 0x00F1
      ∧ State.reset.reg (Reg.serAgtAttn 0) = 0xF ∧ State.reset.flag Reg.emgCtl 8 = true := by decide

/-! The queue. -/

theorem test_step_runs_front :
    step { live with pending := [.wakeNLow 5, .testDue] } = exec (.wakeNLow 5) { live with pending := [.testDue] } := by rfl

theorem test_idle_second :
    (match step { live with pending := [] } with | .next t => decide (t.rtc = live.rtc + 1) | _ => false) = true := by decide

theorem test_word_spells_nothing : decodeTableWord 16 1 = none ∧ live.withFetchWord 16 1 = live := by decide

/-! A term that each check of WellFormed refuses. -/

theorem test_wf_beacon : Instr.wf (.beaconReceived ⟨0, 1, 16, 1, 0, false, []⟩) = false := by decide
theorem test_wf_beacon_grant : Instr.wf (.beaconReceived ⟨0, 1, 1, 1, 0, false, [⟨32, true, 1⟩]⟩) = false := by decide
theorem test_wf_status : Instr.wf (.statusReceived 1 ⟨0, 256, 0, 0, 0, 0⟩) = false := by decide
theorem test_wf_join : Instr.wf (.joinReceived 1 16 0) = false := by decide
theorem test_wf_join_ack : Instr.wf (.joinAckReceived 1 32) = false := by decide
theorem test_wf_claim_bit : Instr.wf (.claimWithdraw 52 true) = false := by decide
theorem test_wf_leave : Instr.wf (.leaveReceived 32 false) = false := by decide
theorem test_wf_test_req : Instr.wf (.testReqReceived 1 .function 60 4) = false := by decide
theorem test_wf_test_grant : Instr.wf (.testGrantReceived .function 4) = false := by decide
theorem test_wf_test_end : Instr.wf (.testEndReceived 32 1 0) = false := by decide
theorem test_wf_doorbell : Instr.wf (.doorbellReceived ⟨1, false, false, false, 0, []⟩) = false := by decide
theorem test_wf_data : Instr.wf (.dataReceived ⟨32, false, false, false, 0, [1]⟩) = false := by decide
theorem test_wf_ack : Instr.wf (.ackReceived 4) = false := by decide
theorem test_wf_request : Instr.wf (.request .c1 (.fixed 8 10) 0 0) = false := by decide
theorem test_wf_request_pps : Instr.wf (.request .c1 (.pps 1 4096 10) 0 0) = false := by decide
theorem test_wf_source_caps : Instr.wf (.sourceCapabilities .c1 []) = false := by decide
theorem test_wf_sink_caps : Instr.wf (.sinkCapabilities .c1 (List.replicate 8 0)) = false := by decide
theorem test_wf_command : Instr.wf (.ringPush 0 ⟨List.replicate 258 0, none⟩) = false := by decide
theorem test_wf_ring_data : Instr.wf (.ringDataPush 0 [(1, 0), (1, 0)]) = false := by decide
theorem test_wf_raw_data : Instr.wf (.rawAccess 0 (some [(1, 0), (1, 0)])) = false := by decide
theorem test_wf_oneshot : Instr.wf (.oneshotDone 0 []) = false := by decide
theorem test_wf_telemetry : Instr.wf (.telemetryResult 0 [] 1) = false := by decide

/-! Premises of the statements about every step. -/

/-- StepKeepsInv, and the frames: a state that meets Inv and a step from it. -/
theorem test_inv_reset :
    SMap.wf (resetWord State.reset.part State.reset.straps) State.reset.regs = true ∧ Memory.wf sramDefault State.reset.fab.sram = true
      ∧ Memory.wf eraseByte State.reset.tkr.store = true ∧ State.reset.tkr.jhead < 32768 ∧ State.reset.tkr.thead < 8192
      ∧ State.reset.tkr.hhead < 147456 := by decide

/-! 03, Life cycle. -/

theorem kprFall_bounds : 3700 ≤ Config.kprFall ∧ Config.kprFall ≤ 4000 := by unfold Config.kprFall; omega

theorem test_power_loss :
    max 3699 3000 < Config.kprFall ∧
      (let s : State := live
       let t := after (.keeperPowerLoss 3699 3000) s
       t.mode = .off ∧ t.regs = [] ∧ t.tkr.store = s.tkr.store ∧ t.tkr.erases = s.tkr.erases ∧ t.life.fuseFloor = s.life.fuseFloor ∧ ∀ k, t.enHigh k = false) := by
  have b := kprFall_bounds
  have h : ¬ Config.kprFall ≤ keeperSupply 3699 3000 := by simp only [keeperSupply]; omega
  refine ⟨by omega, ?_⟩
  simp only [after, exec, execKeeperPowerLoss, h, if_false]
  decide +kernel

theorem test_power_stays : Config.kprFall ≤ max 3000 4000 ∧ after (.keeperPowerLoss 3000 4000) live = live := by
  have b := kprFall_bounds
  have h : Config.kprFall ≤ keeperSupply 3000 4000 := by simp only [keeperSupply]; omega
  refine ⟨by omega, ?_⟩
  simp only [after, exec, execKeeperPowerLoss, h, if_true]

theorem test_enter_ship :
    (let s : State := live
    let t := after (.enterShip) s
    (s.mode = .active ∧ s.anyValid = false ∧ s.emg.emergency = false ∧ s.testing = false ∧ s.life.shipReq = .none ∧ s.seq.state ≠ .stuck ∧ s.seq.state ≠ .down ∧ highest s.seq.en = none) ∧
    (t.fld Reg.sysPower 12 4 = 1 ∧ t.life.shipReq = .agent ∧ t.mode = .active ∧ t.seq.state = .off)) ∧
    (let s : State := { live with seq := { live.seq with state := .on, en := Eight.ofNat 3, pg := Eight.ofNat 3, disch := Eight.ofNat 0xFC } }
    let t := after (.enterShip) s
    (s.mode = .active ∧ s.anyValid = false ∧ s.emg.emergency = false ∧ s.testing = false ∧ s.life.shipReq = .none ∧ s.seq.state ≠ .stuck ∧ s.seq.en.get 1 = true ∧ s.seq.disch.get 1 = false) ∧
    (t.fld Reg.sysPower 12 4 = 1 ∧ t.life.shipReq = .agent ∧ t.mode = .active ∧ t.seq.state = .down)) ∧
    (let s : State := { live with pp := { live.pp with valid := (Four.all false).set 1 true } }
    let t := after (.enterShip) s
    (s.mode = .active ∧ s.anyValid = true) ∧
    (t = (s.setFld Reg.sysPower 12 4 2))) ∧
    (let s : State := { live with emg := { live.emg with emergency := true } }
    let t := after (.enterShip) s
    (s.mode = .active ∧ s.anyValid = false ∧ (s.emg.emergency = true ∨ s.testing = true)) ∧
    (t = (s.setFld Reg.sysPower 12 4 3))) := by decide +kernel

theorem test_ship_entry :
    let s : State := { live with life := { live.life with shipReq := .agent } }
    let t := after (.shipEntry) s
    (s.mode = .active ∧ s.life.shipReq ≠ .none ∧ s.railsDown = true) ∧
    (t.mode = .ship ∧ t.pp.batfet = .off ∧ t.pp.valid = Four.all false ∧ ∀ k, t.enHigh k = false) := by decide +kernel

theorem test_dormant :
    let s : State := live
    let t := after (.enterDormant) s
    (s.mode = .active ∧ s.dormantBlocked = false) ∧
    (t.mode = .dormant ∧ t.fld Reg.sysPower 12 4 = 1 ∧ t.seq.en = s.seq.en ∧ t.chg = { s.chg with limited := t.chg.limited, halfRate := t.chg.halfRate }) := by decide +kernel

theorem test_dormant_blocked :
    let s : State := { live with emg := { live.emg with emergency := true } }
    let t := after (.enterDormant) s
    (s.mode = .active ∧ s.dormantBlocked = true) ∧
    (t = (s.setFld Reg.sysPower 12 4 3)) := by decide +kernel

theorem test_bad_key :
    let s : State := live
    let t := after (.sysPowerBadKey 0xA4) s
    (s.mode = .active) ∧
    (t = (s.setFld Reg.sysPower 12 4 5)) := by decide +kernel

theorem test_brownout :
    let s : State := { live with seq := { live.seq with state := .on, en := Eight.ofNat 3 } }
    let t := after (.brownout) s
    (s.mode = .active) ∧
    (t.mode = .hold ∧ t.life.kind = .brownout ∧ t.life.causes = 0x40 ∧ t.seq.en = s.seq.en ∧ t.chg.st = .idle) := by decide +kernel

theorem test_watchdog_reset :
    let s : State := { live.setReg Reg.cnvRevImax 77 with life := { live.life with armed := true, sWarned := true }, seq := { live.seq with en := Eight.ofNat 1 } }
    let t := after (.watchdogReset .s 40000) s
    (s.mode = .active ∧ s.life.armed = true ∧ s.wdgWarned .s = true ∧ s.wdgPeriod .s ≤ 40000) ∧
    (t.mode = .hold ∧ t.life.kind = .watchdog ∧ t.life.causes = 1 ∧ t.seq.en = s.seq.en ∧ ∀ r ∈ [Reg.cnvRevImax, Reg.chgChem, Reg.sysLimMisc], t.reg r = if convBank r then s.reg r else (resetWord s.part s.straps r).toNat) := by decide +kernel

theorem test_watchdog_reset_e :
    let s : State := { live with life := { live.life with armed := true, eWarned := true } }
    let t := after (.watchdogReset .e 40000) s
    (s.mode = .active ∧ s.life.armed = true ∧ s.wdgWarned .e = true ∧ s.wdgPeriod .e ≤ 40000) ∧
    (t.mode = .hold ∧ t.life.kind = .watchdog ∧ t.life.causes = 1 ∧ t.seq.en = s.seq.en ∧ ∀ r ∈ [Reg.cnvRevImax, Reg.chgChem, Reg.sysLimMisc], t.reg r = if convBank r then s.reg r else (resetWord s.part s.straps r).toNat) := by decide +kernel

theorem test_tbo_reset :
    let s : State := { live with life := { live.life with tboSilent := true } }
    let t := after (.tboLostReset 40000) s
    (s.mode = .active ∧ s.life.tboSilent = true ∧ s.wdgPeriod .e ≤ 40000) ∧
    (t.mode = .hold ∧ t.life.kind = .watchdog ∧ t.life.causes = 1 ∧ ∀ r ∈ [Reg.cnvRevImax, Reg.chgChem, Reg.sysLimMisc], t.reg r = if convBank r then s.reg r else (resetWord s.part s.straps r).toNat) := by decide +kernel

theorem test_power_on_ship :
    let s : State := State.reset
    let t := after (.powerOn 0 none none 4100) s
    (s.mode = .off) ∧
    (t.mode = (if s.maskInputs 0 = [] then .ship else .hold) ∧ t.life.causes.getLsbD 0 = true ∧ t.straps.chem = (strapCode none).getD 0 ∧ ∀ i ∈ s.maskInputs 0, t.isValid i = true) := by decide +kernel

theorem test_power_on_hold :
    let s : State := State.reset
    let t := after (.powerOn 3 (some 10000) (some 10000) 0) s
    (s.mode = .off) ∧
    (t.mode = (if s.maskInputs 3 = [] then .ship else .hold) ∧ t.life.causes.getLsbD 0 = true ∧ t.straps.chem = (strapCode (some 10000)).getD 0 ∧ ∀ i ∈ s.maskInputs 3, t.isValid i = true) := by decide +kernel

theorem test_ship_wake_host :
    let s : State := { live with mode := .ship }
    let t := after (.shipWake none) s
    (s.mode = .ship) ∧
    (t.mode = .hold ∧ t.life.causes.getLsbD 1 = true) := by decide +kernel

theorem test_ship_wake_input :
    let s : State := { live with mode := .ship }
    let t := after (.shipWake (some .aux)) s
    (s.mode = .ship ∧ s.eligible .aux = true) ∧
    (t.mode = .hold ∧ t.life.causes.getLsbD 3 = true ∧ t.isValid .aux = true) := by decide +kernel

theorem test_wake_n :
    let s : State := { live with mode := .dormant }
    let t := after (.wakeNLow 10) s
    (10 ≤ 10 ∧ s.life.pulse = false ∧ (s.mode = .ship ∨ s.mode = .dormant)) ∧
    (t.mode = .hold ∧ t.life.causes.getLsbD 1 = true) := by decide +kernel

theorem test_wake_while_active :
    let s : State := fed
    let t := after (.wakeNLow 1000000) s
    (s.mode = .active) ∧
    (t = s) := by decide +kernel

theorem test_pulse_end :
    let s : State := { live with life := { live.life with pulse := true } }
    let t := after (.remoteWakePulseEnd false) s
    (s.life.pulse = true) ∧
    (t = { s with life := { s.life with pulse := false } }) := by decide +kernel

theorem test_pulse_end_low :
    let s : State := { live with mode := .hold, life := { live.life with pulse := true } }
    let t := after (.remoteWakePulseEnd true) s
    (s.life.pulse = true ∧ s.mode = .hold) ∧
    (t.mode = .hold ∧ t.life.causes.getLsbD 1 = true) := by decide +kernel

theorem test_rtc_alarm_dormant :
    let s : State := ({ live with mode := .dormant } : State).setFlag Reg.kprCfg 1 true
    let t := after (.rtcAlarm) s
    (s.mode ≠ .off ∧ s.flag Reg.kprCfg 1 = true ∧ s.rtc = s.reg32 Reg.kprAlarm) ∧
    (t.flag Reg.kprStat 2 = true ∧ t.flag Reg.kprCfg 1 = false ∧ (s.mode = .dormant → t.mode = .hold ∧ t.life.causes.getLsbD 5 = true) ∧ (s.mode = .ship → t.mode = .ship)) := by decide +kernel

theorem test_rtc_alarm_ship :
    let s : State := ({ live with mode := .ship } : State).setFlag Reg.kprCfg 1 true
    let t := after (.rtcAlarm) s
    (s.mode ≠ .off ∧ s.flag Reg.kprCfg 1 = true ∧ s.rtc = s.reg32 Reg.kprAlarm) ∧
    (t.flag Reg.kprStat 2 = true ∧ t.flag Reg.kprCfg 1 = false ∧ (s.mode = .dormant → t.mode = .hold ∧ t.life.causes.getLsbD 5 = true) ∧ (s.mode = .ship → t.mode = .ship)) := by decide +kernel

theorem test_vbus_wake :
    let s : State := ({ live with mode := .ship } : State).setPrt .c1 { PortSt.init with roleIn := 2 }
    let t := after (.vbusWake .c1 4001) s
    ((s.mode = .ship ∨ s.mode = .dormant) ∧ s.part.variant.hasPort .c1 = true ∧ (s.pdp.get .c1).role = .none ∧ ((s.pdp.get .c1).roleIn = 2 ∨ (s.pdp.get .c1).roleIn = 3) ∧ 4000 < 4001) ∧
    (t.mode = .hold ∧ t.life.causes.getLsbD 3 = true) := by decide +kernel

theorem test_attempt_fails :
    let s : State := { live with mode := .hold, life := { live.life with attempts := 2 } }
    let t := after (.wakeAttemptFail 2001 0 12500) s
    (s.mode = .hold ∧ s.life.booted = false ∧ s.life.wakeFailed = false ∧ s.life.waiting = false ∧ (2000 < 2001 ∨ 1000 < 0)) ∧
    (if s.life.attempts < 3 then t.life.attempts = s.life.attempts + 1 ∧ t.life.waiting = true ∧ t.life.wakeFailed = false else t.life.wakeFailed = true ∧ t.life.defaults = true ∧ t.reg Reg.kprWakeFails = min 255 (s.reg Reg.kprWakeFails + 1)) := by decide +kernel

theorem test_attempt_fails_last :
    let s : State := { live with mode := .hold, life := { live.life with attempts := 3 } }
    let t := after (.wakeAttemptFail 2001 0 12500) s
    (s.mode = .hold ∧ s.life.booted = false ∧ s.life.wakeFailed = false ∧ s.life.waiting = false ∧ (2000 < 2001 ∨ 1000 < 0)) ∧
    (if s.life.attempts < 3 then t.life.attempts = s.life.attempts + 1 ∧ t.life.waiting = true ∧ t.life.wakeFailed = false else t.life.wakeFailed = true ∧ t.life.defaults = true ∧ t.reg Reg.kprWakeFails = min 255 (s.reg Reg.kprWakeFails + 1)) := by decide +kernel

theorem test_wake_retry :
    let s : State := { live with mode := .hold, life := { live.life with waiting := true } }
    let t := after (.wakeRetry 10) s
    (s.life.waiting = true ∧ 10 ≤ 10) ∧
    (t = { s with life := { s.life with waiting := false } }) := by decide +kernel

theorem test_wake_fail_retry :
    let s : State := { live with mode := .hold, life := { live.life with wakeFailed := true, attempts := 3 } }
    let t := after (.wakeFailRetry 60) s
    (s.mode = .hold ∧ s.life.wakeFailed = true ∧ 60 ≤ 60) ∧
    (t.mode = .hold ∧ t.life.wakeFailed = false ∧ t.life.attempts = 0 ∧ t.life.causes.getLsbD 5 = true) := by decide +kernel

theorem test_hold_timeout :
    (let s : State := { live with mode := .hold, chg := { live.chg with st := .cc } }
    let t := after (.holdTimeout 500 12500) s
    (s.mode = .hold ∧ s.life.defaults = false ∧ 500 ≤ 500) ∧
    (t.life.defaults = true ∧ t.pp.held.tgt = vsafeTarget s.straps.vsafe ∧ t.cnv.goal = vsafeTarget s.straps.vsafe ∧ t.chg.st = .idle ∧ t.pp.linear = false ∧ t.pp.batfet = .on)) ∧
    (let s : State := { live with mode := .hold, life := { live.life with booted := true } }
    let t := after (.holdTimeout 500 12000) s
    (s.mode = .hold ∧ s.life.defaults = false ∧ 500 ≤ 500 ∧ ¬ s.cutoffMv < 12000) ∧
    (t.life.defaults = true ∧ t.pp.batfet = .off)) := by decide +kernel

/-- R57: the levels of a ball, at their limits. -/
theorem test_adr_levels :
    adrRead (.agnd 1000) = some .l ∧ adrRead (.vdda 1000) = some .h ∧ adrRead (.opened 0) = some .m ∧ adrRead (.agnd 1001) = none
      ∧ adrRead (.vdda 1001) = none := by decide

theorem test_boot :
    let s : State := { live with mode := .hold }
    let t := after (.boot (.opened 0) (.vdda 0) (Eight.all 0) 14000 true) s
    (s.mode = .hold ∧ s.life.booted = false ∧ s.life.wakeFailed = false ∧ s.life.waiting = false ∧ adrRead (.opened 0) = some .m ∧ adrRead (.vdda 0) = some .h) ∧
    (t.mode = .hold ∧ t.life.booted = true ∧ t.straps.adr = 3 * levelOf .m + levelOf .h ∧ t.straps.chem = s.straps.chem) := by decide +kernel

theorem test_boot_done :
    let s : State := { live with mode := .hold, life := { live.life with booted := true, causes := 2 } }
    let t := after (.bootDone) s
    (s.mode = .hold ∧ s.life.booted = true) ∧
    (t.mode = .active ∧ t.life.armed = true ∧ t.fab.absent = [] ∧ t.reg Reg.kprWakeCause = s.life.causes.toNat) := by decide +kernel

theorem test_watchdog_warn :
    let s : State := { live with life := { live.life with armed := true } }
    let t := after (.watchdogWarn .s 40000) s
    (s.mode = .active ∧ s.life.armed = true ∧ s.wdgWarned .s = false ∧ s.wdgPeriod .s ≤ 40000) ∧
    (t.wdgWarned .s = true ∧ t.mode = .active ∧ postedB s t 32 0 = true) := by decide +kernel

theorem test_watchdog_warn_e :
    let s : State := { live with life := { live.life with armed := true } }
    let t := after (.watchdogWarn .e 40000) s
    (s.mode = .active ∧ s.life.armed = true ∧ s.wdgWarned .e = false ∧ s.wdgPeriod .e ≤ 40000) ∧
    (t.wdgWarned .e = true ∧ t.mode = .active ∧ postedB s t 33 0 = true) := by decide +kernel

theorem test_watchdog_service :
    let s : State := { live with life := { live.life with armed := true, sWarned := true } }
    let t := after (.watchdogService .s) s
    (s.mode = .active ∧ s.life.armed = true) ∧
    (t.wdgWarned .s = false ∧ t.fab = s.fab ∧ t.mode = .active) := by decide +kernel

theorem test_tbo_lost :
    (let s : State := { live with life := { live.life with armed := true, tboSilent := true } }
    let t := after (.tboLost 1000) s
    (s.mode = .active ∧ s.life.armed = true ∧ 1000 ≤ 1000) ∧
    (t.life.tboSilent = true ∧ postedB s t 33 0 = true)) ∧
    (let s : State := { live with life := { live.life with armed := true, tboSilent := true } }
    let t := after (.tboLost 999) s
    (s.mode = .active ∧ s.life.armed = true ∧ 999 < 1000) ∧
    (t = { s with life := { s.life with tboSilent := false } })) := by decide +kernel

theorem test_lfo_lost :
    let s : State := { live with mode := .ship }
    let t := after (.lfoLost 1000) s
    (s.mode ≠ .off ∧ s.life.lfoBackup = false ∧ 1000 ≤ 1000) ∧
    (t.life.lfoBackup = true ∧ postedB s t 34 0 = true) := by decide +kernel

theorem test_lfo_restored :
    let s : State := { live with life := { live.life with lfoBackup := true } }
    let t := after (.lfoRestored 64) s
    (64 ≤ 64) ∧
    (t = { s with life := { s.life with lfoBackup := false } }) := by decide +kernel

theorem test_rtc_set :
    let s : State := live
    let t := after (.rtcSet 0xFFFFFFFF) s
    (s.mode = .active) ∧
    (t.rtc = 0xFFFFFFFF ∧ t.flag Reg.kprStat 1 = true) := by decide +kernel

/-! 04, Inputs and power path. -/

theorem test_poe_class :
    (let s : State := live
    let t := after (.poeClassEvent (some 147)) s
    (s.pp.poe.hsg = .off) ∧
    (t.pp.poe.events = min 5 (s.pp.poe.events + 1) ∧ t.pp.poe.requested = ((some 147).bind clsOf).getD 1 ∧ t.pp.poe.sig = classSignature (((some 147).bind clsOf).getD 1) (min 5 (s.pp.poe.events + 1)) ∧ t.pp.poe.assigned = assignedClass (min 5 (s.pp.poe.events + 1)) (((some 147).bind clsOf).getD 1) ∧ t.pp.poe.clsBad = ((some 147).bind clsOf).isNone)) ∧
    (let s : State := { live with pp := { live.pp with poe := { Poe.init with hsg := .rising } } }
    (s.pp.poe.hsg ≠ .off) ∧ after (.poeClassEvent (some 147)) s = s) := by decide +kernel

theorem test_poe_class_bad :
    let s : State := live
    let t := after (.poeClassEvent none) s
    (s.pp.poe.hsg = .off) ∧
    (t.pp.poe.events = 1 ∧ t.pp.poe.sig = 1 ∧ t.pp.poe.requested = 1 ∧ t.pp.poe.clsBad = true) := by decide +kernel

theorem test_hot_swap_on :
    let s : State := { live with pp := { live.pp with poe := { Poe.init with events := 1 } } }
    let t := after (.hotSwapOn 36001) s
    (36000 < 36001 ∧ s.pp.poe.hsg = .off ∧ s.pp.poe.hsFault = false ∧ s.pp.poe.events ≠ 0) ∧
    (t = { s with pp := { s.pp with poe := { s.pp.poe with hsg := .rising } } }) := by decide +kernel

theorem test_hot_swap_off :
    let s : State := { live with pp := { live.pp with poe := { Poe.init with hsg := .on, pg := true } } }
    let t := after (.hotSwapOff 29999) s
    (29999 < 30000) ∧
    (t.pp.poe.hsg = .off ∧ t.pp.poe.pg = false ∧ t.pp.poe.hsFault = false ∧ t.pp.poe.events = 0 ∧ sameFab (if s.pp.poe.pg then s.postFab 96 0 else s.fab) t.fab = true) := by decide +kernel

theorem test_hot_swap_pg :
    let s : State := { live with pp := { live.pp with poe := { Poe.init with hsg := .rising } } }
    let t := after (.hotSwapPg 39 true) s
    ((s.pp.poe.hsg = .on ∨ (s.pp.poe.hsg = .rising ∧ true = true)) ∧ s.pp.poe.pg = false ∧ 39 < (s.fld Reg.poeCfg 0 3 + 1) * 40) ∧
    (t.pp.poe.pg = true ∧ t.pp.poe.hsg = .on ∧ postedB s t 96 0 = true) ∧
    (s.pp.poe.hsg ≠ .on ∧ after (.hotSwapPg 39 false) s = s) := by decide +kernel

theorem test_hot_swap_fault :
    let s : State := { live with pp := { live.pp with poe := { Poe.init with hsg := .on, pg := true } } }
    let t := after (.hotSwapFault 2201 1000) s
    (s.pp.poe.pg = true ∧ 2200 < 2201 ∧ 1000 ≤ 1000) ∧
    (t.pp.poe.hsFault = true ∧ t.pp.poe.hsg = .off ∧ t.pp.poe.pg = false ∧ sameFab (s.posts [96, 100]).fab t.fab = true) := by decide +kernel

theorem test_poe_valid :
    let s : State := { live with pp := { live.pp with poe := { Poe.init with hsg := .on, pg := true } } }
    let t := after (.poeValid 48000 80 50000) s
    (s.mode = .active ∧ s.eligible .poe = true ∧ s.isValid .poe = false ∧ s.pp.poe.pg = true ∧ 80 ≤ 80 ∧ s.qualifies .poe 48000 50000 = true) ∧
    (t.isValid .poe = true ∧ t.pp.poe.ready = true ∧ t.mode = .active) := by decide +kernel

theorem test_poe_limit :
    let s : State := live
    let t := after (.poeLimitUpdate 48000) s
    (s.mode = .active) ∧
    (t.pp.poe.lim = s.poeLimit 48000 ∧ t.regs = s.regs) := by decide +kernel

theorem test_poe_dll :
    let s : State := live
    let t := after (.poeDllAlloc 0x00F0 48000) s
    (s.mode = .active) ∧
    (t.reg Reg.poeDllAlloc = storeFields (fieldsOf Reg.poeDllAlloc) (s.reg Reg.poeDllAlloc) 0xF0 % 65536 ∧ t.pp.poe.lim = t.poeLimit 48000) := by decide +kernel

theorem test_mps_pulse :
    let s : State := ({ live with pp := { live.pp with poe := { Poe.init with pg := true } } } : State).setFlag Reg.poeCfg 4 true
    let t := after (.mpsPulse 19 200) s
    (s.pp.poe.pg = true ∧ s.flag Reg.poeCfg 4 = true ∧ 19 < 20 ∧ (if s.pp.poe.mps then 250 else 200) ≤ 200) ∧
    (t.pp.poe.mps = true ∧ t.pp.poe.pulse = true ∧ t.fab.pend.map (·.num) = (if s.pp.poe.mps then s.fab else s.postFab 99 0).pend.map (·.num)) := by decide +kernel

theorem test_mps_end :
    let s : State := { live with pp := { live.pp with poe := { Poe.init with pulse := true } } }
    let t := after (.mpsPulseEnd 8) s
    (8 ≤ 8) ∧
    (t = { s with pp := { s.pp with poe := { s.pp.poe with pulse := false } } }) := by decide +kernel

theorem test_input_qualified :
    (let s : State := live
    let t := after (.inputQualified .aux 24000 50000) s
    (s.mode = .active ∧ s.eligible .aux = true ∧ s.isValid .aux = false ∧ s.qualifies .aux 24000 50000 = true ∧ (InputId.aux ≠ .poe ∨ (s.pp.poe.pg = true ∧ s.pp.poe.ready = true))) ∧
    (t.isValid .aux = true ∧ t.mode = .active)) ∧
    (let s : State := { live with pp := { live.pp with poe := { Poe.init with hsg := .on, pg := true, ready := true } } }
    let t := after (.inputQualified .poe 48000 50000) s
    (s.mode = .active ∧ s.eligible .poe = true ∧ s.isValid .poe = false ∧ s.qualifies .poe 48000 50000 = true ∧ (InputId.poe ≠ .poe ∨ (s.pp.poe.pg = true ∧ s.pp.poe.ready = true))) ∧
    (t.isValid .poe = true ∧ t.mode = .active)) := by decide +kernel

theorem test_input_invalid :
    let s : State := { live with pp := { live.pp with valid := ⟨true, true, false, false⟩, conn := some .poe } }
    let t := after (.inputInvalid .aux 16999) s
    (s.mode = .active ∧ s.isValid .aux = true ∧ s.pp.conn ≠ some .aux ∧ 16999 < s.floorMv .aux) ∧
    (t.isValid .aux = false ∧ t.pp.conn = s.pp.conn ∧ postedB s t (72 + InputId.aux.ix.val) 0 = true) := by decide +kernel

theorem test_input_ov :
    let s : State := { live with pp := { live.pp with valid := ⟨false, true, false, false⟩, conn := some .aux } }
    let t := after (.inputOvervoltage .aux 58500) s
    (s.mode ≠ .off ∧ ovThreshold .aux ≤ 58500) ∧
    (t.isValid .aux = false ∧ t.pp.ov.get InputId.aux.ix = true) := by decide +kernel

theorem test_takeover :
    (let s : State := { live with pp := { live.pp with valid := ⟨true, true, false, false⟩, conn := some .aux } }
    let t := after (.takeover (.low 15299)) s
    (s.mode = .active ∧ s.pp.conn = some .aux ∧ s.isValid .aux = true ∧ s.pp.isolated = false ∧ 10 * 15299 < 9 * s.floorMv .aux ∧ (s.cnv.rev = false ∨ s.cnv.deadBus = false)) ∧
    (t.isValid .aux = false ∧ t.pp.conn = some .poe ∧ t.cnv.rev = false ∧ t.reg Reg.pthTakeovers = min 255 (s.reg Reg.pthTakeovers + 1) ∧ s.isValid .poe = true ∧ s.eligible .poe = true)) ∧
    (let s : State := { live with pp := { live.pp with valid := ⟨false, true, false, false⟩, conn := some .aux } }
    let t := after (.takeover (.reverse (-1501))) s
    (s.mode = .active ∧ s.pp.conn = some .aux ∧ s.isValid .aux = true ∧ s.cnv.rev = false ∧ s.pp.isolated = false) ∧
    (t.isValid .aux = false ∧ t.pp.conn = none ∧ t.reg Reg.pthTakeovers = min 255 (s.reg Reg.pthTakeovers + 1))) ∧
    (let s : State := { live with pp := { live.pp with valid := ⟨false, true, false, false⟩, conn := some .aux }, cnv := { live.cnv with rev := true } }
    let t := after (.takeover (.over 58500)) s
    (s.mode = .active ∧ s.pp.conn = some .aux ∧ s.isValid .aux = true ∧ s.pp.isolated = false ∧ ovThreshold .aux ≤ 58500) ∧
    (t.isValid .aux = false ∧ t.pp.conn = none ∧ t.cnv.rev = false ∧ t.reg Reg.pthTakeovers = min 255 (s.reg Reg.pthTakeovers + 1))) := by decide +kernel

theorem test_return_delay :
    let s : State := { live with pp := { live.pp with valid := ⟨true, true, false, false⟩, conn := some .aux } }
    let t := after (.returnDelay .poe 60000) s
    (s.pp.conn = some .aux ∧ s.mode = .active ∧ s.isValid .poe = true ∧ s.eligible .poe = true ∧ s.rankKey .poe < s.rankKey .aux ∧ s.reg Reg.pthReturn * 10 ≤ 60000 ∧ s.cnv.rev = false ∧ s.pp.isolated = false) ∧
    (t.pp.conn = some .poe) := by decide +kernel

theorem test_pth_en :
    let s : State := live
    let t := after (.pthEn 0x0002) s
    (s.mode = .active) ∧
    (t.reg Reg.pthEn = clearBits (storeFields (fieldsOf Reg.pthEn) (s.reg Reg.pthEn) 2) (absentBits s.part.variant Reg.pthEn) % 65536) := by decide +kernel

theorem test_input_current_limit :
    let s : State := { live with pp := { live.pp with valid := ⟨false, true, false, false⟩, conn := some .aux }, chg := { live.chg with st := .cc } }
    let t := after (.inputCurrentLimit 2000 24000 500) s
    (s.pp.conn = some .aux) ∧
    (t.pp.ilim = decide (lowInputLimit 24000 (s.inputLimit .aux) * 10 ≤ 2000) ∧ t.chg.limited = (s.chgFlows && (t.pp.ilim || s.pp.vfloor || s.plinHolds))) := by decide +kernel

/-- R161: below 9 V the limit is 3.2 A. -/
theorem test_input_limit_low :
    let s : State := ({ live with pp := { live.pp with valid := ⟨false, true, false, false⟩, conn := some .aux } } : State).setReg (Reg.pthIlimPoe + 1) 900
    s.inputLimit .aux = 900 ∧ lowInputLimit 8999 900 = 320 ∧ lowInputLimit 9000 900 = 900 ∧
    (let t := after (.inputCurrentLimit 3200 8999 0) s
     s.chg.safetyCounts = false ∧ t.pp.ilim = true ∧ postedB s t 67 0 = true) ∧
    (after (.inputCurrentLimit 3200 9000 0) s).pp.ilim = false := by decide +kernel

theorem test_input_regulation :
    let s : State := { live with pp := { live.pp with valid := ⟨false, true, false, false⟩, conn := some .aux } }
    let t := after (.inputVoltageRegulation 17000 0) s
    (s.pp.conn = some .aux ∧ s.chg.safetyCounts = false) ∧
    (t.pp.vfloor = decide (17000 ≤ s.floorMv .aux) ∧ t.chg.limited = (s.chgFlows && (s.pp.ilim || t.pp.vfloor || s.plinHolds)) ∧ sameFab (if 17000 ≤ s.floorMv .aux ∧ s.pp.vfloor = false then s.postFab 68 0 else s.fab) t.fab = true) := by decide +kernel

theorem test_supplement :
    let s : State := live
    let t := after (.batterySupplement 14000 14030) s
    (s.mode ≠ .off ∧ s.mode ≠ .ship ∧ (s.seeVbat 14030).batteryCan = true ∧ 14000 + 30 ≤ 14030) ∧
    (t.pp.supplement = true ∧ t.pp.batfet = .on ∧ sameFab (if s.pp.supplement then s.fab else s.postFab 69 0) t.fab = true) := by decide +kernel

theorem test_supplement_ends :
    let s : State := { fed with pp := { fed.pp with supplement := true, batfet := .on } }
    let t := after (.batterySupplement 14001 14000) s
    (s.mode ≠ .off ∧ s.mode ≠ .ship ∧ 14000 < 14001 ∧ s.pp.conn ≠ none ∧ s.cnv.rev = false ∧ s.chg.st.charging = false ∧ (s.mode ≠ .hold ∨ s.life.defaults = false)) ∧
    (t.pp.supplement = false ∧ t.pp.vbat = 14000 ∧ t.pp.batfet = .off) := by decide +kernel

theorem test_vsys_low :
    let s : State := live
    let t := after (.vsysLow 8000 1000) s
    (s.mode ≠ .off ∧ s.mode ≠ .ship ∧ 8000 < s.setpoints.vsysMin * 19 ∧ 1000 ≤ 1000 ∧ s.chgFlows = false) ∧
    (t.pp.vsysLow = true ∧ sameFab (if s.pp.vsysLow then s.fab else s.postFab 70 0) t.fab = true) := by decide +kernel

theorem test_vsys_not_low :
    let s : State := { live with pp := { live.pp with vsysLow := true } }
    let t := after (.vsysLow 30000 0) s
    (s.mode ≠ .off ∧ s.mode ≠ .ship ∧ s.setpoints.vsysMin * 19 ≤ 30000) ∧
    (t.pp.vsysLow = false ∧ t.regs = s.regs) := by decide +kernel

theorem test_strapped_cutoff :
    let s : State := { live with pp := { live.pp with batfet := .on } }
    let t := after (.strappedCutoff 12000) s
    (s.straps.chem ≠ 0 ∧ s.mode ≠ .off ∧ s.mode ≠ .ship ∧ 12000 ≤ s.cutoffMv ∧ s.chg.st.charging = false ∧ s.pp.inelig = false) ∧
    (t.pp.cutoff = true ∧ t.pp.supplement = false ∧ t.pp.batfet = .off ∧ sameFab (if s.pp.cutoff then s.fab else s.postFab 80 0) t.fab = true) := by decide +kernel

theorem test_cutoff_clears :
    let s : State := { live with pp := { live.pp with cutoff := true } }
    let t := after (.strappedCutoff 12001) s
    (s.straps.chem ≠ 0 ∧ s.mode ≠ .off ∧ s.mode ≠ .ship ∧ s.cutoffMv < 12001 ∧ s.pp.conn = none ∧ s.packPresent = true ∧ s.pp.inelig = false) ∧
    (t.pp.cutoff = false ∧ t.pp.vbat = 12001 ∧ t.pp.batfet = .on) := by decide +kernel

/-- R149 to R151: the FET follows VBAT against VSYS_MIN less VHEAD, and a VSYS below 98 % of its floor. -/
theorem test_fet_linear :
    let s : State := { fed with chg := { fed.chg with st := .precharge } }
    ((s.seeVbat (s.linearBelow - 1)).fetLinear = true ∧ (s.seeVbat s.linearBelow).fetLinear = false)
      ∧ ({ s.seeVbat 30000 with pp := { (s.seeVbat 30000).pp with sag := true } } : State).fetLinear = true := by decide +kernel

theorem test_gate_fault :
    let s : State := live
    let t := after (.gateFault .aux 6) s
    (s.mode ≠ .off ∧ 5 < 6 ∧ s.emg.run = none) ∧
    (postedB s t 81 0 = true) := by decide +kernel

/-! 05, Converters. -/

theorem test_vsys_ov :
    let s : State := fed
    let t := after (.vsysOv 34001) s
    (s.analogOn = true ∧ s.cnv.ov = false ∧ (s.cnv.tgt * 22 < 34001 ∨ 34000 < 34001)) ∧
    (t.cnv.ov = true ∧ postedB s t 181 0 = true ∧ ∀ p, (t.cnv.phases.get p).iv = .off) := by decide +kernel

theorem test_vsys_ov_target :
    let s : State := fed
    let t := after (.vsysOv 13201) s
    (s.analogOn = true ∧ s.cnv.ov = false ∧ (s.cnv.tgt * 22 < 13201 ∨ 34000 < 13201)) ∧
    (t.cnv.ov = true ∧ postedB s t 181 0 = true) := by decide +kernel

theorem test_vsys_ov_resume :
    let s : State := { fed with cnv := { fed.cnv with ov := true } }
    let t := after (.vsysOvResume 12599) s
    (s.analogOn = true ∧ s.cnv.ov = true ∧ 12599 < s.cnv.tgt * 21) ∧
    (t = { s with cnv := { s.cnv with ov := false, phases := spaced s.cnv.phases } }) := by decide +kernel

theorem test_cinch_main :
    (let s : State := fed
    let t := after (.cinchTrip (.main 0) 100000 0) s
    (s.mode = .active ∧ s.cinchUv (.main 0) ≤ 100000 ∧ (s.cnv.phases.get 0).st = .run) ∧
    ((t.cnv.phases.get 0).iv = .cinched ∧ t.reg (Reg.cnvPCinchCnt 0) = min 65535 (s.reg (Reg.cnvPCinchCnt 0) + 1) ∧ ∀ q, (s.cnv.phases.get q).healthy = true → (t.cnv.phases.get q).st = .run)) ∧
    (let s : State := { fed with cnv := { fed.cnv with phases := ⟨{ runs with cinch := true }, runs, runs, runs⟩ } }
    sameFab s.fab (after (.cinchTrip (.main 0) 100000 999) s).fab = true ∧ postedB s (after (.cinchTrip (.main 0) 100000 1000) s) 133 0 = true) := by decide +kernel

theorem test_cinch_port :
    let s : State := sourcing
    let t := after (.cinchTrip (.x .c1) 100000 0) s
    (s.mode = .active ∧ s.cinchUv (.x .c1) ≤ 100000 ∧ (s.cnv.x.get .c1).run = true) ∧
    (t.reg (Reg.cnvXCinchCnt Port.c1.ix) = min 65535 (s.reg (Reg.cnvXCinchCnt Port.c1.ix) + 1) ∧ (t.cnv.x.get .c1).run = true) := by decide +kernel

theorem test_runaway_main :
    let s : State := fed
    let t := after (.cinchRunaway (.main 3) 125000 2) s
    (s.analogOn = true ∧ 125 * s.cinchUv (.main 3) ≤ 100 * 125000 ∧ 2 ≤ 2 ∧ (s.cnv.phases.get 3).st ≠ .isolated) ∧
    ((t.cnv.phases.get 3).st = .isolated ∧ (t.cnv.phases.get 3).runaway = true) := by decide +kernel

theorem test_runaway_port :
    let s : State := sourcing
    let t := after (.cinchRunaway (.x .c1) 125000 2) s
    (s.analogOn = true ∧ s.part.variant.hasPort .c1 = true ∧ (s.cnv.x.get .c1).stopped = false ∧ 125 * s.cinchUv (.x .c1) ≤ 100 * 125000 ∧ 2 ≤ 2) ∧
    ((t.cnv.x.get .c1).stopped = true ∧ (t.cnv.x.get .c1).runaway = true) := by decide +kernel

theorem test_phase_add :
    let s : State := ({ fed with cnv := { fed.cnv with phases := ⟨runs, { runs with st := .shed }, { runs with st := .shed }, { runs with st := .shed }⟩ } } : State).setFlag Reg.cnvCtl 2 true
    let t := after (.phaseAdd 12001 3300) s
    (s.analogOn = true ∧ s.flag Reg.cnvCtl 2 = true ∧ 1 ≤ s.cnv.runCount ∧ s.cnv.runCount < s.cnv.healthyCount ∧ s.reg (Reg.cnvShedAdd1 + (s.cnv.runCount - 1)) * 100 < 12001 ∧ s.reg Reg.cnvShedDwell * 50 ≤ 3300) ∧
    (t.cnv.runCount = s.cnv.runCount + 1 ∧ t.cnv.healthyCount = s.cnv.healthyCount ∧ (t.cnv.phases.get 0).angle = 0 ∧ (t.cnv.phases.get 1).angle = 180) := by decide +kernel

theorem test_phase_drop :
    let s : State := ({ fed with cnv := { fed.cnv with phases := ⟨runs, runs, { runs with st := .isolated, sense := true }, { runs with st := .shed }⟩ } } : State).setFlag Reg.cnvCtl 2 true
    let t := after (.phaseDrop 0 3300) s
    (s.cnv.lastRun = some 1 ∧ s.analogOn = true ∧ s.flag Reg.cnvCtl 2 = true ∧ 2 ≤ s.cnv.runCount ∧ 0 < s.reg (Reg.cnvShedDrop2 + (s.cnv.runCount - 2)) * 100 ∧ s.reg Reg.cnvShedDwell * 50 ≤ 3300) ∧
    ((t.cnv.phases.get 1).st = .shed ∧ t.cnv.runCount + 1 = s.cnv.runCount) := by decide +kernel

theorem test_sense_lost :
    let s : State := fed
    let t := after (.senseLost 0 (-150001) 3) s
    (s.analogOn = true ∧ (150000 < (-150001 : Int) ∨ (-150001 : Int) < -150000) ∧ 3 ≤ 3 ∧ (s.cnv.phases.get 0).st ≠ .isolated) ∧
    ((t.cnv.phases.get 0).st = .isolated ∧ (t.cnv.phases.get 0).sense = true) := by decide +kernel

theorem test_over_temp :
    let s : State := fed
    let t := after (.driverOverTemp 2 1350) s
    (s.analogOn = true ∧ (1350 : Int) ≤ 1350 ∧ (s.cnv.phases.get 2).st ≠ .isolated) ∧
    ((t.cnv.phases.get 2).st = .isolated ∧ (t.cnv.phases.get 2).ot = true) := by decide +kernel

theorem test_remote_sense_lost :
    let s : State := fed
    let t := after (.remoteSenseLost 13201 12000 0 20) s
    (s.analogOn = true ∧ s.cnv.rsInt = false ∧ senseOut 13201 12000 0 = true ∧ 20 ≤ 20) ∧
    (t.cnv.rsInt = true ∧ t.cnv.rsOut = true ∧ postedB s t 178 0 = true) := by decide +kernel

theorem test_rs_retry :
    let s : State := { fed with cnv := { fed.cnv with rsInt := true } }
    let t := after (.rsRetry 13200 12000 300) s
    (s.mode = .active ∧ s.cnv.rsInt = true ∧ senseOut 13200 12000 300 = false) ∧
    (t.cnv.rsInt = false ∧ postedB s t 179 0 = true) := by decide +kernel

theorem test_cnv_clear :
    let s : State := { fed with cnv := { fed.cnv with phases := fed.cnv.phases.set 3 { runs with st := .isolated, sense := true, runaway := true, ot := true } } }
    let t := after (.cnvClear 8) s
    (s.mode = .active ∧ (8 : BitVec 4).getLsbD 3 = true ∧ (s.cnv.phases.get 3).st = .isolated) ∧
    ((t.cnv.phases.get 3).st ≠ .isolated ∧ (t.cnv.phases.get 3).sense = false ∧ (t.cnv.phases.get 3).runaway = false ∧ (t.cnv.phases.get 3).ot = false) := by decide +kernel

theorem test_reverse_start :
    let s : State := ({ fed with lnk := { fed.lnk with state := .member, grant := some (true, 10) }, pp := { fed.pp with vbat := 14000 }, cnv := { fed.cnv with revI := 120, phases := Four.all runs } } : State).setReg Reg.sysLimMisc 0x10F |>.setReg Reg.cnvRevImax 100
    let t := after (.reverseStart 18000) s
    (s.mayReverse = true ∧ s.lnk.grant = some (true, 10) ∧ s.cnv.rev = false ∧ s.batteryCan = true ∧ ((18000 ≤ 18000 ∧ 18000 ≤ 57000) ∨ 18000 < 2000)) ∧
    (t.cnv.rev = true ∧ t.pp.conn = some .aux ∧ t.pp.batfet = .on ∧ t.cnv.deadBus = decide (18000 < 2000) ∧ t.cnv.revOut = min s.cnv.revI (s.reg Reg.cnvRevImax) ∧ t.cnv.revCeil = decide (s.reg Reg.cnvRevVmax * 100 ≤ 18000)) := by decide +kernel

theorem test_reverse_start_dead :
    let s : State := ({ fed with lnk := { fed.lnk with state := .member, grant := some (true, 10) }, pp := { fed.pp with vbat := 14000 }, cnv := { fed.cnv with revI := 120, phases := Four.all runs } } : State).setReg Reg.sysLimMisc 0x10F |>.setReg Reg.cnvRevImax 100
    let t := after (.reverseStart 1999) s
    (s.mayReverse = true ∧ s.lnk.grant = some (true, 10) ∧ s.cnv.rev = false ∧ s.batteryCan = true ∧ ((18000 ≤ 1999 ∧ 1999 ≤ 57000) ∨ 1999 < 2000)) ∧
    (t.cnv.rev = true ∧ t.pp.conn = some .aux ∧ t.pp.batfet = .on ∧ t.cnv.deadBus = decide (1999 < 2000) ∧ t.cnv.revOut = min s.cnv.revI (s.reg Reg.cnvRevImax) ∧ t.cnv.revCeil = decide (s.reg Reg.cnvRevVmax * 100 ≤ 1999)) := by decide +kernel

theorem test_dead_bus :
    let s : State := { fed with cnv := { fed.cnv with rev := true, deadBus := true } }
    let t := after (.deadBusTimeout 17999 50) s
    (s.cnv.rev = true ∧ s.cnv.deadBus = true ∧ 17999 < 18000 ∧ 50 ≤ 50) ∧
    (t.cnv.rev = false) := by decide +kernel

theorem test_dead_bus_comes_up :
    let s : State := { fed with cnv := { fed.cnv with rev := true, deadBus := true } }
    let t := after (.deadBusTimeout 18000 3) s
    (s.cnv.rev = true ∧ s.cnv.deadBus = true ∧ 18000 ≤ 18000) ∧
    (t = { s with cnv := { s.cnv with deadBus := false, revCeil := decide (s.reg Reg.cnvRevVmax * 100 ≤ 18000) } }) := by decide +kernel

theorem test_reverse_stop :
    (let s : State := { fed with cnv := { fed.cnv with rev := true } }
    let t := after (.reverseStop .grantEnded) s
    (s.cnv.rev = true ∧ s.lnk.grant = none) ∧
    (t.cnv.rev = false ∧ t.cnv.deadBus = false)) ∧
    (let s : State := { fed with cnv := { fed.cnv with rev := true } }
    let t := after (.reverseStop (.condition 57001)) s
    (s.cnv.rev = true ∧ (s.mayReverse = false ∨ 57000 < 57001 ∨ (57001 < 18000 ∧ s.cnv.deadBus = false))) ∧
    (t.cnv.rev = false ∧ t.cnv.deadBus = false)) ∧
    (let s : State := { fed with cnv := { fed.cnv with rev := true } }
    let t := after (.reverseStop (.vsys 8999)) s
    (s.cnv.rev = true ∧ 8999 < s.setpoints.vsysMin * 20) ∧
    (t.cnv.rev = false ∧ t.cnv.deadBus = false)) ∧
    (let s : State := ({ fed with lnk := { fed.lnk with state := .member, grant := some (true, 10) }, cnv := { fed.cnv with rev := true, deadBus := true, phases := Four.all runs } } : State).setReg Reg.sysLimMisc 0x10F |>.setReg Reg.cnvRevImax 100
    let t := after (.reverseStop (.condition 18000)) s
    (s.cnv.rev = true ∧ s.mayReverse = true ∧ 18000 ≤ 18000 ∧ 18000 ≤ 57000) ∧
    (t.cnv.rev = true ∧ t.cnv.deadBus = false)) := by decide +kernel

theorem test_port_cnv_fail :
    let s : State := sourcing
    let t := after (.portCnvFail .c1 .overTemp) s
    (s.analogOn = true ∧ s.part.variant.hasPort .c1 = true ∧ (s.cnv.x.get .c1).stopped = false) ∧
    ((t.cnv.x.get .c1).stopped = true ∧ (t.cnv.x.get .c1).run = false) := by decide +kernel

theorem test_cnv_xn_clear :
    let s : State := { sourcing with cnv := { sourcing.cnv with x := ⟨{ XCell.init with stopped := true, ot := true }, XCell.init⟩ } }
    let t := after (.cnvXnClear .c1) s
    (s.mode = .active ∧ s.part.variant.hasPort .c1 = true ∧ (s.cnv.x.get .c1).stopped = true) ∧
    ((t.cnv.x.get .c1).stopped = false ∧ (t.cnv.x.get .c1).sense = false ∧ (t.cnv.x.get .c1).runaway = false ∧ (t.cnv.x.get .c1).ot = false) := by decide +kernel

theorem test_vbus_ovp :
    let s : State := sourcing
    let t := after (.vbusOvp .c1 5501) s
    (s.analogOn = true ∧ s.part.variant.hasPort .c1 = true ∧ (s.cnv.x.get .c1).run = true ∧ (s.cnv.x.get .c1).ovp = false ∧ 11 * (s.cnv.x.get .c1).vtgt < 10 * 5501) ∧
    ((t.cnv.x.get .c1).ovp = true ∧ (t.cnv.x.get .c1).run = true) := by decide +kernel

theorem test_vbus_ovp_resume :
    let s : State := { sourcing with cnv := { sourcing.cnv with x := ⟨{ sourcing.cnv.x.p1 with ovp := true }, XCell.init⟩ } }
    let t := after (.vbusOvpResume .c1 5249) s
    (s.analogOn = true ∧ (s.cnv.x.get .c1).ovp = true ∧ 100 * 5249 < 105 * (s.cnv.x.get .c1).vtgt) ∧
    ((t.cnv.x.get .c1).ovp = false ∧ t.fab = s.fab) := by decide +kernel

/-- R160, R164, R165, R175, R176, by hand from their sentences: 5 mV/us at SLOPE 0, the peak command of V_COMP 1.5 V is 100 mV. -/
theorem test_cycles :
    cycleMode 1150 1000 = .buck ∧ cycleMode 870 1000 = .boost ∧ cycleMode 1000 1000 = .fourSwitch ∧ slopeRamp 3 = 20
      ∧ cycleRun ⟨48000, 12000, 1500, [(1000, 94999)]⟩ true true 100 0 = .on
      ∧ cycleRun ⟨48000, 12000, 1500, [(1000, 95000), (2000, 1)]⟩ true true 100 0 = .sync
      ∧ cycleRun ⟨48000, 12000, 1500, [(1000, 95000), (2000, 0)]⟩ true true 100 0 = .idle
      ∧ cycleRun ⟨48000, 12000, 1500, [(1000, 95000), (2000, 0)]⟩ true false 100 0 = .sync
      ∧ cycleRun ⟨48000, 12000, 1499, []⟩ true true 100 0 = .skip ∧ cycleRun ⟨48000, 12000, 1499, []⟩ false true 100 0 = .on := by decide

/-- A cycle in diode emulation at zero current. -/
def idleCycle : Cycle := ⟨48000, 12000, 1500, [(1000, 95000), (2000, 0)]⟩

theorem test_cnv_output_limit :
    (let s : State := fed.setFlag Reg.cnvCtl 0 true
    let t := after (.cnvOutputLimit 12000 (.main (Four.all idleCycle))) s
    (s.analogOn = true ∧ s.mainStopped = false) ∧
    (t.cnv.phases = s.mainCycles (Four.all idleCycle) ∧ t.cnv.ilim = decide (s.ilimEff * 100 ≤ 12000) ∧ sameFab (if s.ilimEff * 100 ≤ 12000 ∧ s.cnv.ilim = false then s.postFab 180 0 else s.fab) t.fab = true
      ∧ (t.cnv.phases.get 0).mode = some .buck ∧ (t.cnv.phases.get 0).iv = .idle ∧ bit (t.peek 0 Reg.cnvStat) 7 = true)) ∧
    (let s : State := sourcing.setReg Reg.sysLimPort 30
    let t := after (.cnvOutputLimit 3000 (.x .c1 idleCycle)) s
    (s.analogOn = true ∧ s.cnv.vdrvLow = false ∧ s.part.variant.hasPort .c1 = true ∧ (s.cnv.x.get .c1).run = true ∧ (s.cnv.x.get .c1).ovp = false) ∧
    ((t.cnv.x.get .c1).ilim = decide (s.xLimit (s.cnv.x.get .c1).iset (s.cnv.x.get .c1).vtgt ≤ 3000) ∧ (t.cnv.x.get .c1).ilim = true ∧ (t.cnv.x.get .c1).run = true)) := by decide +kernel

/-- R181, R190 at the points where the manual names no rounding (log 83), and R161's and R202's limits. -/
theorem test_converter_limits :
    ({ fed with cnv := { fed.cnv with phases := ⟨runs, runs, runs, { runs with st := .isolated }⟩ } } : State).ilimEff = min (fed.reg Reg.cnvIlim * 3 / 4) 90
      ∧ (fed.setReg Reg.sysLimPort 100).xLimit 5000 20000 = 1250 ∧ (fed.setReg Reg.sysLimPort 400).xLimit 5000 20000 = 3000 := by decide +kernel

theorem test_chem_none :
    (let s : State := fed
    let t := after (.chgChem 0x0034) s
    (chemOk (bits 0x34 4 4) (if bits 0x34 4 4 == 0 then 0 else bits 0x34 0 4) = false) ∧
    (t = s)) ∧
    (let s : State := ({ fed with chg := { fed.chg with st := .emergency }, emg := { fed.emg with emergency := true } } : State).setFlag Reg.chgSoc 15 true
    let t := after (.chgChem 0x0000) s
    (s.mode = .active ∧ bits 0 4 4 = 0) ∧
    (t.chg.st = .idle ∧ t.reg Reg.chgChem = 0 ∧ t.flag Reg.chgSoc 15 = false ∧ t.reg Reg.chgReserveMin = 0)) := by decide +kernel

theorem test_chg_chem :
    let s : State := fed
    let t := after (.chgChem 0x0026) s
    (s.mode = .active ∧ chemOk (bits 0x26 4 4) (bits 0x26 0 4) = true ∧ bits 0x26 4 4 ≠ 0 ∧ s.pp.isolated = false ∧ s.emg.emergency = false) ∧
    (t.chg.st = .idle ∧ t.reg Reg.chgChem = bits 0x26 4 4 * 16 + bits 0x26 0 4 ∧ t.reg Reg.chgVchg = vchgDefault (bits 0x26 4 4) (bits 0x26 0 4) % 65536 ∧ t.reg Reg.chgVrecov = vrecovDefault (bits 0x26 4 4) % 65536) := by decide +kernel

/-! 06, Charging. -/

theorem test_charge_permission_change :
    (let s : State := { fed with pp := { fed.pp with conn := none }, chg := { fed.chg with st := .cc } }
    let t := after (.chargePermissionChange) s
    (s.mode = .active ∧ s.emg.emergency = false ∧ s.chgPermitted = false ∧ s.chg.st ≠ .isolated ∧ s.chg.st ≠ .emergency) ∧
    (t.chg.st = .idle ∧ t.regs = s.regs)) ∧
    (let s : State := fed
    let t := after (.chargePermissionChange) s
    (s.mode = .active ∧ s.emg.emergency = false ∧ s.chgPermitted = true ∧ s.chg.st = .idle) ∧
    (t.chg.st = (if s.reg Reg.chgFault = 0 then .qualify else .fault))) ∧
    (let s : State := { fed with emg := { fed.emg with emergency := true }, chg := { fed.chg with st := .cc } }
    let t := after (.chargePermissionChange) s
    (s.mode = .active ∧ s.chem ≠ 0 ∧ s.emg.emergency = true ∧ s.chg.st ≠ .isolated) ∧
    (t.chg.st = .emergency)) := by decide +kernel

theorem test_qualify_done :
    (let s : State := { fed with chg := { fed.chg with st := .qualify } }
    let t := after (.qualifyDone 12000 100) s
    (s.mode = .active ∧ readyB s = true ∧ s.chg.st = .qualify ∧ 100 ≤ 100) ∧
    (t.chg.st = (if 12000 < s.vRecov * 10 then .recover else if 12000 < s.vPre * 10 then .precharge else if 12000 < s.vRechg * 10 then .cc else .done))) ∧
    (let s : State := { fed with chg := { fed.chg with st := .qualify } }
    let t := after (.qualifyDone 11999 100) s
    (s.mode = .active ∧ readyB s = true ∧ s.chg.st = .qualify ∧ 100 ≤ 100) ∧
    (t.chg.st = (if 11999 < s.vRecov * 10 then .recover else if 11999 < s.vPre * 10 then .precharge else if 11999 < s.vRechg * 10 then .cc else .done))) ∧
    (let s : State := { fed with chg := { fed.chg with st := .qualify } }
    let t := after (.qualifyDone 17000 100) s
    (s.mode = .active ∧ readyB s = true ∧ s.chg.st = .qualify ∧ 100 ≤ 100) ∧
    (t.chg.st = (if 17000 < s.vRecov * 10 then .recover else if 17000 < s.vPre * 10 then .precharge else if 17000 < s.vRechg * 10 then .cc else .done))) := by decide +kernel

theorem test_recover_done :
    let s : State := { fed with chg := { fed.chg with st := .recover, tRecov := 7 } }
    let t := after (.recoverDone 10000 1000) s
    (s.mode = .active ∧ readyB s = true ∧ s.chg.st = .recover ∧ s.vRecov * 10 ≤ 10000 ∧ 1000 ≤ 1000) ∧
    (t.chg.st = .precharge ∧ t.chg.tRecov = 0) := by decide +kernel

theorem test_precharge_done :
    let s : State := { fed with chg := { fed.chg with st := .precharge, tPre := 7 } }
    let t := after (.prechargeDone 12000 1000) s
    (s.mode = .active ∧ readyB s = true ∧ s.chg.st = .precharge ∧ s.vPre * 10 ≤ 12000 ∧ 1000 ≤ 1000) ∧
    (t.chg.st = .cc ∧ t.chg.tPre = 0) := by decide +kernel

theorem test_cv_entry :
    let s : State := { fed with chg := { fed.chg with st := .cc } }
    let t := after (.cvEntry 16800) s
    (s.mode = .active ∧ readyB s = true ∧ s.chg.st = .cc ∧ s.vchgEff * 10 ≤ 16800) ∧
    (t.chg.st = .cv) := by decide +kernel

theorem test_termination :
    let s : State := { fed with chg := { fed.chg with st := .cv, capL := 5000 } }
    let t := after (.termination 16800 1 60) s
    (s.mode = .active ∧ readyB s = true ∧ s.terminates 16800 1 60 = true) ∧
    (t.chg.st = (if s.chg.st = .cv ∧ s.floats = true then .maintain else .done) ∧ t.chg.tSafe = (if s.chg.st = .cv ∧ s.floats = true then s.chg.tSafe else 0) ∧ (s.chg.zone = .normal → t.emg.full = true ∧ t.reg Reg.chgQrem = s.chg.capL % 65536)) := by decide +kernel

theorem test_recharge :
    let s : State := { fed with chg := { fed.chg with st := .done } }
    let t := after (.recharge 15000 1000) s
    (s.mode = .active ∧ readyB s = true ∧ s.chg.st = .done ∧ 15000 < s.vRechg * 10 ∧ 1000 ≤ 1000) ∧
    (t.chg.st = .maintain) := by decide +kernel

theorem test_requalify :
    let s : State := { fed with chg := { fed.chg with st := .maintain } }
    let t := after (.requalify 11999) s
    (s.mode = .active ∧ readyB s = true ∧ (s.chg.st = .done ∨ s.chg.st = .maintain) ∧ 11999 < s.vPre * 10) ∧
    (t.chg.st = .qualify) := by decide +kernel

theorem test_chg_ov :
    let s : State := { fed with chg := { fed.chg with st := .cc } }
    let t := after (.chgOvervoltage 17201 10) s
    (s.mode = .active ∧ s.emg.emergency = false ∧ s.chgPermitted = true ∧ s.chg.st.inRun = true ∧ s.reg Reg.chgVchg * 10 + s.cells * 100 < 17201 ∧ 10 ≤ 10) ∧
    (t.chg.st = .fault ∧ t.reg Reg.chgFault = 4) := by decide +kernel

theorem test_recovery_timeout :
    let s : State := { fed with chg := { fed.chg with tRecov := fed.reg Reg.chgTrecov * 120, st := .recover } }
    let t := after (.recoveryTimeout) s
    (s.mode = .active ∧ readyB s = true ∧ s.chg.st = .recover ∧ s.reg Reg.chgTrecov * 120 ≤ s.chg.tRecov) ∧
    (t.chg.st = .fault ∧ t.reg Reg.chgFault = 2) := by decide +kernel

theorem test_precharge_timeout :
    let s : State := { fed with chg := { fed.chg with tPre := fed.reg Reg.chgTpre * 120, st := .precharge } }
    let t := after (.prechargeTimeout) s
    (s.mode = .active ∧ readyB s = true ∧ (s.chg.st = .recover ∨ s.chg.st = .precharge) ∧ s.reg Reg.chgTpre * 120 ≤ s.chg.tPre) ∧
    (t.chg.st = .fault ∧ t.reg Reg.chgFault = 1) := by decide +kernel

theorem test_safety_timeout :
    let s : State := { fed with chg := { fed.chg with tSafe := fed.reg Reg.chgTsafe * 3600, st := .cc } }
    let t := after (.safetyTimeout) s
    (s.mode = .active ∧ readyB s = true ∧ s.chg.safetyCounts = true ∧ s.reg Reg.chgTsafe * 3600 ≤ s.chg.tSafe) ∧
    (t.chg.st = .fault ∧ t.reg Reg.chgFault = 3) := by decide +kernel

theorem test_chg_clear :
    let s : State := ({ fed with chg := { fed.chg with st := .fault, tSafe := 9 } } : State).setReg Reg.chgFault 3
    let t := after (.chgClear) s
    (s.mode = .active ∧ s.emg.emergency = false ∧ s.chgPermitted = true ∧ s.chg.st = .fault) ∧
    (t.chg.st = .qualify ∧ t.reg Reg.chgFault = 0 ∧ t.chg.tRecov = 0 ∧ t.chg.tPre = 0 ∧ t.chg.tSafe = 0) := by decide +kernel

theorem test_pack_removed :
    let s : State := { fed with chg := { fed.chg with st := .cc } }
    let t := after (.packRemoved) s
    (s.mode = .active ∧ s.emg.emergency = false ∧ s.chg.st ≠ .isolated ∧ s.chg.st ≠ .emergency ∧ s.chg.absent = false) ∧
    (t.chg.absent = true ∧ t.chg.st = .idle) := by decide +kernel

theorem test_pack_inserted :
    let s : State := ({ fed with chg := { fed.chg with absent := true } } : State).setReg Reg.chgFault 3
    let t := after (.packInserted 250) s
    (s.mode = .active ∧ ntcValid 250 = true ∧ s.chg.absent = true) ∧
    (t.chg.absent = false ∧ t.reg Reg.chgFault = 0) := by decide +kernel

theorem test_ntc_measure :
    let s : State := fed
    let t := after (.ntcMeasure (some 460) none) s
    (s.mode = .active ∧ s.arb.adc.free (s.floors [0, 1]) s.adcNeed none = true) ∧
    (t.chg.zone = s.packZone (some 460) none ∧ t.chg.ntcFault = s.ntcFaulty (some 460) none ∧ t.signed Reg.chgTemp = signedOf (bitsOf 460 16) 16 ∧ t.emg.run.isSome = (s.emg.run.isSome && !(s.ntcFaulty (some 460) none || s.packZone (some 460) none == .cold || s.packZone (some 460) none == .hot))) := by decide +kernel

theorem test_dormant_ntc :
    let s : State := { fed with mode := .dormant, chg := { fed.chg with st := .cc } }
    let t := after (.dormantNtcSample (some 700) none) s
    (s.mode = .dormant ∧ s.chg.dormantStop = false ∧ s.crossed (some 700) = true) ∧
    (t.chg.dormantStop = s.chg.st.inRun ∧ postedB s t 196 0 = true) := by decide +kernel

theorem test_gauge :
    let s : State := { fed with chg := { fed.chg with capL := 5000 } }
    let t := after (.gaugeUpdate (-1050) 14000 (-2000) 2000) s
    (s.mode = .active) ∧
    (t.reg Reg.chgVbat = min 4095 (14000 / 10) ∧ t.reg32 Reg.chgQacc = bitsOf (s.qacc + (-1050)) 32 ∧ t.reg Reg.chgIbat = bitsOf (-2000) 16 ∧ t.reg Reg.chgQrem ≤ s.chg.capL) := by decide +kernel

/-! 07, Emergency and tests. -/

theorem test_emergency_declared :
    let s : State := { fed with pp := { fed.pp with valid := Four.all false, conn := none }, chg := { fed.chg with st := .cc } }
    let t := after (.emergencyDeclared 20) s
    (s.mode = .active ∧ s.emg.emergency = false ∧ s.anyValid = false ∧ 20 ≤ 20) ∧
    (t.emg.emergency = true ∧ t.emg.cutoff = false ∧ t.emg.emgSecs = 0 ∧ t.emg.run = none ∧ t.emg.outcome = (if s.emg.run = none then s.emg.outcome else 6) ∧ (s.emg.run = none → s.chem ≠ 0 → s.chg.st ≠ .isolated → t.chg.st = .emergency)) := by decide +kernel

theorem test_emergency_in_test :
    let s : State := { running with pp := { running.pp with valid := Four.all false } }
    let t := after (.emergencyDeclared 20) s
    (s.mode = .active ∧ s.emg.emergency = false ∧ s.anyValid = false ∧ 20 ≤ 20) ∧
    (t.emg.emergency = true ∧ t.emg.cutoff = false ∧ t.emg.emgSecs = 0 ∧ t.emg.run = none ∧ t.emg.outcome = (if s.emg.run = none then s.emg.outcome else 6) ∧ (s.emg.run = none → s.chem ≠ 0 → s.chg.st ≠ .isolated → t.chg.st = .emergency)) := by decide +kernel

theorem test_emergency_ended :
    let s : State := { fed with emg := { fed.emg with emergency := true, emgSecs := 40 } }
    let t := after (.emergencyEnded 1000) s
    (s.mode = .active ∧ s.emg.emergency = true ∧ s.pp.conn ≠ none ∧ 1000 ≤ 1000) ∧
    (t.emg.emergency = false ∧ t.emg.cutoff = false ∧ t.emg.emgSecs = 0 ∧ t.pp = s.pp) := by decide +kernel

theorem test_emg_warn :
    let s : State := fed
    let t := after (.emgWarn 12000 1000) s
    (s.mode = .active ∧ s.chem ≠ 0 ∧ s.emg.warn = false ∧ 12000 ≤ s.packMv (s.reg Reg.emgWarn) ∧ 1000 ≤ 1000) ∧
    (t.emg.warn = true ∧ t.emg.run = none ∧ t.reg Reg.chgQrem = 0 ∧ t.emg.outcome = (if s.emg.run = none then s.emg.outcome else 2)) := by decide +kernel

theorem test_emg_warn_test :
    let s : State := running
    let t := after (.emgWarn 12000 1000) s
    (s.mode = .active ∧ s.chem ≠ 0 ∧ s.emg.warn = false ∧ 12000 ≤ s.packMv (s.reg Reg.emgWarn) ∧ 1000 ≤ 1000) ∧
    (t.emg.warn = true ∧ t.emg.run = none ∧ t.reg Reg.chgQrem = 0 ∧ t.emg.outcome = (if s.emg.run = none then s.emg.outcome else 2)) := by decide +kernel

theorem test_emg_warn_clear :
    let s : State := { fed with emg := { fed.emg with warn := true } }
    let t := after (.emgWarnClear 16000) s
    (s.mode = .active ∧ s.emg.warn = true ∧ s.packMv (s.reg Reg.emgWarn + 10) < 16000) ∧
    (t = { s with emg := { s.emg with warn := false } }) := by decide +kernel

theorem test_emg_cutoff_outside :
    let s : State := fed
    let t := after (.emgCutoff 11000 10) s
    (s.mode = .active ∧ s.chem ≠ 0 ∧ 11000 ≤ s.packMv (s.reg Reg.emgCutoff) ∧ 10 ≤ 10 ∧ s.emg.emergency = false) ∧
    (postedB s t 227 0 = true) := by decide +kernel

theorem test_emg_cutoff :
    let s : State := { railsOn with emg := { railsOn.emg with emergency := true } }
    let t := after (.emgCutoff 11000 10) s
    (s.mode = .active ∧ s.chem ≠ 0 ∧ 11000 ≤ s.packMv (s.reg Reg.emgCutoff) ∧ 10 ≤ 10 ∧ s.emg.emergency = true ∧ s.emg.cutoff = false ∧ s.comingDown = false ∧ highest s.seq.en = some 1 ∧ s.seq.disch.get 1 = false) ∧
    (t.emg.cutoff = true ∧ t.seq.state = .down ∧ t.seq.cause = 3 ∧ t.seq.dir = 2 ∧ t.seq.en = s.seq.en.set 1 false) := by decide +kernel

theorem test_test_due :
    (let s : State := { scheduled with mode := .dormant }
    let t := after (.testDue) s
    (s.dueKind = some .function ∧ s.mode = .dormant) ∧
    (t.mode = .hold ∧ t.life.causes.getLsbD 5 = true)) ∧
    (let s : State := scheduled
    let t := after (.testDue) s
    (s.dueKind = some .function ∧ s.emg.deferred = false ∧ s.emg.due = none ∧ s.testReady .function = true ∧ s.rtc - s.nextOf .function < s.reg Reg.emgDeferMax * 3600) ∧
    (((match t.emg.due with | some d => decide (d.kind = .function ∧ d.origin = 0 ∧ d.tDue = s.nextOf .function ∧ d.start = (!s.part.variant.hasLink)) | none => decide (False)) = true) ∧ t.emg.waitSlot = s.part.variant.hasLink ∧ t.emg.deferred = false)) ∧
    (let s : State := { scheduled with emg := { scheduled.emg with emergency := true } }
    let t := after (.testDue) s
    (s.mode = .active ∧ s.dueKind = some .function ∧ s.emg.deferred = false ∧ s.emg.due = none ∧ s.emg.run = none ∧ s.testReady .function = false ∧ s.rtc - s.nextOf .function < s.reg Reg.emgDeferMax * 3600) ∧
    (t.emg.deferred = true ∧ t.emg.due = none ∧ t.emg.run = none)) := by decide +kernel

theorem test_test_retry :
    let s : State := { scheduled with emg := { scheduled.emg with deferred := true } }
    let t := after (.testRetry 1275) s
    (s.dueKind = some .function ∧ s.emg.deferred = true ∧ s.emg.due = none ∧ s.testReady .function = true ∧ s.reg Reg.emgRetry * 5 ≤ 1275 ∧ s.rtc - s.nextOf .function < s.reg Reg.emgDeferMax * 3600) ∧
    (((match t.emg.due with | some d => decide (d.kind = .function ∧ d.origin = 0 ∧ d.start = (!s.part.variant.hasLink)) | none => decide (False)) = true) ∧ t.emg.deferred = false) := by decide +kernel

theorem test_test_missed :
    let s : State := (scheduled.setReg32 Reg.kprRtc 100000000) |> fun s => { s with emg := { s.emg with deferred := true, fnDefer := true } }
    let t := after (.testMissed) s
    (s.dueKind = some .function ∧ s.mode = .active ∧ s.reg Reg.emgDeferMax * 3600 ≤ s.rtc - s.nextOf .function ∧ s.emg.due = none) ∧
    (t.emg.outcome = 8 ∧ t.emg.serial = s.emg.serial + 1 ∧ t.emg.fnDefer = false ∧ t.emg.due = none ∧ t.emg.waitSlot = false) := by decide +kernel

theorem test_slot_granted :
    let s : State := { scheduled with lnk := { scheduled.lnk with state := .member, lead := 5 }, emg := { scheduled.emg with due := some ⟨.function, 0, 900, false, 0, false⟩, waitSlot := true } }
    let t := after (.slotGranted) s
    (s.lnk.joined = true ∧ s.emg.due = some ⟨.function, 0, 900, false, 0, false⟩ ∧ s.emg.waitSlot = true ∧ s.testReady .function = true) ∧
    (t.emg.due = some ⟨.function, 0, 900, true, s.lnk.lead, true⟩ ∧ t.emg.waitSlot = false) := by decide +kernel

theorem test_start_fn :
    let s : State := scheduled
    let t := after (.startFn 2) s
    (s.testReady .function = true ∧ s.emg.due = none) ∧
    (t.fld Reg.emgCtl 12 4 = (if s.part.variant.hasLink then 4 else 1) ∧ ((match t.emg.due with | some d => decide (d.kind = .function ∧ d.origin = 3 ∧ d.start = (!s.part.variant.hasLink)) | none => decide (False)) = true)) := by decide +kernel

theorem test_start_dur :
    let s : State := { scheduled with emg := { scheduled.emg with full := true } }
    let t := after (.startDur 0) s
    (s.testReady .duration = true ∧ s.emg.due = none) ∧
    (t.fld Reg.emgCtl 12 4 = (if s.part.variant.hasLink then 4 else 1) ∧ ((match t.emg.due with | some d => decide (d.kind = .duration ∧ d.origin = 1 ∧ d.start = (!s.part.variant.hasLink)) | none => decide (False)) = true)) := by decide +kernel

theorem test_start_record :
    let s : State := { scheduled with pp := { scheduled.pp with vbat := 16000 }, emg := { scheduled.emg with due := some ⟨.function, 0, 900, true, 0, true⟩ } }
    let t := after (.startRecordCommit true) s
    (s.mode = .active ∧ s.emg.due = some ⟨.function, 0, 900, true, 0, true⟩ ∧ s.testReady .function = true ∧ s.testsStuck = false ∧ s.batteryCan = true) ∧
    (t.pp.isolated = true ∧ t.pp.conn = none ∧ t.pp.batfet = .on ∧ t.chg.st = .isolated ∧ t.emg.serial = s.emg.serial + 1 ∧ t.emg.due = none ∧ t.emg.elapsed = 0 ∧ ((match t.emg.run with | some r => decide (r.kind = .function ∧ r.serial = s.emg.serial + 1 ∧ r.origin = 0) | none => decide (False)) = true)) := by decide +kernel

theorem test_test_length :
    let s : State := running
    let t := after (.testLengthReached 60600) s
    (s.mode = .active ∧ ((match s.emg.run with | some r => decide (r.secs * 1010 ≤ 60600) | none => decide (False)) = true)) ∧
    (t.emg.run = none ∧ t.emg.outcome = (if s.allGood = true then 1 else 4) ∧ t.pp.isolated = false ∧ t.emg.elapsed = 60600 / 1000) := by decide +kernel

theorem test_emg_abort :
    let s : State := running
    let t := after (.emgAbort 1) s
    (s.mode = .active ∧ s.emg.run.isSome = true) ∧
    (t.emg.run = none ∧ t.emg.outcome = 5 ∧ t.pp.isolated = false ∧ t.fld Reg.emgCtl 12 4 = 5) := by decide +kernel

theorem test_test_abort_vbat :
    let s : State := running
    let t := after (.testAbortVbat 11000 1000) s
    (s.mode = .active ∧ s.emg.run.isSome = true ∧ 11000 ≤ s.packMv (s.reg Reg.emgTestAbort) ∧ 1000 ≤ 1000) ∧
    (t.emg.run = none ∧ t.emg.outcome = 3 ∧ t.pp.isolated = false) := by decide +kernel

/-! 08, Rail sequencing. -/

theorem test_up_refused :
    (let s : State := railsOn
    (s.mode = .active ∧ s.seq.state ≠ .off ∧ (s.seq.state ≠ .held ∨ s.seq.anyUnsup = true)) ∧
    (after (.seqUp) s = (s.setFld Reg.seqStat 13 3 2))) ∧
    (let s : State := { heldUp with seq := { heldUp.seq with unsup := Eight.ofNat 4 } }
    (s.mode = .active ∧ s.seq.state ≠ .off ∧ (s.seq.state ≠ .held ∨ s.seq.anyUnsup = true)) ∧
    (after (.seqUp) s = (s.setFld Reg.seqStat 13 3 2))) ∧
    (let s : State := { heldUp with seq := { heldUp.seq with latch := true } }
    (s.mode = .active ∧ s.seq.state = .held ∧ s.seq.anyUnsup = false ∧ s.seq.latch = true) ∧
    (after (.seqUp) s = (s.setFld Reg.seqStat 13 3 4))) ∧
    (let s : State := { heldUp with pp := { heldUp.pp with vsysLow := true } }
    (s.mode = .active ∧ s.seq.state = .held ∧ s.seq.anyUnsup = false ∧ s.seq.latch = false ∧ s.pp.vsysLow = true) ∧
    (after (.seqUp) s = (s.setFld Reg.seqStat 13 3 3))) ∧
    (let s : State := { heldUp with pp := { heldUp.pp with valid := ⟨false, false, false, false⟩ }, emg := { heldUp.emg with warn := true } }
    (s.mode = .active ∧ s.seq.state = .held ∧ s.seq.anyUnsup = false ∧ s.seq.latch = false ∧ s.anyValid = false ∧ s.emg.warn = true) ∧
    (after (.seqUp) s = (s.setFld Reg.seqStat 13 3 3))) ∧
    (let s : State := { dark with seq := { dark.seq with latch := true } }
    (s.mode = .active ∧ s.seq.state = .off ∧ s.seq.latch = true) ∧
    (after (.seqUp) s = (s.setFld Reg.seqStat 13 3 4))) ∧
    (let s : State := { dark with pp := { dark.pp with vsysLow := true } }
    (s.mode = .active ∧ s.seq.state = .off ∧ s.seq.latch = false ∧ s.pp.vsysLow = true) ∧
    (after (.seqUp) s = (s.setFld Reg.seqStat 13 3 3))) ∧
    (let s : State := live.setReg Reg.seqEn 1
    (s.mode = .active ∧ s.seq.state = .off ∧ s.seq.latch = false ∧ s.allDischarged = false) ∧
    (after (.seqUp) s = (s.setFld Reg.seqStat 13 3 3))) := by decide +kernel

theorem test_seq_up :
    (let s : State := dark.setReg Reg.seqEn 6
    let t := after (.seqUp) s
    (s.mode = .active ∧ s.mayStart = true ∧ s.allDischarged = true) ∧
    (t.fld Reg.seqStat 13 3 = 1 ∧ t.seq.en = s.seq.en ∧ fin8.find? s.railEn = some 1 ∧ t.seq.state = .up ∧ t.seq.dir = 1 ∧ t.seq.cur = some 1)) ∧
    (let s : State := dark.setReg Reg.seqEn 0
    let t := after (.seqUp) s
    (s.mode = .active ∧ s.mayStart = true ∧ s.allDischarged = true) ∧
    (t.fld Reg.seqStat 13 3 = 1 ∧ t.seq.en = s.seq.en ∧ fin8.find? s.railEn = none ∧ t.seq.state = .on)) := by decide +kernel

/-- UP ends HELD: the power-up goes on at rail 2, or is complete. -/
theorem test_seq_up_held :
    (let s : State := heldUp
    let t := after (.seqUp) s
    (s.mode = .active ∧ s.seq.state = .held ∧ s.seq.anyUnsup = false ∧ s.seq.latch = false ∧ s.pp.vsysLow = false ∧ s.anyValid = true) ∧
    (t.fld Reg.seqStat 13 3 = 1 ∧ t.seq.en = s.seq.en ∧ t.seq.state = .up ∧ t.seq.dir = 1 ∧ t.seq.cur = some 1)) ∧
    (let s : State := heldUp.setReg Reg.seqEn 1
    let t := after (.seqUp) s
    (s.mode = .active ∧ s.seq.state = .held ∧ s.seq.anyUnsup = false ∧ s.seq.latch = false ∧ s.pp.vsysLow = false ∧ s.anyValid = true) ∧
    (t.fld Reg.seqStat 13 3 = 1 ∧ t.seq.en = s.seq.en ∧ t.seq.state = .on)) := by decide +kernel

theorem test_seq_down :
    (let s : State := railsOn
    let t := after (.seqDown) s
    (s.mode = .active ∧ (s.seq.state = .up ∨ s.seq.state = .on ∨ s.seq.state = .held)) ∧
    (t.fld Reg.seqStat 13 3 = 1)) ∧
    (let s : State := live
    let t := after (.seqDown) s
    (s.mode = .active ∧ s.seq.state ≠ .up ∧ s.seq.state ≠ .on ∧ s.seq.state ≠ .held) ∧
    (t = (s.setFld Reg.seqStat 13 3 2))) ∧
    (let s : State := railsOn
    let t := after (.seqDown) s
    (s.mode = .active ∧ (s.seq.state = .up ∨ s.seq.state = .on ∨ s.seq.state = .held) ∧ highest s.seq.en = some 1 ∧ s.seq.disch.get 1 = false) ∧
    (t.seq.state = .down ∧ t.seq.cause = 1 ∧ t.seq.dir = 2 ∧ t.seq.en = s.seq.en.set 1 false ∧ t.seq.pg.get 1 = false ∧ t.fld Reg.seqStat 13 3 = 1)) := by decide +kernel

theorem test_clear_blocked :
    let s : State := railsOn
    let t := after (.seqClear) s
    (s.mode = .active ∧ s.seq.state ≠ .off) ∧
    (t = (s.setFld Reg.seqStat 13 3 2)) := by decide +kernel

theorem test_clear :
    let s : State := { live with seq := { live.seq with latch := true, bits := Eight.all 4 } }
    let t := after (.seqClear) s
    (s.mode = .active ∧ s.seq.state = .off) ∧
    (t.seq = { s.seq with latch := false, bits := Eight.all 0 } ∧ t.fld Reg.seqStat 13 3 = 1) := by decide +kernel

theorem test_force_off_blocked :
    let s : State := railsOn
    let t := after (.seqForceOff) s
    (s.mode = .active ∧ s.seq.state ≠ .stuck) ∧
    (t = (s.setFld Reg.seqStat 13 3 2)) := by decide +kernel

theorem test_force_off :
    let s : State := { railsOn with seq := { railsOn.seq with state := .stuck } }
    let t := after (.seqForceOff) s
    (s.mode = .active ∧ s.seq.state = .stuck) ∧
    (t.seq.state = .off ∧ (∀ k, t.seq.en.get k = false) ∧ t.fld Reg.seqStat 13 3 = 1 ∧ t.seq.cause = s.seq.cause) := by decide +kernel

theorem test_bad_command :
    let s : State := live
    let t := after (.seqBadCommand 0xFF) s
    (s.mode = .active ∧ (0xFF : Byte) ∉ ([0x01, 0x02, 0x0C, 0xF0] : List Byte)) ∧
    (t = (s.setFld Reg.seqStat 13 3 5)) := by decide +kernel

theorem test_seq_en :
    (let s : State := live.setReg (Reg.railDisch 3) 500
    let t := after (.seqEn 0xFF ((Eight.all 99).set 3 500)) s
    (s.mode = .active ∧ s.seq.state = .off) ∧
    (t.reg Reg.seqEn = 0xFF ∧ t.seq.state = .off ∧ t.seq.en = s.seq.en ∧ t.seq.disch.get 3 = false ∧ t.seq.disch.get 2 = true)) ∧
    (let s : State := { railsOn with seq := { railsOn.seq with state := .held, unsup := Eight.ofNat 1 } }
    let t := after (.seqEn 0x03 (Eight.all 1500)) s
    (s.mode = .active ∧ s.seq.state = .held) ∧
    (t.reg Reg.seqEn = 3)) ∧
    (let s : State := railsOn
    let t := after (.seqEn 0x01 (Eight.all 0)) s
    (s.mode = .active ∧ s.seq.state ≠ .off ∧ s.seq.state ≠ .held) ∧
    (t = (s.setFld Reg.seqStat 13 3 2))) := by decide +kernel

theorem test_dis_wait :
    (let s : State := { dark with seq := { dark.seq with wait := .auto } }
    let t := after (.disWaitStart) s
    (s.mode = .active ∧ s.seq.wait = .auto ∧ s.mayStart = true ∧ s.allDischarged = true) ∧
    (t.seq.wait = .none ∧ t.seq.state = (if fin8.any s.railEn then .up else .on))) ∧
    (let s : State := ({ fed with seq := { dark.seq with wait := .restart } } : State).setFlag Reg.seqCfg 1 true
    let t := after (.disWaitStart) s
    (s.mode = .active ∧ s.seq.wait = .restart ∧ s.flag Reg.seqCfg 1 = true ∧ s.anyValid = true ∧ s.mayStart = true ∧ s.allDischarged = true) ∧
    (t.seq.wait = .none ∧ t.seq.state = (if fin8.any s.railEn then .up else .on))) := by decide +kernel

theorem test_restart :
    let s : State := ({ fed with seq := { dark.seq with cause := 3 } } : State).setFlag Reg.seqCfg 1 true
    let t := after (.seqRestart 200) s
    (s.mode = .active ∧ s.seq.cause = 3 ∧ s.flag Reg.seqCfg 1 = true ∧ s.anyValid = true ∧ 200 ≤ 200 ∧ s.seq.wait = .none ∧ s.mayStart = true) ∧
    (if s.allDischarged then t.seq.state = (if fin8.any s.railEn then .up else .on) else t.seq.state = .off ∧ t.seq.wait = .restart ∧ postedB s t 262 0 = true) := by decide +kernel

theorem test_restart_waits :
    let s : State := (({ fed with seq := { fed.seq with cause := 3, disch := Eight.ofNat 0xFE } } : State).setFlag Reg.seqCfg 1 true).setReg Reg.seqEn 1
    let t := after (.seqRestart 200) s
    (s.mode = .active ∧ s.seq.cause = 3 ∧ s.flag Reg.seqCfg 1 = true ∧ s.anyValid = true ∧ 200 ≤ 200 ∧ s.seq.wait = .none ∧ s.mayStart = true) ∧
    (if s.allDischarged then t.seq.state = (if fin8.any s.railEn then .up else .on) else t.seq.state = .off ∧ t.seq.wait = .restart ∧ postedB s t 262 0 = true) := by decide +kernel

theorem test_start_delay :
    let s : State := { rising with seq := { rising.seq with en := Eight.all false, rise := none } }
    let t := after (.startDelay 1 65535) s
    (s.mode = .active ∧ s.seq.state = .up ∧ s.seq.cur = some 1 ∧ s.seq.rise = none ∧ s.reg (Reg.railStart 1) ≤ 65535) ∧
    (t.seq.en = s.seq.en.set 1 true ∧ t.seq.rise = some 1 ∧ t.seq.armedHi.get 1 = true ∧ t.seq.disch = s.seq.disch ∧ t.seq.pg = s.seq.pg ∧ t.fab = s.fab) := by decide +kernel

theorem test_power_good_last :
    let s : State := rising
    let t := after (.powerGood 1 1700 2550) s
    (s.mode = .active ∧ s.seq.en.get 1 = true ∧ s.seq.unsup.get 1 = false ∧ s.seq.pg.get 1 = false ∧ s.withinWarn 1 1700 = true ∧ s.warnDgl 1 ≤ 2550) ∧
    (t.seq.pg = s.seq.pg.set 1 true ∧ t.seq.armedLo.get 1 = true ∧ t.seq.en = s.seq.en ∧ t.seq.warned.get 1 = false ∧ (s.seq.state = .up → s.seq.cur = some 1 → ((match fin8.find? fun j => decide (1 < j) && s.railEn j && !s.seq.pg.get j with | some j => decide (t.seq.state = .up ∧ t.seq.cur = some j) | none => decide (t.seq.state = .on)) = true))) := by decide +kernel

theorem test_power_good_next :
    let s : State := rising.setReg Reg.seqEn 0x82
    let t := after (.powerGood 1 1700 2550) s
    (s.mode = .active ∧ s.seq.en.get 1 = true ∧ s.seq.unsup.get 1 = false ∧ s.seq.pg.get 1 = false ∧ s.withinWarn 1 1700 = true ∧ s.warnDgl 1 ≤ 2550) ∧
    (t.seq.pg = s.seq.pg.set 1 true ∧ t.seq.armedLo.get 1 = true ∧ t.seq.en = s.seq.en ∧ t.seq.warned.get 1 = false ∧ (s.seq.state = .up → s.seq.cur = some 1 → ((match fin8.find? fun j => decide (1 < j) && s.railEn j && !s.seq.pg.get j with | some j => decide (t.seq.state = .up ∧ t.seq.cur = some j) | none => decide (t.seq.state = .on)) = true))) := by decide +kernel

theorem test_rise_timeout :
    (let s : State := rising
    let t := after (.riseTimeout 1 65535) s
    (s.mode = .active ∧ s.seq.rise = some 1 ∧ s.seq.pg.get 1 = false ∧ s.reg (Reg.railRise 1) ≤ 65535 ∧ s.seq.state = .up) ∧
    (bit (t.seq.bits.get 1) 4 = true ∧ t.seq.latch = true ∧ t.seq.cause = 5 ∧ t.seq.rail = 2 ∧ highest s.seq.en = some 1
      ∧ s.seq.disch.get 1 = false ∧ t.seq.state = .down ∧ t.seq.en = s.seq.en.set 1 false)) ∧
    (let s : State := { rising with seq := { rising.seq with state := .down, cause := 1, cur := some 3, en := Eight.ofNat 2 } }
    let t := after (.riseTimeout 1 65535) s
    (s.mode = .active ∧ s.seq.rise = some 1 ∧ s.seq.pg.get 1 = false ∧ s.reg (Reg.railRise 1) ≤ 65535 ∧ s.seq.state = .down ∧ s.seq.latch = false) ∧
    (bit (t.seq.bits.get 1) 4 = true ∧ t.seq.latch = true ∧ t.seq.cause = 1 ∧ t.seq.rail = 2 ∧ t.seq.state = .down)) := by decide +kernel

theorem test_rail_fault :
    (let s : State := railsOn
    let t := after (.railFault 0 4095 255) s
    (s.mode = .active ∧ s.faultQualified 0 4095 255 = true ∧ s.seq.state = .on) ∧
    (t.seq.pg.get 0 = false ∧ bit (t.seq.bits.get 0) (if s.faultHi 0 < 4095 then 2 else 3) = true ∧ t.emg.run = none
      ∧ t.seq.latch = true ∧ t.seq.cause = 4 ∧ t.seq.rail = 1 ∧ highest s.seq.en = some 1 ∧ (s.seeSns 0 4095).seq.disch.get 1 = false ∧ t.seq.state = .down)) ∧
    (let s : State := { railsOn with seq := { railsOn.seq with en := Eight.all false } }
    let t := after (.railFault 0 4095 255) s
    (s.mode = .active ∧ s.faultQualified 0 4095 255 = true ∧ s.seq.state = .on ∧ highest s.seq.en = none) ∧
    (t.seq.latch = true ∧ t.seq.state = .off)) := by decide +kernel

theorem test_rail_fault_stuck :
    let s : State := { railsOn with seq := { railsOn.seq with state := .stuck } }
    let t := after (.railFault 0 0 255) s
    (s.mode = .active ∧ s.faultQualified 0 0 255 = true ∧ s.seq.state = .stuck) ∧
    (t.seq.pg.get 0 = false ∧ bit (t.seq.bits.get 0) (if s.faultHi 0 < 0 then 2 else 3) = true ∧ t.emg.run = none ∧ t.seq.state = .stuck ∧ t.seq.cause = s.seq.cause) := by decide +kernel

theorem test_rail_warning :
    let s : State := railsOn
    let t := after (.railWarning 1 0 2550) s
    (s.mode = .active ∧ s.seq.armedLo.get 1 = true ∧ s.seq.warned.get 1 = false ∧ s.withinWarn 1 0 = false ∧ s.warnDgl 1 ≤ 2550) ∧
    (t.seq.warned.get 1 = true ∧ bit (t.seq.bits.get 1) (if s.warnHi 1 < 0 then 0 else 1) = true ∧ t.seq.state = s.seq.state ∧ t.seq.en = s.seq.en ∧ t.emg.run = none) := by decide +kernel

theorem test_rail_discharged_next :
    let s : State := { railsOn with seq := { railsOn.seq with state := .down, cur := some 1, dir := 2, en := Eight.ofNat 1 } }
    let t := after (.railDischarged 1 0) s
    (s.mode = .active ∧ 0 < s.reg (Reg.railDisch 1) ∧ s.seq.state = .down ∧ s.seq.cur = some 1 ∧ s.seq.en.get 1 = false) ∧
    (t.seq.disch.get 1 = true ∧ t.seq.sns.get 1 = some 0 ∧ highest s.seq.en = some 0 ∧ s.seq.disch.get 0 = false
      ∧ t.seq.en = s.seq.en.set 0 false ∧ t.seq.cur = some 0 ∧ t.seq.state = .down) := by decide +kernel

theorem test_rail_discharged_last :
    (let s : State := { railsOn with seq := { railsOn.seq with state := .down, cur := some 0, dir := 2, en := Eight.ofNat 0 } }
    let t := after (.railDischarged 0 0) s
    (s.mode = .active ∧ 0 < s.reg (Reg.railDisch 0) ∧ s.seq.state = .down ∧ s.seq.cur = some 0 ∧ s.seq.en.get 0 = false) ∧
    (t.seq.disch.get 0 = true ∧ highest s.seq.en = none ∧ t.seq.state = .off ∧ t.seq.dir = 0)) ∧
    (let s : State := dark
    let t := after (.railDischarged 0 4095) s
    (s.mode ≠ .off ∧ s.mode ≠ .ship ∧ s.reg (Reg.railDisch 0) ≤ 4095) ∧
    (t.seq.disch.get 0 = false ∧ t.seq.sns.get 0 = some 4095)) := by decide +kernel

theorem test_dis_max :
    let s : State := { railsOn with life := { railsOn.life with shipReq := .agent }, seq := { railsOn.seq with state := .down, cur := some 1, dir := 2, en := Eight.ofNat 1 } }
    let t := after (.disMaxTimeout 1 65535) s
    (s.mode = .active ∧ s.seq.state = .down ∧ s.seq.cur = some 1 ∧ s.seq.en.get 1 = false ∧ s.seq.disch.get 1 = false ∧ s.reg (Reg.railDisMax 1) ≤ 65535) ∧
    (t.seq.state = .stuck ∧ t.seq.rail = 2 ∧ t.seq.en = s.seq.en ∧ (s.life.shipReq = .agent → t.life.shipReq = .none ∧ t.fld Reg.sysPower 12 4 = 4)) := by decide +kernel

theorem test_fault_latch :
    let s : State := { railsOn with mode := .dormant }
    let t := after (.faultLatchAbsent 0 4095 255) s
    (s.mode = .dormant ∧ s.seq.keeperFault = none ∧ s.faultQualified 0 4095 255 = true) ∧
    (t.seq.keeperFault = some (0, decide (s.faultHi 0 < 4095)) ∧ t.seq.en = s.seq.en ∧ t.fab = s.fab) := by decide +kernel

theorem test_fault_latch_hold :
    let s : State := { railsOn with mode := .hold, life := { railsOn.life with booted := false } }
    let t := after (.faultLatchAbsent 0 4095 255) s
    (s.mode = .hold ∧ s.life.booted = false ∧ s.seq.keeperFault = none ∧ s.faultQualified 0 4095 255 = true) ∧
    (t.seq.keeperFault = some (0, decide (s.faultHi 0 < 4095)) ∧ t.seq.en = s.seq.en ∧ t.fab = s.fab) := by decide +kernel

/-! 09, Type-C ports. -/

theorem test_on_partner :
    (let s : State := drp
    (s.part.variant.hasPort .c1 = true ∧ s.mode = .active ∧ (s.prt .c1).unsup = false ∧ (s.prt .c1).openCc = false ∧ (s.prt .c1).trying = .none
      ∧ (s.prt .c1).try = 0 ∧ (s.prt .c1).roleIn = 3 ∧ s.mayBeSource = true ∧ (s.prt .c1).cut = .none) ∧
    s.onPartner .c1 true 150 = .attach ∧ s.onPartner .c1 false 150 = .attach) := by decide +kernel

theorem test_attach :
    (let s : State := drp
    let t := after (.attach .c1 true true 3 2 150) s
    (s.part.variant.hasPort .c1 = true ∧ s.mode = .active ∧ (s.prt .c1).role = .none ∧ s.onPartner .c1 true 150 = .attach) ∧
    ((t.prt .c1).role = .source ∧ (t.prt .c1).cc2 = true ∧ (t.prt .c1).trying = .none)) ∧
    (let s : State := drp
    let t := after (.attach .c1 false false 2 1 150) s
    (s.part.variant.hasPort .c1 = true ∧ s.mode = .active ∧ (s.prt .c1).role = .none ∧ s.onPartner .c1 false 150 = .attach) ∧
    ((t.prt .c1).role = .sink ∧ (t.prt .c1).cc2 = false ∧ (t.prt .c1).trying = .none ∧ t.pp.portLim.get .c1 = rpLim 2)) ∧
    (let s : State := { drp with pdp := { drp.pdp with p1 := { drp.pdp.p1 with unsup := true } } }
    after (.attach .c1 true false 3 2 200) s = s) := by decide +kernel

/-- Try.SRC: a sink's partner is shown Rp first, and 10 ms of Rd then make the port the source. -/
theorem test_try_src :
    let s : State := { drp with pdp := { drp.pdp with p1 := { drp.pdp.p1 with cfgIn := 2 } } }
    let t := after (.attach .c1 false false 3 2 150) s
    (s.part.variant.hasPort .c1 = true ∧ s.mode = .active ∧ (s.prt .c1).role = .none ∧ s.onPartner .c1 false 150 = .try_ .src) ∧
    ((t.prt .c1).role = .none ∧ (t.prt .c1).trying = .src ∧ (t.prt .c1).showRp = true ∧ t.onPartner .c1 true 10 = .attach) := by decide +kernel

theorem test_unsupported_attach :
    let s : State := drp
    let t := after (.unsupportedAttach Port.c1) s
    (s.part.variant.hasPort Port.c1 = true ∧ s.mode = .active ∧ (s.prt Port.c1).role = .none ∧ (s.prt Port.c1).unsup = false ∧ (s.prt Port.c1).openCc = false ∧ (s.prt Port.c1).roleIn ≠ 0) ∧
    ((t.prt Port.c1).unsup = true ∧ postedB s t (portSrc Port.c1 + 16) 0 = true) := by decide +kernel

theorem test_unsupported_again :
    let s : State := { drp with pdp := { drp.pdp with p1 := { drp.pdp.p1 with unsup := true } } }
    let t := after (.unsupportedAttach .c1) s
    (s.part.variant.hasPort Port.c1 = true ∧ s.mode = .active ∧ (s.prt Port.c1).role = .none ∧ (s.prt Port.c1).unsup = true) ∧
    (t = s) := by decide +kernel

theorem test_detach :
    let s : State := sourcing
    let t := after (.detach .c1 15) s
    (s.part.variant.hasPort .c1 = true ∧ s.mode = .active ∧ 15 ≤ 15 ∧ (s.prt .c1).role = .source ∧ s.pp.conn = some .aux ∧ s.eligible .aux = true) ∧
    ((t.prt .c1).role = .none ∧ (t.prt .c1).contract = none ∧ (t.cnv.x.get .c1).run = false ∧ (t.prt .c1).discharging = true
      ∧ postedB s t (portSrc .c1 + 1) 0 = true) := by decide +kernel

theorem test_detach_sink :
    let s : State := sinking
    let t := after (.detach .c1 15) s
    (s.part.variant.hasPort .c1 = true ∧ s.mode = .active ∧ 15 ≤ 15 ∧ (s.prt .c1).role = .sink) ∧
    ((t.prt .c1).role = .none ∧ (t.prt .c1).contract = none ∧ (t.cnv.x.get .c1).run = false ∧ (t.prt .c1).discharging = true) := by decide +kernel

theorem test_unsupported_detach :
    let s : State := { drp with pdp := { drp.pdp with p1 := { drp.pdp.p1 with unsup := true } } }
    let t := after (.detach .c1 15) s
    (s.part.variant.hasPort Port.c1 = true ∧ s.mode = .active ∧ (s.prt Port.c1).role = .none ∧ (s.prt Port.c1).unsup = true) ∧
    ((t.prt Port.c1).unsup = false ∧ (t.prt Port.c1).role = .none) := by decide +kernel

theorem test_drp_toggle :
    (let s : State := drp
    let t := after (.drpToggle .c1 100) s
    (s.part.variant.hasPort .c1 = true ∧ s.mode = .active ∧ (s.prt .c1).role = .none ∧ (s.prt .c1).roleIn = 3 ∧ s.mayBeSource = true
      ∧ (s.prt .c1).cut = .none ∧ (s.prt .c1).openCc = false ∧ (s.prt .c1).unsup = false ∧ s.drpTime .c1 ≤ 100 * 100 ∧ (s.prt .c1).trying = .none) ∧
    ((t.prt .c1).role = .none ∧ (t.prt .c1).trying = .none ∧ (t.prt .c1).showRp = (!(s.prt .c1).showRp))) ∧
    (let s : State := { drp with pdp := { drp.pdp with p1 := { drp.pdp.p1 with trying := .src, showRp := true } } }
    let t := after (.drpToggle .c1 100) s
    (s.drpTime .c1 ≤ 100 * 100) ∧ ((t.prt .c1).trying = .waitSnk ∧ (t.prt .c1).showRp = false)) := by decide +kernel

theorem test_source_turn_on :
    (let s : State := ({ sourcing with cnv := { sourcing.cnv with x := fed.cnv.x }, pdp := { sourcing.pdp with p1 := { sourcing.pdp.p1 with noTurnOn := true } } } : State).setReg Reg.sysLimPort 30
    let t := after (.sourceTurnOn .c1 799 0) s
    (s.part.variant.hasPort .c1 = true ∧ s.mode = .active ∧ (s.prt .c1).role = .source ∧ (s.prt .c1).swapTo = .none ∧ s.mayBeSource = true
      ∧ (s.cnv.x.get .c1).run = false ∧ (s.cnv.x.get .c1).stopped = false ∧ s.vbusSafe .c1 799 = true ∧ (s.prt .c1).recover = false) ∧
    ((t.cnv.x.get .c1).run = true ∧ (t.cnv.x.get .c1).vtgt = 5000 ∧ (t.prt .c1).capsSent = (s.prt .c1).capsSent + 1 ∧ saidDataB t .c1 Pd.sourceCaps = true)) ∧
    (let s : State := ({ sourcing with cnv := { sourcing.cnv with x := fed.cnv.x }, pdp := { sourcing.pdp with p1 := { sourcing.pdp.p1 with recover := true } } } : State).setReg Reg.sysLimPort 30
    let t := after (.sourceTurnOn .c1 5000 660) s
    (s.vbusSafe .c1 5000 = true ∧ (s.prt .c1).recover = true ∧ 660 ≤ 660) ∧
    ((t.cnv.x.get .c1).run = true ∧ (t.cnv.x.get .c1).vtgt = 5000)) := by decide +kernel

/-- Not before 0.8 V, and not before tSrcRecover. -/
theorem test_source_stays_off :
    (let s : State := ({ sourcing with cnv := { sourcing.cnv with x := fed.cnv.x }, pdp := { sourcing.pdp with p1 := { sourcing.pdp.p1 with noTurnOn := true, recover := true } } } : State).setReg Reg.sysLimPort 30
    after (.sourceTurnOn .c1 800 660) s = s ∧ after (.sourceTurnOn .c1 0 659) s = s) := by decide +kernel

theorem test_request :
    (let s : State := sourcing
    let t := after (.request Port.c1 (.fixed 2 400) 48000 0) s
    (s.part.variant.hasPort Port.c1 = true ∧ s.mode = .active ∧ (s.prt Port.c1).role = .source ∧ (s.cnv.x.get Port.c1).run = true ∧ ((s.prt Port.c1).heard 0).asked (s.reg (Reg.pdpPpsVmin Port.c1.ix)) (PdRequest.fixed 2 400) = none) ∧
    (saidB t .c1 false Pd.reject = true)) ∧
    (let s : State := { sourcing with pdp := { sourcing.pdp with p1 := { sourcing.pdp.p1 with contract := some ⟨false, 9000, 3000⟩ } } }
    let t := after (.request Port.c1 (.fixed 2 220) 48000 0) s
    (s.part.variant.hasPort Port.c1 = true ∧ s.mode = .active ∧ (s.prt Port.c1).role = .source ∧ (s.cnv.x.get Port.c1).run = true ∧ ((s.prt Port.c1).heard 0).asked (s.reg (Reg.pdpPpsVmin Port.c1.ix)) (PdRequest.fixed 2 220) = some (⟨false, 9000, 2200⟩, 3000) ∧ (s.prt Port.c1).contract = some ⟨false, 9000, 3000⟩ ∧ (s.cnv.x.get Port.c1).stopped = false) ∧
    (saidB t .c1 false Pd.accept = true ∧ (t.prt Port.c1).next = some ⟨false, 9000, 2200⟩ ∧ (t.cnv.x.get Port.c1).vtgt = 9000 ∧ (t.cnv.x.get Port.c1).iset = 3000)) ∧
    (let s : State := { sourcing with pp := { sourcing.pp with conn := none } }
    let t := after (.request Port.c1 (.fixed 2 300) 48000 0) s
    (s.part.variant.hasPort Port.c1 = true ∧ s.mode = .active ∧ (s.prt Port.c1).role = .source ∧ (s.cnv.x.get Port.c1).run = true ∧ ((s.prt Port.c1).heard 0).asked (s.reg (Reg.pdpPpsVmin Port.c1.ix)) (PdRequest.fixed 2 300) = some (⟨false, 9000, 3000⟩, 3000) ∧ (s.prt Port.c1).contract = none ∧ s.pp.conn = none) ∧
    (saidB t .c1 false Pd.wait = true)) := by decide +kernel

theorem test_ps_rdy_send :
    let s : State := { sourcing with pdp := { sourcing.pdp with p1 := { sourcing.pdp.p1 with next := some ⟨false, 9000, 3000⟩ } } }
    let t := after (.psRdySend Port.c1 9100) s
    (s.part.variant.hasPort Port.c1 = true ∧ s.mode = .active ∧ (s.prt Port.c1).role = .source ∧ (s.prt Port.c1).swapTo = .none ∧ (s.prt Port.c1).next = some (⟨false, 9000, 3000⟩ : Contract) ∧ settled (⟨false, 9000, 3000⟩ : Contract) 9100 = true) ∧
    ((t.prt Port.c1).contract = some (⟨false, 9000, 3000⟩ : Contract) ∧ (t.prt Port.c1).next = none ∧ saidB t .c1 false Pd.psRdy = true) := by decide +kernel

theorem test_pps_timeout :
    let s : State := { sourcing with pdp := { sourcing.pdp with p1 := { sourcing.pdp.p1 with contract := some ⟨true, 9000, 3000⟩ } } }
    let t := after (.ppsTimeout Port.c1 15000) s
    (s.part.variant.hasPort Port.c1 = true ∧ s.mode = .active ∧ (s.prt Port.c1).role = .source ∧ (s.prt Port.c1).contract = some (⟨true, 9000, 3000⟩ : Contract) ∧ (⟨true, 9000, 3000⟩ : Contract).pps = true ∧ 15000 ≤ 15000) ∧
    ((t.prt Port.c1).contract = none ∧ (t.cnv.x.get Port.c1).run = false ∧ t.reg (Reg.pdpHresets Port.c1.ix) = min 255 (s.reg (Reg.pdpHresets Port.c1.ix) + 1)) := by decide +kernel

theorem test_budget_shortfall :
    let s : State := { sourcing with pdp := { sourcing.pdp with p1 := { sourcing.pdp.p1 with contract := some ⟨false, 9000, 3000⟩ } } }
    let t := after (.budgetShortfall Port.c1 500 20000 200000) s
    (s.part.variant.hasPort Port.c1 = true ∧ s.mode = .active ∧ (s.prt Port.c1).role = .source ∧ (s.prt Port.c1).contract = some (⟨false, 9000, 3000⟩ : Contract) ∧ 1000 * s.budgetMw Port.c1 20000 200000 < ((⟨false, 9000, 3000⟩ : Contract).mv * (⟨false, 9000, 3000⟩ : Contract).ma : Nat) ∧ 500 ≤ 500) ∧
    ((t.prt Port.c1).capsSent = (s.prt Port.c1).capsSent + 1 ∧ (t.prt Port.c1).wait = .caps ∧ t.reg (Reg.pdpBudget Port.c1.ix) = min 1023 (s.budgetMw Port.c1 20000 200000 / 100).toNat) := by decide +kernel

theorem test_source_cap_repeat :
    let s : State := sourcing
    let t := after (.sourceCapRepeat Port.c1 150) s
    (s.part.variant.hasPort Port.c1 = true ∧ s.mode = .active ∧ (s.prt Port.c1).role = .source ∧ (s.cnv.x.get Port.c1).run = true ∧ (s.prt Port.c1).contract = none ∧ (s.prt Port.c1).next = none ∧ (s.prt Port.c1).capsSent < 50 ∧ 150 ≤ 150) ∧
    ((t.prt Port.c1).capsSent = (s.prt Port.c1).capsSent + 1 ∧ saidDataB t .c1 Pd.sourceCaps = true) := by decide +kernel

theorem test_src_cut :
    let s : State := { sourcing with emg := { sourcing.emg with emergency := true, warn := true, cutoff := true } }
    let t := after (.srcCut Port.c1) s
    (s.part.variant.hasPort Port.c1 = true ∧ s.mode = .active ∧ (s.prt Port.c1).role = .source ∧ s.mustCut = true) ∧
    ((t.prt Port.c1).role = .none ∧ (t.prt Port.c1).cut = .emergency ∧ (t.cnv.x.get Port.c1).run = false) := by decide +kernel

theorem test_discharge_done :
    let s : State := { fed with pdp := { fed.pdp with p1 := { PortSt.init with discharging := true } } }
    let t := after (.dischargeDone Port.c1 700) s
    (s.part.variant.hasPort Port.c1 = true ∧ s.mode = .active ∧ (s.prt Port.c1).discharging = true ∧ 700 < 800) ∧
    ((t.prt Port.c1).discharging = false ∧ t.fab = s.fab) := by decide +kernel

theorem test_discharge_slow :
    let s : State := { fed with pdp := { fed.pdp with p1 := { PortSt.init with discharging := true } } }
    let t := after (.dischargeSlow Port.c1 800 650) s
    (s.part.variant.hasPort Port.c1 = true ∧ s.mode = .active ∧ (s.prt Port.c1).discharging = true ∧ (s.prt Port.c1).slow = false) ∧
    ((t.prt Port.c1).slow = true ∧ postedB s t (portSrc Port.c1 + 14) 0 = true) := by decide +kernel

theorem test_source_capabilities :
    let s : State := sinking
    let t := after (.sourceCapabilities Port.c1 [0x1912C#32]) s
    (s.part.variant.hasPort Port.c1 = true ∧ s.mode = .active ∧ (s.prt Port.c1).role ≠ .none) ∧
    ((t.prt Port.c1).partner = [0x1912C#32] ∧ (t.prt Port.c1).rev = (if (s.prt Port.c1).rev = 0 then (s.prt Port.c1).partnerRev else (s.prt Port.c1).rev)) := by decide +kernel

/-- The first header settles the revision. -/
theorem test_first_header :
    let s : State := { sinking with pdp := { sinking.pdp with p1 := { sinking.pdp.p1 with rev := 0, partnerRev := 1 } } }
    let t := after (.sourceCapabilities .c1 [0x1912C#32]) s
    ((s.prt .c1).role ≠ .none ∧ (s.prt .c1).rev = 0) ∧ ((t.prt .c1).partner = [0x1912C#32] ∧ (t.prt .c1).rev = 1) := by decide +kernel

theorem test_keepalive :
    let s : State := { sinking with pdp := { sinking.pdp with p1 := { sinking.pdp.p1 with contract := some ⟨true, 9000, 3000⟩ } } }
    let t := after (.keepalive Port.c1 60) s
    (s.part.variant.hasPort Port.c1 = true ∧ s.mode = .active ∧ (s.prt Port.c1).role = .sink ∧ (s.prt Port.c1).contract = some (⟨true, 9000, 3000⟩ : Contract) ∧ (⟨true, 9000, 3000⟩ : Contract).pps = true ∧ s.reg (Reg.pdpKeepalive Port.c1.ix) ≤ 60 ∧ (s.chooseRequest Port.c1 (s.prt Port.c1).partner).isSome = true) ∧
    ((t.prt Port.c1).wait = .request ∧ saidDataB t .c1 Pd.request = true) := by decide +kernel

theorem test_wait_received :
    let s : State := { sinking with pdp := { sinking.pdp with p1 := { sinking.pdp.p1 with wait := .request } } }
    let t := after (.waitReceived Port.c1) s
    (s.part.variant.hasPort Port.c1 = true ∧ s.mode = .active ∧ (s.prt Port.c1).role ≠ .none ∧ (s.prt Port.c1).wait = .request) ∧
    ((t.prt Port.c1).wait = .none ∧ (t.prt Port.c1).waits = (s.prt Port.c1).waits + 1) := by decide +kernel

theorem test_wait_received_swap :
    let s : State := { sinking with pdp := { sinking.pdp with p1 := { sinking.pdp.p1 with wait := .prSwap, swapTo := .source } } }
    let t := after (.waitReceived Port.c1) s
    (s.part.variant.hasPort Port.c1 = true ∧ s.mode = .active ∧ (s.prt Port.c1).role ≠ .none ∧ (s.prt Port.c1).wait = .prSwap) ∧
    ((t.prt Port.c1).wait = .none ∧ (t.prt Port.c1).swapTo = .none) := by decide +kernel

theorem test_wait_retry :
    let s : State := { sinking with pdp := { sinking.pdp with p1 := { sinking.pdp.p1 with waits := 15 } } }
    let t := after (.waitRetry Port.c1 2550) s
    (s.part.variant.hasPort Port.c1 = true ∧ s.mode = .active ∧ (s.prt Port.c1).role = .sink ∧ (s.prt Port.c1).wait = .none ∧ 1 ≤ (s.prt Port.c1).waits ∧ (s.prt Port.c1).waits < 16 ∧ s.reg (Reg.pdpWaitRetry Port.c1.ix) * 10 ≤ 2550 ∧ (s.chooseRequest Port.c1 (s.prt Port.c1).partner).isSome = true) ∧
    ((t.prt Port.c1).wait = .request ∧ saidDataB t .c1 Pd.request = true) := by decide +kernel

theorem test_ps_rdy_received :
    let s : State := { sinking with pdp := { sinking.pdp with p1 := { sinking.pdp.p1 with wait := .psRdy, next := some ⟨false, 9000, 3000⟩ } } }
    let t := after (.psRdyReceived Port.c1 9000) s
    (s.part.variant.hasPort Port.c1 = true ∧ s.mode = .active ∧ (s.prt Port.c1).wait = .psRdy ∧ (s.prt Port.c1).role = .sink ∧ (s.prt Port.c1).swapTo = .none) ∧
    ((t.prt Port.c1).contract = (s.prt Port.c1).next ∧ (t.prt Port.c1).next = none ∧ (t.prt Port.c1).waits = 0) := by decide +kernel

theorem test_response_timeout_swap :
    let s : State := { sinking with pdp := { sinking.pdp with p1 := { sinking.pdp.p1 with wait := .prSwap, swapTo := .source } } }
    let t := after (.senderResponseTimeout Port.c1 28) s
    (s.part.variant.hasPort Port.c1 = true ∧ s.mode = .active ∧ (s.prt Port.c1).role ≠ .none ∧ (s.prt Port.c1).wait = .prSwap) ∧
    ((t.prt Port.c1).wait = .none ∧ (t.prt Port.c1).swapTo = .none) := by decide +kernel

theorem test_response_timeout :
    let s : State := { sinking with pdp := { sinking.pdp with p1 := { sinking.pdp.p1 with wait := .request } } }
    let t := after (.senderResponseTimeout Port.c1 28) s
    (s.part.variant.hasPort Port.c1 = true ∧ s.mode = .active ∧ (s.prt Port.c1).role ≠ .none ∧ (s.prt Port.c1).wait = .request ∧ (s.prt Port.c1).hardCnt < 2) ∧
    ((t.prt Port.c1).hardCnt = (s.prt Port.c1).hardCnt + 1 ∧ (t.prt Port.c1).wait = .none ∧ t.reg (Reg.pdpHresets Port.c1.ix) = min 255 (s.reg (Reg.pdpHresets Port.c1.ix) + 1)) := by decide +kernel

theorem test_accept_received :
    let s : State := { sinking with pdp := { sinking.pdp with p1 := { sinking.pdp.p1 with wait := .request, next := some ⟨false, 9000, 3000⟩ } } }
    let t := after (.acceptReceived Port.c1) s
    (s.part.variant.hasPort Port.c1 = true ∧ s.mode = .active ∧ (s.prt Port.c1).role ≠ .none ∧ (s.prt Port.c1).wait = .request) ∧
    ((t.prt Port.c1).wait = .psRdy ∧ (t.prt Port.c1).next = (s.prt Port.c1).next) := by decide +kernel

theorem test_accept_unexpected :
    let s : State := sinking
    let t := after (.acceptReceived Port.c1) s
    (s.part.variant.hasPort Port.c1 = true ∧ s.mode = .active ∧ (s.prt Port.c1).role ≠ .none ∧ (s.prt Port.c1).wait = .none) ∧
    ((t.prt Port.c1).wait = .softReset ∧ saidB t .c1 false Pd.softReset = true) := by decide +kernel

theorem test_reject_received :
    let s : State := { sinking with pdp := { sinking.pdp with p1 := { sinking.pdp.p1 with wait := .request, next := some ⟨false, 9000, 3000⟩ } } }
    let t := after (.rejectReceived Port.c1) s
    (s.part.variant.hasPort Port.c1 = true ∧ s.mode = .active ∧ (s.prt Port.c1).role ≠ .none ∧ (s.prt Port.c1).wait = .request) ∧
    ((t.prt Port.c1).wait = .none ∧ (t.prt Port.c1).next = none ∧ (t.prt Port.c1).waits = 0) := by decide +kernel

theorem test_reject_unexpected :
    let s : State := sinking
    let t := after (.rejectReceived Port.c1) s
    (s.part.variant.hasPort Port.c1 = true ∧ s.mode = .active ∧ (s.prt Port.c1).role ≠ .none ∧ (s.prt Port.c1).wait = .none) ∧
    ((t.prt Port.c1).wait = .softReset ∧ saidB t .c1 false Pd.softReset = true) := by decide +kernel

theorem test_pr_swap_received :
    (let s : State := { sourcing with pdp := { sourcing.pdp with p1 := { sourcing.pdp.p1 with cfgIn := 0x0C00 } } }
    let t := after (.prSwapReceived Port.c1) s
    (s.part.variant.hasPort Port.c1 = true ∧ s.mode = .active ∧ (s.prt Port.c1).role = .source ∧ s.swapAllowed Port.c1 = true ∧ (s.prt Port.c1).swapTo = .none) ∧
    ((t.prt Port.c1).swapTo = .sink ∧ (t.cnv.x.get Port.c1).run = false ∧ saidB t .c1 false Pd.accept = true)) ∧
    (let s : State := sinking
    let t := after (.prSwapReceived Port.c1) s
    (s.part.variant.hasPort Port.c1 = true ∧ s.mode = .active ∧ (s.prt Port.c1).role = .sink ∧ s.swapAllowed Port.c1 = true ∧ (s.prt Port.c1).swapTo = .none) ∧
    ((t.prt Port.c1).swapTo = .source ∧ (t.prt Port.c1).wait = .psRdy ∧ saidB t .c1 false Pd.accept = true)) ∧
    (let s : State := { sourcing with pdp := { sourcing.pdp with p1 := { sourcing.pdp.p1 with cfgIn := 0 } } }
    let t := after (.prSwapReceived Port.c1) s
    (s.part.variant.hasPort Port.c1 = true ∧ s.mode = .active ∧ (s.prt Port.c1).role ≠ .none ∧ s.swapAllowed Port.c1 = false) ∧
    (saidB t .c1 false Pd.reject = true ∧ (t.prt Port.c1).role = (s.prt Port.c1).role)) := by decide +kernel

theorem test_dr_swap :
    let s : State := sourcing
    let t := after (.drSwapReceived Port.c1 true) s
    (s.part.variant.hasPort Port.c1 = true ∧ s.mode = .active ∧ (s.prt Port.c1).role ≠ .none) ∧
    (saidB t .c1 false Pd.reject = true ∧ (t.prt Port.c1).role = (s.prt Port.c1).role) := by decide +kernel

theorem test_frs_fail :
    let s : State := sinking
    let t := after (.frsFail Port.c1 40) s
    (s.part.variant.hasPort Port.c1 = true ∧ s.mode = .active ∧ (s.prt Port.c1).role = .sink ∧ s.frsArmed Port.c1 = false ∧ 40 ≤ 40) ∧
    (postedB s t (portSrc Port.c1 + 9) 0 = true ∧ (t.prt Port.c1).role = .sink) := by decide +kernel

theorem test_frs_signal :
    let s : State := ({ sinking with pdp := { sinking.pdp with p1 := { sinking.pdp.p1 with cfgIn := 0x1C00, frsI := 1 } } } : State).seeVbat 16000
    let t := after (.frsSignal Port.c1 40 4700) s
    (s.part.variant.hasPort Port.c1 = true ∧ s.mode = .active ∧ (s.prt Port.c1).role ≠ .none ∧ s.frsArmed Port.c1 = true ∧ 40 ≤ 40 ∧ 4700 < 4750 ∧ (s.cnv.x.get Port.c1).stopped = false) ∧
    ((t.cnv.x.get Port.c1).run = true ∧ (t.cnv.x.get Port.c1).vtgt = 5000 ∧ (t.prt Port.c1).frs = true ∧ saidB t .c1 false Pd.frSwap = true) := by decide +kernel

theorem test_frs_send :
    let s : State := { sourcing with pp := { sourcing.pp with conn := none }, pdp := { sourcing.pdp with p1 := { sourcing.pdp.p1 with cfgIn := 0x1C00, partner := [0x1912C#32], rev := 2 } } }
    let t := after (.frsSend Port.c1) s
    (s.part.variant.hasPort Port.c1 = true ∧ s.mode = .active ∧ (s.prt Port.c1).role = .source ∧ (s.prt Port.c1).frsEn = true ∧ (s.prt Port.c1).rev = 2 ∧ (s.cnv.x.get Port.c1).run = true ∧ s.pp.conn = none ∧ s.batteryCan = false) ∧
    (((t.prt Port.c1).sent.any fun m => m.signal == .frSwap) = true ∧ (t.prt Port.c1).swapTo = .sink ∧ (t.prt Port.c1).frs = true ∧ (t.cnv.x.get Port.c1).run = false ∧ postedB s t (portSrc Port.c1 + 8) 0 = true) := by decide +kernel

theorem test_fr_swap :
    let s : State := { sourcing with pdp := { sourcing.pdp with p1 := { sourcing.pdp.p1 with swapTo := .sink, frs := true } } }
    let t := after (.frSwapReceived Port.c1) s
    (s.part.variant.hasPort Port.c1 = true ∧ s.mode = .active ∧ (s.prt Port.c1).role = .source ∧ (s.prt Port.c1).swapTo = .sink ∧ (s.prt Port.c1).frs = true) ∧
    ((t.prt Port.c1).role = .sink ∧ (t.prt Port.c1).wait = .psRdy ∧ saidB t .c1 false Pd.accept = true) := by decide +kernel

theorem test_hard_reset :
    let s : State := sourcing
    let t := after (.hardResetReceived Port.c1) s
    (s.part.variant.hasPort Port.c1 = true ∧ s.mode = .active ∧ (s.prt Port.c1).role ≠ .none) ∧
    ((t.prt Port.c1).contract = none ∧ (t.prt Port.c1).wait = .none ∧ t.reg (Reg.pdpHresets Port.c1.ix) = min 255 (s.reg (Reg.pdpHresets Port.c1.ix) + 1) ∧ ((s.prt Port.c1).role = .source → (t.cnv.x.get Port.c1).run = false)) := by decide +kernel

theorem test_soft_reset :
    let s : State := sinking
    let t := after (.softResetReceived Port.c1) s
    (s.part.variant.hasPort Port.c1 = true ∧ s.mode = .active ∧ (s.prt Port.c1).role ≠ .none) ∧
    ((t.prt Port.c1).contract = (s.prt Port.c1).contract ∧ (t.prt Port.c1).next = none ∧ saidB t .c1 false Pd.accept = true) := by decide +kernel

theorem test_sink_capabilities :
    let s : State := sourcing
    let t := after (.sinkCapabilities Port.c1 [0x1912C#32]) s
    (s.part.variant.hasPort Port.c1 = true ∧ s.mode = .active ∧ (s.prt Port.c1).role ≠ .none) ∧
    ((t.prt Port.c1).snkCaps = [0x1912C#32] ∧ (t.prt Port.c1).role = (s.prt Port.c1).role) := by decide +kernel

theorem test_get_source_cap :
    let s : State := sinking
    let t := after (.getSourceCap Port.c1) s
    (s.part.variant.hasPort Port.c1 = true ∧ s.mode = .active ∧ (s.prt Port.c1).role ≠ .none ∧ ((s.prt Port.c1).roleIn = 1 ∨ (s.prt Port.c1).roleIn = 3)) ∧
    (saidDataB t .c1 Pd.sourceCaps = true) := by decide +kernel

theorem test_get_source_cap_not :
    let s : State := { sinking with pdp := { sinking.pdp with p1 := { sinking.pdp.p1 with roleIn := 2 } } }
    let t := after (.getSourceCap Port.c1) s
    (s.part.variant.hasPort Port.c1 = true ∧ s.mode = .active ∧ (s.prt Port.c1).role ≠ .none ∧ (s.prt Port.c1).roleIn ≠ 1 ∧ (s.prt Port.c1).roleIn ≠ 3) ∧
    (saidB t .c1 false Pd.notSupported = true) := by decide +kernel

theorem test_get_sink_cap :
    let s : State := sinking
    let t := after (.getSinkCap Port.c1) s
    (s.part.variant.hasPort Port.c1 = true ∧ s.mode = .active ∧ (s.prt Port.c1).role ≠ .none ∧ ((s.prt Port.c1).roleIn = 2 ∨ (s.prt Port.c1).roleIn = 3)) ∧
    (saidDataB t .c1 Pd.sinkCaps = true) := by decide +kernel

theorem test_get_sink_cap_not :
    let s : State := { sourcing with pdp := { sourcing.pdp with p1 := { sourcing.pdp.p1 with roleIn := 1 } } }
    let t := after (.getSinkCap Port.c1) s
    (s.part.variant.hasPort Port.c1 = true ∧ s.mode = .active ∧ (s.prt Port.c1).role ≠ .none ∧ (s.prt Port.c1).roleIn ≠ 2 ∧ (s.prt Port.c1).roleIn ≠ 3) ∧
    (saidB t .c1 false Pd.notSupported = true) := by decide +kernel

theorem test_get_status_received :
    let s : State := sinking
    let t := after (.getStatusReceived Port.c1) s
    (s.part.variant.hasPort Port.c1 = true ∧ s.mode = .active ∧ (s.prt Port.c1).role ≠ .none ∧ ((s.prt Port.c1).heard 0).rev ≠ 1) ∧
    (saidB t .c1 true Pd.status = true) := by decide +kernel

theorem test_get_status_rev2 :
    let s : State := { sinking with pdp := { sinking.pdp with p1 := { sinking.pdp.p1 with rev := 1 } } }
    let t := after (.getStatusReceived Port.c1) s
    (s.part.variant.hasPort Port.c1 = true ∧ s.mode = .active ∧ (s.prt Port.c1).role ≠ .none ∧ ((s.prt Port.c1).heard 0).rev = 1) ∧
    ((t.prt Port.c1).sent.length = 1) := by decide +kernel

theorem test_good_crc_alone :
    ((after (.getStatusReceived .c1) { sinking with pdp := { sinking.pdp with p1 := { sinking.pdp.p1 with rev := 1 } } }).prt .c1).sent
      = [⟨.message, false, Pd.goodCrc, (Config.partnerId sinking.free).toNat, []⟩] := by rfl

theorem test_good_crc_first :
    ((after (.drSwapReceived .c1 true) sourcing).prt .c1).sent.head?
      = some ⟨.message, false, Pd.goodCrc, (Config.partnerId sourcing.free).toNat, []⟩ := by rfl

theorem test_get_pps_status_received :
    let s : State := sourcing
    let t := after (.getPpsStatusReceived Port.c1 5000 100) s
    (s.part.variant.hasPort Port.c1 = true ∧ s.mode = .active ∧ (s.prt Port.c1).role ≠ .none ∧ ((s.prt Port.c1).heard 0).rev ≠ 1) ∧
    (saidB t .c1 true Pd.ppsStatus = true) := by decide +kernel

theorem test_get_source_cap_ext :
    let s : State := sourcing
    let t := after (.getSourceCapExtended Port.c1) s
    (s.part.variant.hasPort Port.c1 = true ∧ s.mode = .active ∧ (s.prt Port.c1).role ≠ .none ∧ ((s.prt Port.c1).heard 0).rev ≠ 1) ∧
    (saidB t .c1 true Pd.srcCapExt = true) := by decide +kernel

theorem test_not_supported :
    let s : State := sourcing
    let t := after (.notSupportedMessage Port.c1 true false 17 []) s
    (s.part.variant.hasPort Port.c1 = true ∧ s.mode = .active ∧ (s.prt Port.c1).role ≠ .none ∧ ((s.prt Port.c1).heard 0).rev ≠ 1) ∧
    (saidB t .c1 false Pd.notSupported = true) := by decide +kernel

theorem test_alert :
    let s : State := sinking
    let t := after (.alertReceived Port.c1 0x2000000#32) s
    (s.part.variant.hasPort Port.c1 = true ∧ s.mode = .active ∧ (s.prt Port.c1).role ≠ .none ∧ ((s.prt Port.c1).heard 0).rev ≠ 1) ∧
    ((t.prt Port.c1).wait = .status ∧ saidB t .c1 false Pd.getStatus = true) := by decide +kernel

theorem test_discover :
    let s : State := sourcing
    let t := after (.discoverIdentity Port.c1) s
    (s.part.variant.hasPort Port.c1 = true ∧ s.mode = .active ∧ (s.prt Port.c1).role ≠ .none) ∧
    (saidDataB t .c1 Pd.vendor = true) := by decide +kernel

theorem test_bist :
    let s : State := sinking
    let t := after (.bistCarrierMode Port.c1 5500) s
    (s.part.variant.hasPort Port.c1 = true ∧ s.mode = .active ∧ (s.prt Port.c1).role ≠ .none) ∧
    ((t.prt Port.c1).bist = decide (4750 ≤ 5500 ∧ 5500 ≤ 5500)) := by decide +kernel

theorem test_bist_above :
    let s : State := sinking
    let t := after (.bistCarrierMode Port.c1 5501) s
    (s.part.variant.hasPort Port.c1 = true ∧ s.mode = .active ∧ (s.prt Port.c1).role ≠ .none) ∧
    ((t.prt Port.c1).bist = false) := by decide +kernel

theorem test_pdp_renegotiate :
    (let s : State := drp
    let t := after (.pdpRenegotiate Port.c1) s
    (s.part.variant.hasPort Port.c1 = true ∧ s.mode = .active ∧ (s.prt Port.c1).role = .none) ∧
    (t = s.setFld (Reg.pdpCtl Port.c1.ix) 12 4 2)) ∧
    (let s : State := sourcing
    let t := after (.pdpRenegotiate Port.c1) s
    (s.part.variant.hasPort Port.c1 = true ∧ s.mode = .active ∧ (s.prt Port.c1).role = .source ∧ (s.cnv.x.get Port.c1).run = true) ∧
    (t.fld (Reg.pdpCtl Port.c1.ix) 12 4 = 1 ∧ (t.prt Port.c1).capsSent = (s.prt Port.c1).capsSent + 1)) ∧
    (let s : State := sinking
    let t := after (.pdpRenegotiate Port.c1) s
    (s.part.variant.hasPort Port.c1 = true ∧ s.mode = .active ∧ (s.prt Port.c1).role = .sink ∧ (s.prt Port.c1).partner ≠ [] ∧ (s.chooseRequest Port.c1 (s.prt Port.c1).partner).isSome = true) ∧
    (t.fld (Reg.pdpCtl Port.c1.ix) 12 4 = 1 ∧ (t.prt Port.c1).waits = 0 ∧ (t.prt Port.c1).wait = .request)) := by decide +kernel

/-- A dual-role sink that knows no capabilities of its partner asks for them. -/
theorem test_renegotiate_asks :
    let s : State := { sinking with pdp := { sinking.pdp with p1 := { sinking.pdp.p1 with partner := [] } } }
    let t := after (.pdpRenegotiate .c1) s
    (s.part.variant.hasPort .c1 = true ∧ s.mode = .active ∧ (s.prt .c1).role = .sink ∧ (s.prt .c1).partner = [] ∧ (s.prt .c1).roleIn = 3) ∧
    (t.fld (Reg.pdpCtl 0) 12 4 = 1 ∧ (t.prt .c1).wait = .sourceCap ∧ saidB t .c1 false Pd.getSourceCap = true) := by decide +kernel

theorem test_ctl_unattached_hard :
    let s : State := drp
    let t := after (.pdpHardReset Port.c1) s
    (s.part.variant.hasPort Port.c1 = true ∧ s.mode = .active ∧ (s.prt Port.c1).role = .none) ∧
    (t = s.setFld (Reg.pdpCtl Port.c1.ix) 12 4 2) := by decide +kernel

theorem test_pdp_hard_reset :
    let s : State := sinking
    let t := after (.pdpHardReset Port.c1) s
    (s.part.variant.hasPort Port.c1 = true ∧ s.mode = .active ∧ (s.prt Port.c1).role ≠ .none) ∧
    (t.fld (Reg.pdpCtl Port.c1.ix) 12 4 = 1 ∧ (t.prt Port.c1).contract = none ∧ t.reg (Reg.pdpHresets Port.c1.ix) = min 255 (s.reg (Reg.pdpHresets Port.c1.ix) + 1)) := by decide +kernel

theorem test_ctl_unattached_soft :
    let s : State := drp
    let t := after (.pdpSoftReset Port.c1) s
    (s.part.variant.hasPort Port.c1 = true ∧ s.mode = .active ∧ (s.prt Port.c1).role = .none) ∧
    (t = s.setFld (Reg.pdpCtl Port.c1.ix) 12 4 2) := by decide +kernel

theorem test_pdp_soft_reset :
    let s : State := sinking
    let t := after (.pdpSoftReset Port.c1) s
    (s.part.variant.hasPort Port.c1 = true ∧ s.mode = .active ∧ (s.prt Port.c1).role ≠ .none) ∧
    (t.fld (Reg.pdpCtl Port.c1.ix) 12 4 = 1 ∧ (t.prt Port.c1).wait = .softReset ∧ saidB t .c1 false Pd.softReset = true) := by decide +kernel

theorem test_ctl_unattached_swap :
    let s : State := drp
    let t := after (.pdpPrSwap Port.c1) s
    (s.part.variant.hasPort Port.c1 = true ∧ s.mode = .active ∧ (s.prt Port.c1).role = .none) ∧
    (t = s.setFld (Reg.pdpCtl Port.c1.ix) 12 4 2) := by decide +kernel

theorem test_pdp_pr_swap :
    let s : State := sourcing
    let t := after (.pdpPrSwap Port.c1) s
    (s.part.variant.hasPort Port.c1 = true ∧ s.mode = .active ∧ (s.prt Port.c1).role = .source ∧ (s.prt Port.c1).roleIn = 3 ∧ (s.prt Port.c1).rev ≠ 0) ∧
    (t.fld (Reg.pdpCtl Port.c1.ix) 12 4 = 1 ∧ (t.prt Port.c1).wait = .prSwap ∧ saidB t .c1 false Pd.prSwap = true) := by decide +kernel

theorem test_ctl_unattached_get :
    let s : State := drp
    let t := after (.pdpGetStatus Port.c1) s
    (s.part.variant.hasPort Port.c1 = true ∧ s.mode = .active ∧ (s.prt Port.c1).role = .none) ∧
    (t = s.setFld (Reg.pdpCtl Port.c1.ix) 12 4 2) := by decide +kernel

theorem test_pdp_get_status :
    let s : State := sinking
    let t := after (.pdpGetStatus Port.c1) s
    (s.part.variant.hasPort Port.c1 = true ∧ s.mode = .active ∧ (s.prt Port.c1).role ≠ .none ∧ (s.prt Port.c1).rev = 2) ∧
    (t.fld (Reg.pdpCtl Port.c1.ix) 12 4 = 1 ∧ (t.prt Port.c1).wait = .status ∧ saidB t .c1 false Pd.getStatus = true) := by decide +kernel

theorem test_pdp_get_pps_status :
    let s : State := sinking
    let t := after (.pdpGetPpsStatus Port.c1) s
    (s.part.variant.hasPort Port.c1 = true ∧ s.mode = .active ∧ (s.prt Port.c1).role ≠ .none ∧ (s.prt Port.c1).rev = 2) ∧
    (t.fld (Reg.pdpCtl Port.c1.ix) 12 4 = 1 ∧ (t.prt Port.c1).wait = .ppsStatus ∧ saidB t .c1 false Pd.getPpsStatus = true) := by decide +kernel

theorem test_pdp_get_src_cap_ext :
    let s : State := sinking
    let t := after (.pdpGetSrcCapExt Port.c1) s
    (s.part.variant.hasPort Port.c1 = true ∧ s.mode = .active ∧ (s.prt Port.c1).role ≠ .none ∧ (s.prt Port.c1).rev = 2) ∧
    (t.fld (Reg.pdpCtl Port.c1.ix) 12 4 = 1 ∧ (t.prt Port.c1).wait = .capExt ∧ saidB t .c1 false Pd.getSrcCapExt = true) := by decide +kernel

theorem test_pdp_role :
    let s : State := drp
    let t := after (.pdpRoleCfg Port.c1 false 1#16) s
    (s.part.variant.hasPort Port.c1 = true ∧ s.mode = .active) ∧
    (t.reg (Reg.pdpRole Port.c1.ix) = storeFields (fieldsOf (Reg.pdpRole Port.c1.ix)) (s.reg (Reg.pdpRole Port.c1.ix)) (1#16).toNat % 65536 ∧ (t.prt Port.c1).roleIn = (if (s.prt Port.c1).role = .none then t.reg (Reg.pdpRole Port.c1.ix) else (s.prt Port.c1).roleIn)) := by decide +kernel

theorem test_pdp_cfg :
    let s : State := sourcing
    let t := after (.pdpRoleCfg Port.c1 true 0xC01#16) s
    (s.part.variant.hasPort Port.c1 = true ∧ s.mode = .active) ∧
    (t.flag (Reg.pdpCfg Port.c1.ix) 5 = true ∧ (t.prt Port.c1).cfgIn = (if (s.prt Port.c1).role = .none then t.reg (Reg.pdpCfg Port.c1.ix) else (s.prt Port.c1).cfgIn)) := by decide +kernel

/-! 10, Quiden Link. -/

theorem test_listen_timeout :
    (let s : State := { linked .listen with lnk := { (linked .listen).lnk with listenMs := 300 } }
    (s.lnkUp = true ∧ s.lnk.state = .listen ∧ s.lnk.listenMs ≤ 300 ∧ s.leadAllow = true) ∧
    ((after (.listenTimeout .nothing 300) s).lnk.state = .claiming
      ∧ (after (.listenTimeout .claimSync 300) s).lnk.state = .claiming
      ∧ (after (.listenTimeout .claimLater 300) s).lnk.state = .listen
      ∧ (after (.listenTimeout .claimLater 300) s).lnk.listenMs = 300
      ∧ (after (.listenTimeout .beaconSync 300) s).lnk.state = .listen
      ∧ (after (.listenTimeout .beaconSync 300) s).lnk.listenMs = s.lnk.listenMs)) ∧
    (let s : State := (linked .listen).setFlag Reg.lnkCfg 1 false
    let t := after (.listenTimeout .nothing 300) s
    (s.lnkUp = true ∧ s.lnk.state = .listen ∧ s.lnk.listenMs ≤ 300 ∧ s.leadAllow = false) ∧
    (t.lnk.state = .listen ∧ t.free = s.free + 1)) := by decide +kernel

theorem test_claim_start :
    let s : State := linked .claiming
    let t := after (.claimStart 200 false) s
    (s.lnkUp = true ∧ s.lnk.state = .claiming ∧ s.lnk.air = none ∧ 200 ≤ 200) ∧
    (((match t.lnk.sent with | [f] => decide (t.lnk.air = some (f, 0) ∧ f.typ = 2 ∧ f.claim = some (s.lnkPrio, s.part.uid)) | _ => decide (False)) = true)) := by decide +kernel

theorem test_claim_heard :
    let s : State := linked .listen
    let t := after (.claimHeard) s
    (s.lnkUp = true ∧ s.lnk.state = .listen) ∧
    (t.lnk.state = .listen ∧ t.lnk.sent = [] ∧ t.lnk.listenMs = 300 ∧ t.free = s.free + 1) := by decide +kernel

theorem test_claim_withdraw :
    let s : State := { linked .claiming with lnk := { (linked .claiming).lnk with air := some (⟨2, false, false, 0, 0, 0, none, []⟩, 0) } }
    let t := after (.claimWithdraw 0 true) s
    (s.lnkUp = true ∧ s.lnk.state = .claiming ∧ s.lnk.air ≠ none ∧ 0 < 52 ∧ bit s.ownClaim (51 - 0) = true) ∧
    (t.lnk.state = .listen ∧ t.lnk.listenMs = 300 ∧ t.lnk.air = none ∧ t.lnk.txq = []) := by decide +kernel

theorem test_claim_end :
    let s : State := { linked .claiming with lnk := { (linked .claiming).lnk with air := some (⟨2, false, false, 0, 0, 0, none, []⟩, 0) } }
    let t := after (.claimEnd) s
    (s.lnkUp = true ∧ s.lnk.state = .claiming ∧ s.lnk.air ≠ none) ∧
    (t.lnk.state = .lead ∧ t.lnk.short = 0 ∧ t.lnk.lead = s.part.uid ∧ t.lnk.members = [] ∧ t.lnk.air = none) := by decide +kernel

theorem test_beacon_received :
    (let s : State := linked .listen
    let t := after (.beaconReceived ⟨7, 9, 3, 4, 0xFF, false, []⟩) s
    (s.lnkUp = true ∧ s.lnk.state = .listen) ∧
    (t.lnk.state = .joining ∧ t.lnk.lead = (⟨7, 9, 3, 4, 0xFF, false, []⟩ : Beacon).leadId ∧ t.lnk.bc = (⟨7, 9, 3, 4, 0xFF, false, []⟩ : Beacon).bc ∧ (t.lnk.txq.any fun f => decide (f.typ = 3 ∧ f.dst = 0 ∧ f.ack = true)) = true)) ∧
    (let s : State := linked .member
    let t := after (.beaconReceived ⟨7, 5, 3, 4, 3, true, [⟨3, true, 20⟩]⟩) s
    (s.lnkUp = true ∧ s.lnk.state = .member ∧ (⟨7, 5, 3, 4, 3, true, [⟨3, true, 20⟩]⟩ : Beacon).leadId = s.lnk.lead) ∧
    (t.lnk.bc = (⟨7, 5, 3, 4, 3, true, [⟨3, true, 20⟩]⟩ : Beacon).bc ∧ t.lnk.count = (⟨7, 5, 3, 4, 3, true, [⟨3, true, 20⟩]⟩ : Beacon).members ∧ t.lnk.state = .member)) ∧
    (let s : State := leading
    let t := after (.beaconReceived ⟨7, 5, 0, 4, 3, true, [⟨3, true, 20⟩]⟩) s
    (s.lnkUp = true ∧ s.lnk.state = .lead ∧ (⟨7, 5, 0, 4, 3, true, [⟨3, true, 20⟩]⟩ : Beacon).leadId ≠ s.part.uid ∧ claimValue (⟨7, 5, 0, 4, 3, true, [⟨3, true, 20⟩]⟩ : Beacon).prio (⟨7, 5, 0, 4, 3, true, [⟨3, true, 20⟩]⟩ : Beacon).leadId < s.ownClaim) ∧
    (t.lnk.state = .listen ∧ t.lnk.members = [])) := by decide +kernel

theorem test_join_received :
    let s : State := leading
    let t := after (.joinReceived 77 4 2) s
    (s.lnkUp = true ∧ s.lnk.state = .lead ∧ s.lnk.members.find? (·.id == (77 : BitVec 48)) = none ∧ s.lnk.freeShort.isSome = true ∧ s.isRepeat 0xFE 2 (ackKey 0x3 (leBytes 6 (77 : BitVec 48).toNat ++ leBytes 1 4)) = false) ∧
    (((match t.lnk.members.drop s.lnk.members.length with | [m] => decide (some m.short = s.lnk.freeShort ∧ m.id = (77 : BitVec 48) ∧ t.lnk.members = s.lnk.members ++ [m]) | _ => decide (False)) = true) ∧ (t.lnk.txq.any fun f => decide (f.typ = 4 ∧ f.dst = 0xFE)) = true ∧ (t.lnk.sent.any fun f => decide (f.typ = 0xF ∧ f.seq = 2)) = true) := by decide +kernel

theorem test_join_again :
    let s : State := leading
    let t := after (.joinReceived 7 4 2) s
    (s.lnkUp = true ∧ s.lnk.state = .lead ∧ (s.lnk.members.find? (·.id == (7 : BitVec 48))).isSome = true ∧ s.isRepeat 0xFE 2 (ackKey 0x3 (leBytes 6 (7 : BitVec 48).toNat ++ leBytes 1 4)) = false) ∧
    (t.lnk.members = s.lnk.members ∧ (t.lnk.txq.any fun f => decide (f.typ = 4)) = true) := by decide +kernel

theorem test_join_ack :
    let s : State := linked .joining
    let t := after (.joinAckReceived State.reset.part.uid 9) s
    (s.lnkUp = true ∧ s.lnk.state = .joining ∧ s.part.uid = State.reset.part.uid) ∧
    (t.lnk.state = .member ∧ t.lnk.short = 9) := by decide +kernel

theorem test_join_refused :
    let s : State := linked .joining
    let t := after (.joinAckReceived State.reset.part.uid 0xFE) s
    (s.lnkUp = true ∧ s.lnk.state = .joining ∧ s.part.uid = State.reset.part.uid) ∧
    (t.lnk.state = .joining ∧ t.lnk.refused = true) := by decide +kernel

theorem test_join_retry :
    let s : State := linked .joining
    let t := after (.joinRetry 300) s
    (s.lnkUp = true ∧ s.lnk.state = .joining ∧ (if s.lnk.refused then 10000 else 300) ≤ 300) ∧
    (t.lnk.refused = false ∧ ((match t.lnk.txq with | [f] => decide (f.typ = 3) | _ => decide (False)) = true)) := by decide +kernel

theorem test_beacon_grant_loss :
    let s : State := { linked .member with lnk := { (linked .member).lnk with grant := some (true, 10) } }
    let t := after (.beaconGrantLoss 300) s
    (s.lnkUp = true ∧ s.lnk.state ≠ .lead ∧ 300 ≤ 300) ∧
    (t.lnk.grant = none ∧ t.lnk.state = s.lnk.state) := by decide +kernel

theorem test_beacon_lost :
    let s : State := linked .member
    let t := after (.beaconLost 500) s
    (s.lnkUp = true ∧ s.lnk.state = .member ∧ 500 ≤ 500) ∧
    (t.lnk.state = .listen ∧ t.lnk.grant = none) := by decide +kernel

theorem test_leave_received :
    (let s : State := leading
    let t := after (.leaveReceived 1 false) s
    (s.lnkUp = true ∧ s.lnk.state = .lead) ∧
    ((t.lnk.members.all fun m => decide (m.short ≠ 1)) = true)) ∧
    (let s : State := leading
    let t := after (.leaveReceived 3 true) s
    (s.lnkUp = true ∧ s.lnk.state = .lead) ∧
    ((t.lnk.members.all fun m => decide (m.short ≠ 3)) = true)) ∧
    (let s : State := linked .member
    let t := after (.leaveReceived 0 true) s
    (s.lnkUp = true ∧ s.lnk.state = .member) ∧
    (t.lnk.state = .listen)) := by decide +kernel

theorem test_beacon_send :
    let s : State := leading
    let t := after (.beaconSend) s
    (s.lnkUp = true ∧ s.lnk.state = .lead) ∧
    (t.lnk.bc = (if s.lnk.count = 0 then 0 else s.lnk.bc + 1) ∧ t.lnk.count = t.lnk.members.length + 1 ∧ (t.lnk.sent.any fun f => decide (f.typ = 1 ∧ f.dst = 0xFF)) = true) := by decide +kernel

theorem test_status_send :
    let s : State := linked .member
    let t := after (.statusSend) s
    (s.lnkUp = true ∧ s.lnk.state = .member ∧ s.lnk.bc.toNat % 8 = s.lnk.short / 4) ∧
    (t.lnk.state = .member ∧ (t.lnk.sent.any fun f => decide (f.typ = 5 ∧ f.dst = 0)) = true) := by decide +kernel

theorem test_status_received :
    let s : State := leading
    let t := after (.statusReceived 1 ⟨3, 10, 20, 50, 7, 2⟩) s
    (s.lnkUp = true ∧ s.lnk.state = .lead ∧ ((⟨1, 7, 3, 0, 5, 6, 50, 10, 2, false⟩ : Member) ∈ s.lnk.members)) ∧
    ((t.lnk.members.any fun z => decide (z.id = 7 ∧ z.offer = 10 ∧ z.demand = 20 ∧ z.heard = true ∧ z.rounds = 0)) = true) := by decide +kernel

theorem test_test_req :
    let s : State := { leading with lnk := { leading.lnk with holder := some 0 } }
    let t := after (.testReqReceived 1 .function 60 2) s
    (s.lnkUp = true ∧ s.lnk.state = .lead ∧ s.lnk.holder ≠ none ∧ s.isRepeat 1 2 (ackKey 0x6 (leBytes 1 (testCode .function) ++ leBytes 4 60)) = false) ∧
    (t.lnk.slots = s.lnk.slots ++ [⟨1, .function, 60⟩] ∧ t.lnk.holder = s.lnk.holder ∧ (t.lnk.sent.any fun f => decide (f.typ = 0xF ∧ f.dst = 1)) = true) := by decide +kernel

theorem test_test_req_repeat :
    let s : State := { leading with lnk := { leading.lnk with holder := some 0, last := [(1, (2, ackKey 0x6 [1, 60, 0, 0, 0]))] } }
    let t := after (.testReqReceived 1 .function 60 2) s
    (s.lnkUp = true ∧ s.lnk.state = .lead ∧ s.isRepeat 1 2 (ackKey 0x6 (leBytes 1 (testCode .function) ++ leBytes 4 60)) = true) ∧
    (t.lnk.slots = s.lnk.slots ∧ (t.lnk.sent.any fun f => decide (f.typ = 0xF ∧ f.dst = 1)) = true) := by decide +kernel

theorem test_test_grant :
    let s : State := { scheduled with lnk := { (linked .member).lnk with lead := 5 }, emg := { scheduled.emg with due := some ⟨.function, 0, 900, false, 0, false⟩, waitSlot := true } }
    (s.lnkUp = true ∧ s.lnk.state = .member ∧ s.isRepeat 0 1 (ackKey 0x7 (leBytes 1 (testCode .function))) = false ∧ s.emg.due = some ⟨.function, 0, 900, false, 0, false⟩ ∧ s.emg.waitSlot = true ∧ s.testReady .function = true) := by decide +kernel

theorem test_test_end :
    let s : State := { leading with lnk := { leading.lnk with holder := some 1, slotSecs := 60 } }
    let t := after (.testEndReceived 1 1 2) s
    (s.lnkUp = true ∧ s.lnk.state = .lead ∧ s.lnk.holder = some 1 ∧ s.lnk.slots = [] ∧ s.isRepeat 1 2 (ackKey 0x8 [1]) = false) ∧
    (t.lnk.holder = none ∧ t.lnk.slotSecs = 0) := by decide +kernel

theorem test_slot_timeout :
    let s : State := { leading with lnk := { leading.lnk with holder := some 1, slotSecs := 60 } }
    let t := after (.slotTimeout 121) s
    (s.lnkUp = true ∧ s.lnk.state = .lead ∧ s.lnk.holder.isSome = true ∧ s.lnk.slots = [] ∧ s.lnk.slotSecs * 101 + 6000 ≤ 121 * 100) ∧
    (t.lnk.holder = none) := by decide +kernel

/-- A doorbell, and data, of node 4 with an ACK request. -/
def bell : AgentFrame := ⟨4, false, true, true, 1, [31]⟩
def dataIn : AgentFrame := ⟨4, false, false, true, 1, [1, 2, 3]⟩

theorem test_doorbell_denied :
    let s : State := linked .member
    s.lnkUp = true ∧ s.hears bell = true ∧ s.freshFrame bell 0x9 = true ∧ s.dbAllowed (bell.payload.headD 0).toNat = false
      ∧ asksAck bell = true := by decide +kernel

theorem test_doorbell_allowed :
    let s : State := (linked .member).setReg (Reg.sysDballow + 1) 0x8000
    s.lnkUp = true ∧ s.hears bell = true ∧ s.freshFrame bell 0x9 = true ∧ s.dbAllowed (bell.payload.headD 0).toNat = true
      ∧ bell.payload.drop 1 = [] := by decide +kernel

theorem test_doorbell_payload :
    let f : AgentFrame := ⟨4, false, true, true, 1, [31, 7]⟩
    let s : State := (linked .member).setReg (Reg.sysDballow + 1) 0x8000
    s.lnkUp = true ∧ s.hears f = true ∧ s.freshFrame f 0x9 = true ∧ s.dbAllowed (f.payload.headD 0).toNat = true ∧ f.payload.drop 1 ≠ []
      ∧ s.ringFits 22 (1 + contCount (f.payload.drop 1).length) = true := by decide +kernel

/-- The frame that node 4 sent last comes again. -/
theorem test_repeated_frame :
    let s : State := { linked .member with lnk := { (linked .member).lnk with last := [(4, (1, ackKey 0xA [1, 2, 3]))] } }
    let s' : State := { linked .member with lnk := { (linked .member).lnk with last := [(4, (1, ackKey 0x9 [31]))] } }
    (s.hears dataIn = true ∧ asksAck dataIn = true ∧ s.freshFrame dataIn 0xA = false)
      ∧ ((after (.dataReceived dataIn) s).lnk.sent.any fun m => decide (m.typ = 0xF ∧ m.dst = 4)) = true
      ∧ (s'.hears bell = true ∧ asksAck bell = true ∧ s'.freshFrame bell 0x9 = false)
      ∧ ((after (.doorbellReceived bell) s').lnk.sent.any fun m => decide (m.typ = 0xF ∧ m.dst = 4)) = true := by decide +kernel

theorem test_data_received :
    let s : State := linked .member
    let t := after (.dataReceived dataIn) s
    (s.lnkUp = true ∧ s.hears dataIn = true ∧ s.freshFrame dataIn 0xA = true ∧ s.ringFits 20 (1 + contCount dataIn.payload.length) = true ∧ asksAck dataIn = true) ∧
    (t.lnk.rx.p1.getLast? = some (rxHeader dataIn 0xA 3 ++ [1, 2, 3]) ∧ (t.lnk.sent.any fun m => decide (m.typ = 0xF ∧ m.dst = 4 ∧ m.seq = 1)) = true) := by decide +kernel

theorem test_data_no_room :
    let s : State := { linked .member with fab := fed.fab.setRing 20 { fed.fab.ring 20 with items := [4096] } }
    let t := after (.dataReceived dataIn) s
    (s.lnkUp = true ∧ s.hears dataIn = true ∧ s.freshFrame dataIn 0xA = true ∧ s.ringFits 20 (1 + contCount dataIn.payload.length) = false) ∧
    (t.lnk.sent = [] ∧ t.lnk.rx = s.lnk.rx) := by decide +kernel

theorem test_ack_received :
    let s : State := { linked .member with lnk := { (linked .member).lnk with air := some (⟨10, true, false, 2, 3, 4, none, [1]⟩, 1) } }
    (s.lnkUp = true ∧ s.lnk.air = some ((⟨10, true, false, 2, 3, 4, none, [1]⟩ : Frame), 1) ∧ (⟨10, true, false, 2, 3, 4, none, [1]⟩ : Frame).ack = true) := by decide +kernel

theorem test_ack_timeout :
    let s : State := { linked .member with lnk := { (linked .member).lnk with air := some (⟨10, true, false, 2, 3, 4, none, [1]⟩, 1) } }
    let t := after (.ackTimeout 300) s
    (s.lnkUp = true ∧ s.lnk.air = some ((⟨10, true, false, 2, 3, 4, none, [1]⟩ : Frame), 1) ∧ (⟨10, true, false, 2, 3, 4, none, [1]⟩ : Frame).ack = true ∧ 1 < s.lnkRetries) ∧
    (t.lnk.air = some ((⟨10, true, false, 2, 3, 4, none, [1]⟩ : Frame), 1 + 1) ∧ t.regs = s.regs) := by decide +kernel

theorem test_ack_given_up :
    let s : State := { linked .member with lnk := { (linked .member).lnk with air := some (⟨10, true, false, 2, 3, 4, none, [1]⟩, 3) } }
    let t := after (.ackTimeout 300) s
    (s.lnkUp = true ∧ s.lnk.air = some ((⟨10, true, false, 2, 3, 4, none, [1]⟩ : Frame), 3) ∧ (⟨10, true, false, 2, 3, 4, none, [1]⟩ : Frame).ack = true ∧ s.lnkRetries ≤ 3) ∧
    (t.lnk.air = none ∧ t.reg Reg.lnkTxStat = 2 ∧ t.reg Reg.lnkNoack = min 65535 (s.reg Reg.lnkNoack + 1)) := by decide +kernel

theorem test_frame_transmit :
    let s : State := { linked .member with lnk := { (linked .member).lnk with txq := [⟨10, true, false, 2, 3, 4, none, [1]⟩] } }
    let t := after (.frameTransmit 900 10000) s
    (s.lnkUp = true ∧ s.lnk.air = none ∧ (s.lnk.txq = (⟨10, true, false, 2, 3, 4, none, [1]⟩ : Frame) :: s.lnk.txq.drop 1) ∧ (⟨10, true, false, 2, 3, 4, none, [1]⟩ : Frame).gains 900 10000 = true) ∧
    (t.lnk.sent = [(⟨10, true, false, 2, 3, 4, none, [1]⟩ : Frame)] ∧ t.lnk.txq = s.lnk.txq.drop 1 ∧ t.lnk.air = (if (⟨10, true, false, 2, 3, 4, none, [1]⟩ : Frame).ack then some ((⟨10, true, false, 2, 3, 4, none, [1]⟩ : Frame), 0) else none) ∧ ((⟨10, true, false, 2, 3, 4, none, [1]⟩ : Frame).ack = false → t.reg Reg.lnkTxStat = 1)) := by decide +kernel

theorem test_frame_transmit_no_ack :
    let s : State := { linked .member with lnk := { (linked .member).lnk with txq := [⟨9, false, true, 2, 3, 4, none, [1]⟩] } }
    let t := after (.frameTransmit 100 10000) s
    (s.lnkUp = true ∧ s.lnk.air = none ∧ (s.lnk.txq = (⟨9, false, true, 2, 3, 4, none, [1]⟩ : Frame) :: s.lnk.txq.drop 1) ∧ (⟨9, false, true, 2, 3, 4, none, [1]⟩ : Frame).gains 100 10000 = true) ∧
    (t.lnk.sent = [(⟨9, false, true, 2, 3, 4, none, [1]⟩ : Frame)] ∧ t.lnk.txq = s.lnk.txq.drop 1 ∧ t.lnk.air = (if (⟨9, false, true, 2, 3, 4, none, [1]⟩ : Frame).ack then some ((⟨9, false, true, 2, 3, 4, none, [1]⟩ : Frame), 0) else none) ∧ ((⟨9, false, true, 2, 3, 4, none, [1]⟩ : Frame).ack = false → t.reg Reg.lnkTxStat = 1)) := by decide +kernel

/-- Agent frames in ring 23: one entry of header and bytes. -/
def framed (k : LnkState) (len : Byte) : State :=
  let e : List Byte := [4, len, 10, 0, 7, 0, 0, 0, 0, 0, 0, 0, 0, 0, 0, 0]
  { linked k with fab := (fed.fab.setRing 23 { fed.fab.ring 23 with size := 4, base := 100, items := [1] }).putWord 1600 e }

theorem test_ring_transmit :
    (let s : State := framed .member 1
    let t := after (.frameTransmit 900 10000) s
    (s.lnkUp = true ∧ s.lnk.air = none ∧ s.lnk.txq = [] ∧ (match s.headFrame 23 with
      | some (n, bs) => s.badEntries 23 n == [] && decide (leNat (slice bs 1 1) ≤ 128) && s.lnk.joined && (s.agentFrame bs true).gains 900 10000
          && t.lnk.sent == [s.agentFrame bs true]
      | none => false) = true)) ∧
    (let s : State := framed .listen 1
    let t := after (.frameTransmit 900 10000) s
    (s.lnkUp = true ∧ s.lnk.air = none ∧ s.lnk.txq = [] ∧ (s.headFrame 23).isSome = true ∧ s.badEntries 23 1 = [] ∧ s.lnk.joined = false) ∧
    (t.lnk.sent = [] ∧ t.reg Reg.lnkTxStat = 3)) := by decide +kernel

theorem test_ring_too_long :
    let s : State := { framed .member 129 with fab := (framed .member 129).fab.setRing 23 { (framed .member 129).fab.ring 23 with items := [9] } }
    let t := after (.frameTransmit 900 10000) s
    (s.lnkUp = true ∧ s.lnk.air = none ∧ s.lnk.txq = [] ∧ (match s.headFrame 23 with
      | some (n, bs) => s.badEntries 23 n == [] && decide (128 < leNat (slice bs 1 1))
      | none => false) = true) ∧
    (t.lnk.sent = [] ∧ t.reg Reg.lnkTxStat = 4) := by decide +kernel

theorem test_capture :
    let s : State := linked .member
    let t := after (.capture 12 true false) s
    (s.lnkUp = true) ∧
    (t.reg Reg.lnkCaptured = min 65535 (s.reg Reg.lnkCaptured + 1) ∧ t.lnk.capRecent = true ∧ t.lnk.state = s.lnk.state) := by decide +kernel

theorem test_no_capture : exec (.capture 11 true false) (linked .member) = .next (linked .member)
    ∧ exec (.capture 12 true true) (linked .member) = .next (linked .member) := ⟨rfl, rfl⟩

theorem test_crc_error :
    let s : State := linked .member
    let t := after (.crcErrorFrame) s
    (s.lnkUp = true) ∧
    (t.reg Reg.lnkCrcErr = min 65535 (s.reg Reg.lnkCrcErr + 1) ∧ t.fab = s.fab) := by decide +kernel

theorem test_db_send :
    let s : State := linked .member
    let t := after (.lnkDbSend 1 4 31) s
    (s.lnkUp = true ∧ s.lnk.joined = true) ∧
    (((match t.lnk.txq.drop s.lnk.txq.length with | [f] => decide (t.lnk.txq = s.lnk.txq ++ [f] ∧ f.typ = 9 ∧ f.dst = 4 ∧ f.payload = [31]) | _ => decide (False)) = true)) := by decide +kernel

theorem test_db_send_not_joined :
    let s : State := linked .listen
    let t := after (.lnkDbSend 1 4 31) s
    (s.lnkUp = true ∧ s.lnk.joined = false) ∧
    (t.lnk.txq = s.lnk.txq ∧ t.reg Reg.lnkTxStat = 3) := by decide +kernel

theorem test_lnk_disable :
    let s : State := linked .member
    let t := after (.lnkDisable) s
    (s.lnkUp = true) ∧
    (t.lnk.state = .off ∧ t.lnk.grant = none ∧ t.lnk.txq = [] ∧ t.flag Reg.lnkCfg 0 = false) := by decide +kernel

/-- R375: 32 bits before a frame's header, 60 more in a CLAIM. -/
theorem test_on_bus :
    (⟨0xA, true, false, 2, 3, 4, none, [1]⟩ : Frame).onBus.take 17 = List.replicate 16 false ++ [true]
      ∧ (⟨0xA, true, false, 2, 3, 4, none, [1]⟩ : Frame).onBus.length + 60 = (⟨0xA, true, false, 2, 3, 4, some (8, 1), [1]⟩ : Frame).onBus.length := by decide +kernel

/-! 11, The serial port. -/

theorem test_window_write :
    (let s : State := served
    let t := after (.windowWrite 0 [0xFF, 1]) s
    (s.mode = .active ∧ s.pecOn (0 : Agent) = false) ∧
    ((t.ser.ag.get (0 : Agent)).ptr = 0x3F01 ∧ t.fld (Reg.serAgtStat (0 : Agent).val) 0 4 = 0 ∧ t.ser.acked = true ∧ t.fab = s.fab)) ∧
    (let s : State := served
    let t := after (.windowWrite 0 [BitVec.ofNat 8 (Reg.kprAlarm / 256), BitVec.ofNat 8 Reg.kprAlarm, 0x34, 0x12]) s
    (s.mode = .active ∧ s.pecOn (0 : Agent) = false ∧ s.pecMissing (0 : Agent) 0 = false ∧ s.canWrite (0 : Agent) 0 = true) ∧
    (t.reg Reg.kprAlarm = 0x1234 ∧ (t.ser.ag.get (0 : Agent)).ptr = Reg.kprAlarm + 1 ∧ t.fld (Reg.serAgtStat (0 : Agent).val) 0 4 = 0)) ∧
    (let s : State := fed.setReg 0x40 0
    let t := after (.windowWrite 0 [BitVec.ofNat 8 (Reg.kprAlarm / 256), BitVec.ofNat 8 Reg.kprAlarm, 0x34, 0x12]) s
    (s.mode = .active ∧ s.pecOn (0 : Agent) = false ∧ s.pecMissing (0 : Agent) 0 = false ∧ s.canWrite (0 : Agent) 0 = false) ∧
    (t.reg Reg.kprAlarm = s.reg Reg.kprAlarm ∧ t.flag (Reg.serAgtStat (0 : Agent).val) 4 = true ∧ t.fld (Reg.serAgtStat (0 : Agent).val) 0 4 = 2)) ∧
    (let s : State := served.setFlag (Reg.serAgtCfg 0) 2 true
    let t := after (.windowWrite 0 [0, 1, 2, 3, 4]) s
    (s.mode = .active ∧ s.pecOn (0 : Agent) = true ∧ 2 ≤ ([0, 1, 2, 3, 4] : List Byte).length ∧ ([0, 1, 2, 3, 4] : List Byte).getLast? ≠ some (pec (s.addrByte (0 : Agent) false :: ([0, 1, 2, 3, 4] : List Byte).dropLast))) ∧
    (t.fld (Reg.serAgtStat (0 : Agent).val) 0 4 = 3 ∧ t.flag (Reg.serAgtStat (0 : Agent).val) 5 = true ∧ t.reg (Reg.serAgtPecerrs (0 : Agent).val) = min 65535 (s.reg (Reg.serAgtPecerrs (0 : Agent).val) + 1) ∧ (t.ser.ag.get (0 : Agent)).ptr = (s.ser.ag.get (0 : Agent)).ptr)) := by decide +kernel

theorem test_window_read :
    let s : State := served
    let t := after (.windowRead 0 [BitVec.ofNat 8 (Reg.kprAlarm / 256), BitVec.ofNat 8 Reg.kprAlarm] 2) s
    (s.mode = .active ∧ s.pecOn (0 : Agent) = false ∧ s.pecMissing (0 : Agent) 0 = false ∧ s.canRead (0 : Agent) 0 = true ∧ (s.ser.ag.get (0 : Agent)).latches = []) ∧
    (t.ser.reply = leBytes 2 (s.reg Reg.kprAlarm) ∧ (t.ser.ag.get (0 : Agent)).ptr = Reg.kprAlarm + 1 ∧ t.fld (Reg.serAgtStat (0 : Agent).val) 0 4 = 0) := by decide +kernel

theorem test_window_read_denied :
    let s : State := fed.setReg 0x40 0
    let t := after (.windowRead 0 [BitVec.ofNat 8 (Reg.kprAlarm / 256), BitVec.ofNat 8 Reg.kprAlarm] 2) s
    (s.mode = .active ∧ s.pecOn (0 : Agent) = false ∧ s.pecMissing (0 : Agent) 0 = false ∧ s.canRead (0 : Agent) 0 = false) ∧
    (t.ser.reply = [0, 0] ∧ (t.ser.ag.get (0 : Agent)).ptr = Reg.kprAlarm + 1 ∧ t.flag (Reg.serAgtStat (0 : Agent).val) 4 = true ∧ t.fld (Reg.serAgtStat (0 : Agent).val) 0 4 = 2) := by decide +kernel

theorem test_pointer_read :
    let s : State := served.setAg 0 fun g => { g with ptr := Reg.kprAlarm }
    let t := after (.currentPointerRead 0 2) s
    (s.mode = .active ∧ s.pecOn (0 : Agent) = false ∧ s.pecMissing (0 : Agent) 0 = false ∧ s.canRead (0 : Agent) 0 = true ∧ (s.ser.ag.get (0 : Agent)).latches = [] ∧ (s.ser.ag.get (0 : Agent)).ptr = Reg.kprAlarm ∧ s.ser.frame = .none) ∧
    (t.ser.reply = leBytes 2 (s.reg Reg.kprAlarm) ∧ (t.ser.ag.get (0 : Agent)).ptr = Reg.kprAlarm + 1) := by decide +kernel

/-- R450: while an attention frame of the port stands, a current-pointer read answers it instead. -/
theorem test_pointer_read_attention :
    let s : State := { served with ser := { served.ser with frame := .attention 5 } }
    let t := after (.currentPointerRead 0 1) s
    (s.mode = .active ∧ s.ser.frame = .attention 5 ∧ 1 ≤ 1) ∧
    (t.ser.reply.head? = some 5 ∧ t.ser.frame = .none ∧ t.regs = s.regs ∧ (t.ser.ag.get 0).ptr = (s.ser.ag.get 0).ptr) := by decide +kernel

theorem test_summary :
    let s : State := called 1
    let t := after (.summary 0 ⟨[], some 2⟩) s
    (s.mode = .active ∧ s.pecOn (0 : Agent) = false ∧ ((List.range 64).all fun b => !s.pecMissing (0 : Agent) b) = true ∧ s.canRead (0 : Agent) (ownBank (0 : Agent)) = true) ∧
    (t.ser.reply = leBytes 2 (s.summary (0 : Agent)) ∧ t.fab = s.fab) := by decide +kernel

theorem test_claim :
    let s : State := called 1
    let t := after (.claim 0 ⟨[], some 9⟩) s
    (s.mode = .active ∧ s.pecOn (0 : Agent) = false ∧ ((List.range 64).all fun b => !s.pecMissing (0 : Agent) b) = true ∧ s.canRead (0 : Agent) (ownBank (0 : Agent)) = true) ∧
    (t.ser.reply = 8 :: (claimRec (best (s.claimable (0 : Agent)))).bytes ∧ t.fab = (s.claimBy (0 : Agent)).fab) := by decide +kernel

theorem test_ident :
    let s : State := served
    let t := after (.ident 0 ⟨[], some 9⟩) s
    (s.mode = .active ∧ s.pecOn (0 : Agent) = false ∧ ((List.range 64).all fun b => !s.pecMissing (0 : Agent) b) = true ∧ s.canRead (0 : Agent) 0 = true) ∧
    (t.ser.reply = 8 :: [Reg.sysId, Reg.sysRev, Reg.sysUnits, Reg.sysStraps].flatMap fun i => leBytes 2 (s.peek (0 : Agent) i)) := by decide +kernel

theorem test_status :
    let s : State := served
    let t := after (.status 0 ⟨[], some 1⟩) s
    (s.mode = .active ∧ s.pecOn (0 : Agent) = false ∧ ((List.range 64).all fun b => !s.pecMissing (0 : Agent) b) = true) ∧
    (t.ser.reply = leBytes 1 (s.fld (Reg.serAgtStat (0 : Agent).val) 0 4) ∧ t.regs = s.regs) := by decide +kernel

theorem test_pending_cmd :
    let s : State := called 1
    let t := after (.pendingCmd 0 ⟨[], some 1⟩) s
    (s.mode = .active ∧ s.pecOn (0 : Agent) = false ∧ ((List.range 64).all fun b => !s.pecMissing (0 : Agent) b) = true ∧ s.canRead (0 : Agent) 1 = true) ∧
    (t.ser.reply = leBytes 1 (s.peek (0 : Agent) Reg.serPending % 16)) := by decide +kernel

theorem test_complete :
    let s : State := { served with fab := { served.fab with stack := served.fab.stack.set 0 [⟨0x120, 0, 7, 1, 5, 0, 0, false, false, false, false, Four.all false⟩] } }
    let t := after (.complete 0 ⟨[0x20, 1], none⟩) s
    (s.mode = .active ∧ s.pecOn (0 : Agent) = false ∧ ((List.range 64).all fun b => !s.pecMissing (0 : Agent) b) = true ∧ s.canWrite (0 : Agent) (ownBank (0 : Agent)) = true ∧ (s.fab.stack.get (0 : Agent)).head?.map (·.num) = some 0x120) ∧
    (t.fab.stack.get (0 : Agent) = (s.fab.stack.get (0 : Agent)).drop 1 ∧ t.fab.pend = s.fab.pend ∧ t.fld (Reg.serAgtStat (0 : Agent).val) 0 4 = 0) := by decide +kernel

theorem test_doorbell :
    let s : State := served
    let t := after (.doorbell 0 ⟨[31], none⟩) s
    (s.mode = .active ∧ s.pecOn (0 : Agent) = false ∧ ((List.range 64).all fun b => !s.pecMissing (0 : Agent) b) = true ∧ s.canWrite (0 : Agent) 4 = true) ∧
    (postedB s t 31 1 = true ∧ t.fld (Reg.serAgtStat (0 : Agent).val) 0 4 = 0) := by decide +kernel

theorem test_doorbell_bad :
    let s : State := served
    let t := after (.doorbell 0 ⟨[32], none⟩) s
    (s.mode = .active ∧ s.pecOn (0 : Agent) = false ∧ ((List.range 64).all fun b => !s.pecMissing (0 : Agent) b) = true ∧ s.canWrite (0 : Agent) 4 = true) ∧
    (t.fab = s.fab ∧ t.fld (Reg.serAgtStat (0 : Agent).val) 0 4 = 6) := by decide +kernel

theorem test_ring_push :
    let s : State := served
    let t := after (.ringPush 0 ⟨17 :: 64 :: List.replicate 16 9, none⟩) s
    (s.mode = .active ∧ s.pecOn (0 : Agent) = false ∧ ((List.range 64).all fun b => !s.pecMissing (0 : Agent) b) = true ∧ s.canWrite (0 : Agent) 6 = true ∧ (s.fab.ring (64 : Byte).toNat).dbEn = false ∧ (fin4.any s.unitUsable = true) ∧ s.ringFits (64 : Byte).toNat 1 = true) ∧
    (t.fab = s.fab.append (64 : Byte).toNat [(List.replicate 16 9 : List Byte)] ∧ t.fld (Reg.serAgtStat (0 : Agent).val) 0 4 = 0) := by decide +kernel

theorem test_ring_push_full :
    let s : State := { served with fab := served.fab.setRing 64 { served.fab.ring 64 with items := [128] } }
    let t := after (.ringPush 0 ⟨17 :: 64 :: List.replicate 16 9, none⟩) s
    (s.mode = .active ∧ s.pecOn (0 : Agent) = false ∧ ((List.range 64).all fun b => !s.pecMissing (0 : Agent) b) = true ∧ s.canWrite (0 : Agent) 6 = true ∧ (s.fab.ring (64 : Byte).toNat).dbEn = false ∧ (fin4.any s.unitUsable = true) ∧ s.ringFits (64 : Byte).toNat 1 = false) ∧
    (t.fab = s.fab ∧ t.fld (Reg.serAgtStat (0 : Agent).val) 0 4 = 7) := by decide +kernel

theorem test_ring_pop :
    let s : State := { served with fab := served.fab.setRing 64 { served.fab.ring 64 with items := [1] } }
    let t := after (.ringPop 0 ⟨[2, 64, 15], some 17⟩) s
    (s.mode = .active ∧ s.pecOn (0 : Agent) = false ∧ ((List.range 64).all fun b => !s.pecMissing (0 : Agent) b) = true ∧ s.canWrite (0 : Agent) 6 = true ∧ s.mayPop (0 : Agent) (64 : Byte).toNat = true ∧ s.fab.bad = [] ∧ (s.fab.ring (64 : Byte).toNat).items = [1] ∧ (fin4.any s.unitUsable = true)) ∧
    (t.ser.reply = 16 :: s.fab.getWord ((s.fab.ring (64 : Byte).toNat).word 0) ∧ (t.fab.ring (64 : Byte).toNat).items = [] ∧ t.fld (Reg.serAgtStat (0 : Agent).val) 0 4 = 0) := by decide +kernel

theorem test_pop_not_allowed :
    let s : State := { served with fab := served.fab.setRing 64 { served.fab.ring 64 with pop := 14, items := [1] } }
    let t := after (.ringPop 0 ⟨[2, 64, 1], some 17⟩) s
    (s.mode = .active ∧ bit (s.fab.ring 64).pop (0 : Agent).val = false ∧ s.cmdRefused (0 : Agent) 6 true = .no ∧ s.pecOn (0 : Agent) = false) ∧
    (t.flag (Reg.serAgtStat (0 : Agent).val) 4 = true ∧ t.fld (Reg.serAgtStat (0 : Agent).val) 0 4 = 2 ∧ t.ser.reply.head? = some 0 ∧ (s.flag (Reg.serAgtStat (0 : Agent).val) 4 = true → t.fab = s.fab)) := by decide +kernel

theorem test_tkr_req :
    (let s : State := served
    let t := after (.tkrReq 0 ⟨[1, 0], none⟩) s
    (s.mode = .active ∧ s.pecOn (0 : Agent) = false ∧ ((List.range 64).all fun b => !s.pecMissing (0 : Agent) b) = true ∧ s.canWrite (0 : Agent) 9 = true ∧ s.tkr.held (0 : Agent) < 4) ∧
    (t.tkr.queue.get (0 : Agent) = s.tkr.queue.get (0 : Agent) ++ [⟨s.tkr.reqNo, [0]⟩] ∧ t.fld (Reg.serAgtStat (0 : Agent).val) 0 4 = 0)) ∧
    (let s : State := { served with tkr := { served.tkr with queue := served.tkr.queue.set 0 (List.replicate 4 ⟨1, [0]⟩) } }
    let t := after (.tkrReq 0 ⟨[1, 0], none⟩) s
    (s.mode = .active ∧ s.pecOn (0 : Agent) = false ∧ ((List.range 64).all fun b => !s.pecMissing (0 : Agent) b) = true ∧ s.canWrite (0 : Agent) 9 = true ∧ 4 ≤ s.tkr.held (0 : Agent)) ∧
    (t.tkr = s.tkr ∧ t.fld (Reg.serAgtStat (0 : Agent).val) 0 4 = 7)) ∧
    (let s : State := { served with tkr := { served.tkr with queue := served.tkr.queue.set 0 (List.replicate 3 ⟨1, [0]⟩) } }
    let t := after (.tkrReq 0 ⟨[1, 0], none⟩) s
    (s.tkr.held (0 : Agent) ≤ 4) ∧
    (t.tkr.held (0 : Agent) ≤ 4)) ∧
    (let s : State := { served with tkr := { served.tkr with queue := served.tkr.queue.set 1 (List.replicate 4 ⟨1, [0]⟩) } }
    let t := after (.tkrReq 0 ⟨[1, 0], none⟩) s
    (s.mode = .active ∧ s.pecWrong (0 : Agent) (0x30 :: ([1, 0] : List Byte)) = false ∧ (s.body (0 : Agent) (0x30 :: ([1, 0] : List Byte))).drop 1 = [1, 0] ∧ s.cmdRefused (0 : Agent) 9 true = .no ∧ s.tkr.held (0 : Agent) < 4) ∧
    (t.tkr.queue.get (0 : Agent) = s.tkr.queue.get (0 : Agent) ++ [⟨s.tkr.reqNo, [0]⟩])) := by decide +kernel

theorem test_quick_command :
    let s : State := served
    let t := after (.quickCommand 0 true) s
    (s.mode = .active ∧ s.pecOn (0 : Agent) = false) ∧
    (t.ser.reply = [] ∧ t.ser.acked = true ∧ t.regs = s.regs ∧ t.fab = s.fab) := by decide +kernel

theorem test_unacked :
    let s : State := served
    let t := after (.unackedFirstByte 0 0x7F) s
    (s.mode = .active ∧ s.pecOn (0 : Agent) = false ∧ firstByteAcked 0x7F = false ∧ firstByteAcked 0x30 = true) ∧
    (t.ser.reply = [] ∧ t.ser.acked = false ∧ t.regs = s.regs ∧ after (.unackedFirstByte 0 0x30) s = s) := by decide +kernel

/-- The four slots of the port, and no other address. -/
theorem test_slots :
    let s : State := served
    s.slotAt s.base = some 0 ∧ s.slotAt (s.base + 3) = some 3 ∧ s.slotAt (s.base + 4) = none ∧ s.slotAt 0x0C = none := by decide +kernel

theorem test_bus_error :
    let s : State := served
    let t := after (.busError 0) s
    (s.mode = .active) ∧
    (t.reg Reg.serBusErrs = min 65535 (s.reg Reg.serBusErrs + 1) ∧ t.regs = (s.bump Reg.serBusErrs 1).regs ∧ t.ser.reply = [] ∧ (t.ser.ag.get (0 : Agent)).ptr = (s.ser.ag.get (0 : Agent)).ptr) := by decide +kernel

theorem test_bus_timeout :
    let s : State := served.setFlag Reg.serCfg 4 true
    let t := after (.busTimeout 0 25) s
    (s.mode = .active ∧ s.flag Reg.serCfg 4 = true ∧ 25 ≤ 25) ∧
    (t.reg Reg.serTimeouts = min 65535 (s.reg Reg.serTimeouts + 1) ∧ t.regs = (s.bump Reg.serTimeouts 1).regs ∧ postedB (s.bump Reg.serTimeouts 1) t 429 0 = true ∧ t.ser.reply = [] ∧ (t.ser.ag.get (0 : Agent)).ptr = (s.ser.ag.get (0 : Agent)).ptr) := by decide +kernel

theorem test_attention_alert :
    let s : State := called 1
    let t := after (.attentionDue 0) s
    (s.mode = .active ∧ s.attnSettle.attnCall (0 : Agent) = true ∧ (s.attnSettle.ser.ag.get (0 : Agent)).called = false ∧ s.attnSettle.agtMode (0 : Agent) = 1) ∧
    (t.ser.alert = true ∧ (t.ser.ag.get (0 : Agent)).called = true) := by decide +kernel

theorem test_attention_wanted :
    let s : State := called 3
    let t := after (.attentionDue 0) s
    (s.mode = .active ∧ s.attnSettle.attnCall (0 : Agent) = true ∧ (s.attnSettle.ser.ag.get (0 : Agent)).called = false ∧ 2 ≤ s.attnSettle.agtMode (0 : Agent) ∧ (s.attnSettle.ser.ag.get (0 : Agent)).fallback = false) ∧
    (t.ser.alert = s.attnSettle.ser.alert ∧ (t.ser.ag.get (0 : Agent)).want = true) := by decide +kernel

theorem test_attention_repeat :
    let s : State := (called 1).setAg 0 fun g => { g with called := true }
    let t := after (.attentionRepeat 0 65535) s
    (s.mode = .active ∧ (s.attnSettle.ser.ag.get (0 : Agent)).called = true ∧ s.attnSettle.agtMode (0 : Agent) = 1 ∧ s.attnSettle.reg Reg.serRepeat ≤ 65535) ∧
    (t.ser.alert = true) := by decide +kernel

theorem test_ara_read :
    let s : State := (({ called 1 with ser := { (called 1).ser with alert := true } } : State).setAg 0 fun g => { g with called := true })
    let t := after (.araRead [0xF0]) s
    (s.mode = .active ∧ s.attnSettle.ser.alert = true ∧ 2 * s.base < 240) ∧
    (t.ser.reply.head? = some (BitVec.ofNat 8 (2 * s.base)) ∧ t.ser.alert = false ∧ t.ser.acked = true) := by decide +kernel

theorem test_attention_frame :
    let s : State := (called 2).setAg 0 fun g => { g with want := true }
    let t := after (.attentionFrame 100000) s
    (s.mode = .active ∧ s.attnSettle.firstWanting = some (0 : Agent) ∧ s.attnSettle.busFree 100000 = true ∧ s.attnSettle.agtMode (0 : Agent) = 2) ∧
    (t.ser.frame = .attention s.attnSettle.bandMask ∧ t.ser.reply = [BitVec.ofNat 8 (2 * s.base + 1), BitVec.ofNat 8 s.attnSettle.bandMask]) := by decide +kernel

theorem test_notify_frame :
    let s : State := (called 3).setAg 0 fun g => { g with want := true }
    let t := after (.notifyFrame 0 100000) s
    (s.mode = .active ∧ s.attnSettle.firstWanting = some (0 : Agent) ∧ s.attnSettle.busFree 100000 = true ∧ s.attnSettle.agtMode (0 : Agent) = 3) ∧
    (t.ser.frame = .notify (0 : Agent) ∧ t.ser.reply = s.attnSettle.notifyBytes (0 : Agent) ∧ (t.ser.ag.get (0 : Agent)).want = false) := by decide +kernel

theorem test_attention_fallback :
    let s : State := { called 2 with ser := { (called 2).ser with frame := .attention 1 } }
    let t := after (.attentionFallback 50) s
    (s.mode = .active ∧ s.ser.frame = .attention 1) ∧
    (t.ser.frame = .none ∧ t.ser.alert = true ∧ postedB s t 428 0 = true ∧ (t.ser.ag.get (0 : Agent)).fallback = true) := by decide +kernel

theorem test_attention_arb_loss :
    let s : State := { called 2 with ser := { (called 2).ser with frame := .attention 1 } }
    let t := after (.attentionArbLoss) s
    (s.mode = .active ∧ s.ser.frame = .attention 1) ∧
    (t.ser.frame = .none ∧ t.ser.backoff = true ∧ (t.ser.ag.get (0 : Agent)).want = true) := by decide +kernel

theorem test_notify_arb_loss :
    let s : State := { called 3 with ser := { (called 3).ser with frame := .notify 0 } }
    let t := after (.notifyArbLoss) s
    (s.mode = .active ∧ s.ser.frame = .notify (0 : Agent)) ∧
    (t.ser.frame = .none ∧ t.ser.backoff = true ∧ (t.ser.ag.get (0 : Agent)).want = true) := by decide +kernel

theorem test_notify_nack :
    let s : State := ({ called 3 with ser := { (called 3).ser with frame := .notify 0 } } : State).setAg 0 fun g => { g with tries := 2 }
    let t := after (.notifyNack) s
    (s.mode = .active ∧ s.ser.frame = .notify (0 : Agent) ∧ (s.attnSettle.ser.ag.get (0 : Agent)).tries < 3) ∧
    ((t.ser.ag.get (0 : Agent)).want = true ∧ (t.ser.ag.get (0 : Agent)).tries = (s.attnSettle.ser.ag.get (0 : Agent)).tries + 1 ∧ t.fab = s.fab ∧ t.ser.backoff = true ∧ t.ser.frame = .none) := by decide +kernel

theorem test_notify_nack_last :
    let s : State := ({ called 3 with ser := { (called 3).ser with frame := .notify 0 } } : State).setAg 0 fun g => { g with tries := 3 }
    let t := after (.notifyNack) s
    (s.mode = .active ∧ s.ser.frame = .notify (0 : Agent) ∧ 3 ≤ (s.attnSettle.ser.ag.get (0 : Agent)).tries) ∧
    ((t.ser.ag.get (0 : Agent)).fallback = true ∧ t.ser.alert = true ∧ postedB s t (424 + (0 : Agent).val) 0 = true ∧ bit (t.peek (0 : Agent) (Reg.serAgtStat (0 : Agent).val)) 7 = true ∧ t.ser.frame = .none) := by decide +kernel

theorem test_notify_stretch :
    let s : State := { called 3 with ser := { (called 3).ser with frame := .notify 0 } }
    let t := after (.notifyStretchTimeout 25) s
    (s.mode = .active ∧ s.ser.frame = .notify (0 : Agent)) ∧
    (t.ser.frame = .none ∧ t.ser.reply = []) := by decide +kernel

/-! 12, The event fabric. -/

theorem test_spurious_claim :
    let s : State := served
    let t := after (.agtnClaim 0) s
    (s.mode = .active ∧ s.claimable (0 : Agent) = []) ∧
    (t.fab.stack = s.fab.stack ∧ t.fab.pend = s.fab.pend ∧ t.peek (0 : Agent) (0x2400 + 0x200 * (0 : Agent).val) = 511 ∧ ((List.range 6).all fun o => t.peek (0 : Agent) (0x2400 + 0x200 * (0 : Agent).val + 1 + o) == 0) = true) := by decide +kernel

theorem test_agtn_claim :
    let s : State := called 0
    let t := after (.agtnClaim 0) s
    (s.mode = .active ∧ (best (s.claimable (0 : Agent))).isSome = true) ∧
    (((match best (s.claimable (0 : Agent)) with | some e => decide (t.fab.stack.get (0 : Agent) = e :: s.fab.stack.get (0 : Agent) ∧ t.fab.pend = s.fab.pend.erase e ∧ t.fab.latch.get (0 : Agent) = claimRec (some e)) | none => decide (False)) = true)) := by decide +kernel

theorem test_event_post :
    (let s : State := fed.setReg (Reg.evtRoute 100) 0
    let t := after (.eventPost 100) s
    (s.mode = .active ∧ postable 100 = true ∧ absentSource s.part.variant 100 = false ∧ (s.route 100).live = false) ∧
    (t.fab.seq = s.fab.seq + 1 ∧ t.fab.pend = s.fab.pend ∧ t.fab.unrouted = min 65535 (s.fab.unrouted + 1) ∧ t.fab = { s.fab with seq := s.fab.seq + 1, stamp := s.fab.stamp + 1, unrouted := min 65535 (s.fab.unrouted + 1) })) ∧
    (let s : State := fed.setReg (Reg.evtRoute 100) 0x81F3
    let t := after (.eventPost 100) s
    (s.mode = .active ∧ postable 100 = true ∧ absentSource s.part.variant 100 = false ∧ (s.route 100).live = true ∧ (s.route 100).group = 0 ∧ (s.route 100).ring = false ∧ s.fab.isOpen 100 = false) ∧
    (t.fab.seq = s.fab.seq + 1 ∧ ((match t.fab.pend.drop s.fab.pend.length with | [e] => decide (e.num = 100 ∧ e.origin = 0 ∧ e.prio = (s.route 100).prio ∧ e.count = 1 ∧ e.seq = s.fab.seq + 1 ∧ e.sec.toNat = s.rtc % 4294967296 ∧ (∀ z : Agent, e.bound.get z = true → bit (s.route 100).mask z.val = true) ∧ ((s.route 100).target = true → ∀ z : Agent, e.bound.get z = bit (s.route 100).mask z.val)) | _ => decide (False)) = true))) ∧
    (let s : State := ({ fed with fab := { fed.fab with pend := [⟨100, 0, 7, 1, 5, 0, 0, false, false, false, false, ⟨true, false, false, false⟩⟩] } } : State).setReg (Reg.evtRoute 100) 0x81F3
    let t := after (.eventPost 100) s
    (s.mode = .active ∧ postable 100 = true ∧ absentSource s.part.variant 100 = false ∧ (s.route 100).live = true ∧ (s.route 100).group = 0 ∧ s.fab.isOpen 100 = true) ∧
    (t.fab.seq = s.fab.seq + 1 ∧ t.fab.merged = min 65535 (s.fab.merged + 1) ∧ t.fab.pend.length = s.fab.pend.length)) := by decide +kernel

theorem test_evt_doorbell :
    (let s : State := fed.setReg (Reg.evtRoute 31) 0x80F3
    let t := after (.evtDoorbell 2 31) s
    (s.mode = .active ∧ absentSource s.part.variant 31 = false ∧ (s.route 31).live = true ∧ (s.route 31).group = 0 ∧ (s.route 31).ring = false ∧ s.fab.isOpen 31 = false) ∧
    (t.fab.seq = s.fab.seq + 1 ∧ ((match t.fab.pend.drop s.fab.pend.length with | [e] => decide (e.num = 31 ∧ e.origin = 3 ∧ e.prio = (s.route 31).prio ∧ e.count = 1 ∧ e.seq = s.fab.seq + 1 ∧ e.sec.toNat = s.rtc % 4294967296 ∧ (∀ z : Agent, e.bound.get z = true → bit (s.route 31).mask z.val = true) ∧ ((s.route 31).target = true → ∀ z : Agent, e.bound.get z = bit (s.route 31).mask z.val)) | _ => decide (False)) = true))) ∧
    (let s : State := fed.setReg (Reg.evtRoute 31) 0
    let t := after (.evtDoorbell 2 31) s
    (s.mode = .active ∧ absentSource s.part.variant 31 = false ∧ (s.route 31).live = false) ∧
    (t.fab = { s.fab with seq := s.fab.seq + 1, stamp := s.fab.stamp + 1, unrouted := min 65535 (s.fab.unrouted + 1) })) ∧
    (let s : State := fed
    let t := after (.evtDoorbell 0 3) s
    (s.route 40 = ⟨true, false, 0, true, 15, 1⟩) ∧
    (t.route 40 = ⟨true, false, 0, true, 15, 1⟩)) := by decide +kernel

theorem test_coalesce_time :
    let s : State := ({ fed with fab := { fed.fab with batches := [⟨31, 5, [⟨100, 0, 7, 1, 5, 0, 0, false, false, false, false, ⟨true, false, false, false⟩⟩]⟩] } } : State).setReg (Reg.evtRoute 100) 0xBFF3
    let t := after (.coalesceTime 31 655350) s
    (s.mode = .active ∧ s.fab.batch 31 = some (⟨31, 5, [⟨100, 0, 7, 1, 5, 0, 0, false, false, false, false, ⟨true, false, false, false⟩⟩]⟩ : Batch) ∧ s.reg (Reg.coalTime 31) * 10 ≤ 655350 ∧ (s.route 100).live = true ∧ (s.route 100).ring = false) ∧
    (t.fab.batch 31 = none ∧ t.fab.pend = s.fab.pend ++ t.fab.pend.drop s.fab.pend.length ∧ (t.fab.pend.drop s.fab.pend.length).map (·.num) = [100] ∧ ((t.fab.pend.drop s.fab.pend.length).all (·.coalesced)) = true) := by decide +kernel

theorem test_agtn_complete :
    (let s : State := { fed with fab := { fed.fab with stack := fed.fab.stack.set 0 [⟨100, 0, 7, 1, 5, 0, 0, false, false, false, false, Four.all false⟩] } }
    let t := after (.agtnComplete 0 100) s
    (s.mode = .active ∧ (s.fab.stack.get (0 : Agent)).head?.map (·.num) = some 100) ∧
    (t.fab.stack.get (0 : Agent) = (s.fab.stack.get (0 : Agent)).drop 1 ∧ t.fab.pend = s.fab.pend)) ∧
    (let s : State := { fed with fab := { fed.fab with stack := fed.fab.stack.set 0 [⟨100, 0, 7, 1, 5, 0, 0, false, false, false, false, Four.all false⟩] } }
    let t := after (.agtnComplete 0 101) s
    (s.mode = .active ∧ s.fab.stack.get (0 : Agent) ≠ [] ∧ (s.fab.stack.get (0 : Agent)).head?.map (·.num) ≠ some 101) ∧
    (t.fab.stack.get (0 : Agent) = [] ∧ t.fab.stackFlag.get (0 : Agent) = true ∧ t.fab.faults.get (0 : Agent) = min 65535 (s.fab.faults.get (0 : Agent) + 1))) ∧
    (let s : State := fed
    let t := after (.agtnComplete 3 511) s
    (s.mode = .active) ∧
    (t.fab = s.fab)) := by decide +kernel

theorem test_ctl_awake :
    let s : State := fed
    let t := after (.agtnCtlAwake 0 0x5A0#16) s
    (s.mode = .active) ∧
    (t.awake (0 : Agent) = false ∧ t.thresh (0 : Agent) = 5 ∧ t.wakePrio (0 : Agent) = 10) := by decide +kernel

theorem test_remote_wake :
    let s : State := (called 0).setReg (Reg.agtCtl 0) 0x70
    let t := after (.remoteWake 0) s
    (s.mode = .active ∧ s.wantsWake (0 : Agent) = true ∧ s.life.holdoff = false) ∧
    (t = { s with life := { s.life with pulse := true, holdoff := true } }) := by decide +kernel

theorem test_remote_wake_holdoff :
    let s : State := (({ called 0 with life := { fed.life with holdoff := true } } : State).setReg (Reg.agtCtl 0) 0x70)
    let t := after (.remoteWake 0) s
    (s.mode = .active ∧ s.wantsWake (0 : Agent) = true ∧ s.life.holdoff = true) ∧
    (t = s) := by decide +kernel

theorem test_remote_wake_deferred :
    let s : State := (called 0).setReg (Reg.agtCtl 0) 0x70
    let t := after (.remoteWakeDeferred 0 100) s
    (s.mode = .active) ∧
    (t.life.holdoff = s.wantsWake (0 : Agent) ∧ (s.wantsWake (0 : Agent) = true → t.life.pulse = true)) := by decide +kernel

theorem test_evt_route :
    (let s : State := fed
    let t := after (.evtRoute 100 0x81F3#16) s
    (s.mode = .active) ∧
    (t = s.setReg (Reg.evtRoute 100) 0x81F3)) ∧
    (let s : State := fed
    let t := after (.evtRoute 39 0x81F3#16) s
    (s.mode = .active) ∧
    (t = s.setReg (Reg.evtRoute 39) 0x81F3)) ∧
    (let s : State := fed
    let t := after (.evtRoute 40 0#16) s
    (s.mode = .active) ∧
    (t = s)) ∧
    (let s : State := fed
    let t := after (.evtRoute 43 0#16) s
    (s.mode = .active) ∧
    (t = s)) := by decide +kernel

theorem test_watch_dormant :
    let s : State := ({ fed with mode := .dormant } : State).setReg (Reg.kprWatch + 31) 0x8022
    let t := after (.watchHitDormant 34) s
    (s.mode = .dormant ∧ s.watching 34 ≠ []) ∧
    (t.mode = .hold ∧ t.life.causes = 4 ∧ t.reg32 Reg.kprWatchHit = s.reg32 Reg.kprWatchHit ||| ((s.watching 34).map fun k => 2 ^ k).sum) := by decide +kernel

theorem test_watch_ship :
    let s : State := ({ State.reset with mode := .ship } : State).setReg (Reg.kprWatch + 0) 0x8022
    let t := after (.watchHitShip 34) s
    (s.mode = .ship ∧ s.watching 34 ≠ []) ∧
    (t.mode = .ship ∧ t.reg32 Reg.kprWatchHit = s.reg32 Reg.kprWatchHit ||| ((s.watching 34).map fun k => 2 ^ k).sum) := by decide +kernel

/-! 13, Rings and Check units. -/

theorem test_ring_cfg :
    (let s : State := ({ served with fab := served.fab.setRing 64 { served.fab.ring 64 with items := [1] } } : State).setAg 0 fun g => { g with sel := 64 }
    let t := after (.ringCfg 0 false 3) s
    (s.mode = .active ∧ absentRing s.part.variant (s.selRing (0 : Agent)) = false ∧ (s.selRing (0 : Agent) < 24 ∨ 32 ≤ s.selRing (0 : Agent)) ∧ (s.fab.ring (s.selRing (0 : Agent))).count ≠ 0) ∧
    (t.fab = s.fab ∧ (t.ser.ag.get (0 : Agent)).result = 7)) ∧
    (let s : State := served.setAg 0 fun g => { g with sel := 64 }
    let t := after (.ringCfg 0 false 15) s
    (s.mode = .active ∧ absentRing s.part.variant (s.selRing (0 : Agent)) = false ∧ (s.selRing (0 : Agent) < 24 ∨ 32 ≤ s.selRing (0 : Agent)) ∧ (s.fab.ring (s.selRing (0 : Agent))).count = 0 ∧ (9 = 0 ∨ ((s.fab.ring (s.selRing (0 : Agent))).base % 4096 * 16 + 2 ^ (9 + 3) ≤ 65536 ∧ s.overlaps (s.selRing (0 : Agent)) ((s.fab.ring (s.selRing (0 : Agent))).base % 4096 * 16) (2 ^ (9 + 3)) = false))) ∧
    ((t.fab.ring (s.selRing (0 : Agent))).size = 9 ∧ (t.fab.ring (s.selRing (0 : Agent))).head = 0 ∧ (t.ser.ag.get (0 : Agent)).result = 0 ∧ ((List.range 256).all fun k => decide (k = s.selRing (0 : Agent)) || decide (t.fab.ring k = s.fab.ring k)) = true)) ∧
    (let s : State := served.setAg 0 fun g => { g with sel := 64 }
    let t := after (.ringCfg 0 false 0) s
    (s.mode = .active ∧ absentRing s.part.variant (s.selRing (0 : Agent)) = false ∧ (s.selRing (0 : Agent) < 24 ∨ 32 ≤ s.selRing (0 : Agent)) ∧ (s.fab.ring (s.selRing (0 : Agent))).count = 0) ∧
    ((t.fab.ring (s.selRing (0 : Agent))).size = 0 ∧ (t.fab.ring (s.selRing (0 : Agent))).head = 0 ∧ (t.ser.ag.get (0 : Agent)).result = 0)) ∧
    (let s : State := fed.setAg 0 fun g => { g with sel := 66 }
    let t := after (.ringCfg 0 true 0x1FFF#16) s
    (s.mode = .active ∧ absentRing s.part.variant (s.selRing (0 : Agent)) = false ∧ (s.selRing (0 : Agent) < 24 ∨ 32 ≤ s.selRing (0 : Agent)) ∧ (s.fab.ring (s.selRing (0 : Agent))).count = 0 ∧ (s.fab.ring (s.selRing (0 : Agent))).size = 0) ∧
    ((t.fab.ring (s.selRing (0 : Agent))).base = 0xFFF ∧ (t.ser.ag.get (0 : Agent)).result = 0)) := by decide +kernel

theorem test_ring_data_push :
    (let s : State := served.setAg 0 fun g => { g with sel := 64 }
    let t := after (.ringDataPush 0 (fin8.map fun i => (i, BitVec.ofNat 16 (i.val + 1)))) s
    (s.mode = .active ∧ s.rawSel (0 : Agent) = false ∧ 64 ≤ s.selRing (0 : Agent) ∧ (s.fab.ring (s.selRing (0 : Agent))).dbEn = false ∧ (fin4.any s.unitUsable = true) ∧ s.ringFits (s.selRing (0 : Agent)) 1 = true) ∧
    (t.fab = s.fab.append (s.selRing (0 : Agent)) [wordsEntry ⟨1, 2, 3, 4, 5, 6, 7, 8⟩] ∧ (t.ser.ag.get (0 : Agent)).result = 0)) ∧
    (let s : State := ({ served with fab := served.fab.setRing 64 { served.fab.ring 64 with items := [128] } } : State).setAg 0 fun g => { g with sel := 64 }
    let t := after (.ringDataPush 0 (fin8.map fun i => (i, BitVec.ofNat 16 (i.val + 1)))) s
    (s.mode = .active ∧ s.rawSel (0 : Agent) = false ∧ 64 ≤ s.selRing (0 : Agent) ∧ (s.fab.ring (s.selRing (0 : Agent))).dbEn = false ∧ (fin4.any s.unitUsable = true) ∧ s.ringFits (s.selRing (0 : Agent)) 1 = false) ∧
    (t.fab = s.fab ∧ (t.ser.ag.get (0 : Agent)).result = 4)) ∧
    (let s : State := served.setAg 0 fun g => { g with sel := 64 }
    let t := after (.ringDataPush 0 [(0, 1#16)]) s
    (s.mode = .active ∧ s.rawSel (0 : Agent) = false ∧ 64 ≤ s.selRing (0 : Agent) ∧ (s.fab.ring (s.selRing (0 : Agent))).dbEn = false ∧ (fin4.any s.unitUsable = true)) ∧
    (t.fab = s.fab ∧ (t.ser.ag.get (0 : Agent)).result = 5)) := by decide +kernel

theorem test_ring_data0_pop :
    (let s : State := ({ served with fab := served.fab.setRing 64 { served.fab.ring 64 with items := [1] } } : State).setAg 0 fun g => { g with sel := 64 }
    let t := after (.ringData0Pop 0) s
    (s.mode = .active ∧ s.rawSel (0 : Agent) = false ∧ 64 ≤ s.selRing (0 : Agent) ∧ s.mayPop (0 : Agent) (s.selRing (0 : Agent)) = true ∧ (fin4.any s.unitUsable = true) ∧ (s.fab.ring (s.selRing (0 : Agent))).items = [1] ∧ s.fab.bad = []) ∧
    ((t.fab.ring (s.selRing (0 : Agent))).items = [] ∧ (t.ser.ag.get (0 : Agent)).result = 0 ∧ (t.ser.ag.get (0 : Agent)).latch = entryWords (s.fab.getWord ((s.fab.ring (s.selRing (0 : Agent))).word 0)))) ∧
    (let s : State := served.setAg 0 fun g => { g with sel := 64 }
    let t := after (.ringData0Pop 0) s
    (s.mode = .active ∧ s.rawSel (0 : Agent) = false ∧ 64 ≤ s.selRing (0 : Agent) ∧ s.mayPop (0 : Agent) (s.selRing (0 : Agent)) = true ∧ (fin4.any s.unitUsable = true) ∧ (s.fab.ring (s.selRing (0 : Agent))).items = []) ∧
    ((t.ser.ag.get (0 : Agent)).result = 3 ∧ (t.ser.ag.get (0 : Agent)).latch = Eight.all 0)) ∧
    (let s : State := served.setAg 0 fun g => { g with sel := 2 }
    let t := after (.ringData0Pop 0) s
    (s.mode = .active ∧ s.rawSel (0 : Agent) = false ∧ ((s.selRing (0 : Agent) < 8 ∧ s.selRing (0 : Agent) / 2 ≠ (0 : Agent).val) ∨ (64 ≤ s.selRing (0 : Agent) ∧ bit (s.fab.ring (s.selRing (0 : Agent))).pop (0 : Agent).val = false))) ∧
    (t.flag (Reg.serAgtStat (0 : Agent).val) 4 = true ∧ t.fld (Reg.serAgtStat (0 : Agent).val) 0 4 = 2 ∧ (t.ser.ag.get (0 : Agent)).latch = Eight.all 0 ∧ (s.flag (Reg.serAgtStat (0 : Agent).val) 4 = true → t.fab = s.fab))) := by decide +kernel

theorem test_raw_access :
    (let s : State := served.setAg 0 fun g => { g with sel := 256, addr := 0xFFFF#16 }
    let t := after (.rawAccess 0 (some (fin8.map fun i => (i, BitVec.ofNat 16 (i.val + 1))))) s
    (s.mode = .active ∧ s.rawSel (0 : Agent) = true ∧ s.inRing (s.ser.ag.get (0 : Agent)).addr.toNat = false) ∧
    (t.fab.getWord (s.ser.ag.get (0 : Agent)).addr.toNat = wordsEntry ⟨1, 2, 3, 4, 5, 6, 7, 8⟩ ∧ (t.ser.ag.get (0 : Agent)).result = 0 ∧ (t.ser.ag.get (0 : Agent)).addr = (s.ser.ag.get (0 : Agent)).addr + 1)) ∧
    (let s : State := served.setAg 0 fun g => { g with sel := 256, addr := 32000#16 }
    let t := after (.rawAccess 0 (some (fin8.map fun i => (i, BitVec.ofNat 16 (i.val + 1))))) s
    (s.mode = .active ∧ s.rawSel (0 : Agent) = true ∧ s.inRing (s.ser.ag.get (0 : Agent)).addr.toNat = true) ∧
    (t.fab = s.fab ∧ (t.ser.ag.get (0 : Agent)).result = 8 ∧ (t.ser.ag.get (0 : Agent)).addr = (s.ser.ag.get (0 : Agent)).addr)) ∧
    (let s : State := served.setAg 0 fun g => { g with sel := 256, addr := 31999#16 }
    let t := after (.rawAccess 0 none) s
    (s.mode = .active ∧ s.rawSel (0 : Agent) = true ∧ s.inRing (s.ser.ag.get (0 : Agent)).addr.toNat = false ∧ ((s.ser.ag.get (0 : Agent)).addr.toNat ∉ s.fab.bad)) ∧
    (t.fab = s.fab ∧ (t.ser.ag.get (0 : Agent)).latch = entryWords (s.fab.getWord (s.ser.ag.get (0 : Agent)).addr.toNat) ∧ (t.ser.ag.get (0 : Agent)).result = 0 ∧ (t.ser.ag.get (0 : Agent)).addr = (s.ser.ag.get (0 : Agent)).addr + 1)) := by decide +kernel

theorem test_sram_scrub :
    (let s : State := fed
    let t := after (.sramScrub 65535 0) s
    (s.mode = .active ∧ (65535 ∉ s.fab.bad)) ∧
    (t.fab = s.fab)) ∧
    (let s : State := fed
    let t := after (.sramScrub 65535 1) s
    (s.mode = .active ∧ (65535 ∉ s.fab.bad)) ∧
    (t.fab.eccCorr = min 65535 (s.fab.eccCorr + 1) ∧ t.fab.eccUncorr = s.fab.eccUncorr)) ∧
    (let s : State := fed
    let t := after (.sramScrub 65535 2) s
    (s.mode = .active) ∧
    (t.fab.eccUncorr = min 65535 (s.fab.eccUncorr + 1) ∧ t.fab.eccAddr = 65535)) := by decide +kernel

/-- A job of an unknown algorithm at the head of ring 32, its result ring free, and unit 0 with a self-test due. -/
def jobReady : State :=
  let f := (served.fab.setRing 32 { served.fab.ring 32 with size := 1, base := 2600 }).append 32 [7 :: List.replicate 15 0]
  { served with fab := f.setRing 33 { f.ring 33 with size := 1, base := 2700 },
                chk := { served.chk with queue := [⟨32, 1, false, false⟩], tests := Four.all true } }

theorem test_job_start :
    let s : State := jobReady
    let t := after (.chkJobStart 0 none) s
    (s.mode = .active ∧ s.unitUsable 0 = true ∧ (s.chk.units.get 0).job = none ∧ s.chk.restart = [] ∧ s.chk.queue = [⟨32, 1, false, false⟩]
      ∧ s.unitTakes 0 32 = true ∧ (s.takeEntry ⟨32, 1, false, false⟩).2.isSome = true
      ∧ (s.chkArb 0 none).free (s.floors [2]) (fun _ => 1) none = true) ∧
    ((match (t.chk.units.get 0).job with
        | some j => j.ring == 32 && some j.entry == (s.takeEntry ⟨32, 1, false, false⟩).2 && s.algOf (entAlg j.entry) == none && j.status == 5
        | none => false) = true ∧ t.chk.queue = (s.takeEntry ⟨32, 1, false, false⟩).1.chk.queue) := by decide +kernel

/-- R29: a self-test that is preempted leaves its value and its count in slots 14 and 15. -/
theorem test_job_preempts :
    let s : State := jobReady
    let t := after (.chkJobStart 0 (some (5, 9))) s
    (s.unitUsable 0 = true ∧ (s.chk.units.get 0).job = none ∧ (s.chkArb 0 (some (5, 9))).free (s.floors [2]) (fun _ => 1) none = true
      ∧ s.testMoved 0 (some (5, 9)) = true) ∧
    (t.chkSlot 0 14 = 5 ∧ t.chkSlot 0 15 = 9 ∧ (t.chk.units.get 0).held = true) := by decide +kernel

/-- R31: the job waits where the self-test's floor calls for the grant. -/
theorem test_job_waits :
    let s : State := { jobReady with arb := { jobReady.arb with chk := Four.all ⟨false, [(2, 1000)]⟩ } }
    (s.mode = .active ∧ (s.chkArb 0 none).free (s.floors [2]) (fun _ => 1) none = false) ∧ after (.chkJobStart 0 none) s = s := by decide +kernel

theorem test_job_done :
    let s : State := { served with fab := served.fab.setRing 33 { served.fab.ring 33 with size := 1, base := 2700 }, chk := { served.chk with units := ⟨⟨false, 0, false, some ⟨32, 1, List.replicate 16 0, true, 0, default, 5, 0, 0, true⟩, false, false⟩, ⟨false, 0, false, none, false, false⟩, ⟨false, 0, false, none, false, false⟩, ⟨false, 0, false, none, false, false⟩⟩ } }
    let t := after (.chkJobDone 0) s
    (s.mode = .active ∧ ((match (s.chk.units.get (0 : UnitId)).job with | some j => decide (s.ringFits (j.ring + 1) 1 = true) | none => decide (False)) = true)) ∧
    ((t.chk.units.get (0 : UnitId)).job = none ∧ t.reg (Reg.chkJobs (0 : UnitId).val) = min 65535 (s.reg (Reg.chkJobs (0 : UnitId).val) + 1) ∧ ((match (s.chk.units.get (0 : UnitId)).job with | some j => decide (j.repeated = true → t.reg (Reg.chkRepeats (0 : UnitId).val) = min 65535 (s.reg (Reg.chkRepeats (0 : UnitId).val) + 1)) | none => decide (False)) = true)) := by decide +kernel

theorem test_unit_failed :
    let s : State := { served with chk := { served.chk with units := ⟨⟨false, 0, false, some ⟨32, 1, List.replicate 16 0, true, 0, default, 5, 0, 0, false⟩, false, false⟩, ⟨false, 0, false, none, false, false⟩, ⟨false, 0, false, none, false, false⟩, ⟨false, 0, false, none, false, false⟩⟩ } }
    let t := after (.chkUnitFailed 0 true) s
    (s.mode = .active ∧ s.unitUsable (0 : UnitId) = true ∧ s.unitUsable 1 = true) ∧
    (t.unitUsable (0 : UnitId) = false ∧ (t.chk.units.get (0 : UnitId)).cause = 1 ∧ ((match (s.chk.units.get (0 : UnitId)).job with | some j => decide ({ j with repeated := true } ∈ t.chk.restart) | none => decide (True)) = true)) := by decide +kernel

theorem test_kat :
    let s : State := { jobReady with chk := { jobReady.chk with queue := [] } }
    let t := after (.chkKat 0) s
    (s.mode = .active ∧ s.unitUsable 0 = true ∧ (s.chk.units.get 0).job = none
      ∧ (s.arb.chk.get 0).mayRun (s.floors [2]) (fun _ => 1) (s.chkFg 0) 2 = true) ∧
    ((t.chk.units.get 0).kat = true ∧ (t.chk.units.get 0).job = none ∧ t.chk.tests.get 0 = false) := by decide +kernel

/-- R26: a job that has waited since the last atom goes before the self-test. -/
theorem test_kat_waits :
    let s : State := { jobReady with arb := { jobReady.arb with chk := Four.all ⟨true, []⟩ } }
    (s.mode = .active ∧ s.unitUsable 0 = true ∧ (s.chk.units.get 0).job = none
      ∧ (s.arb.chk.get 0).mayRun (s.floors [2]) (fun _ => 1) (s.chkFg 0) 2 = false) ∧ after (.chkKat 0) s = s := by decide +kernel

theorem test_acc_write :
    let s : State := served
    let t := after (.chkAccWrite 3 0xDEADBEEF#32) s
    (s.mode = .active ∧ s.part.variant.hasChk (3 : UnitId) = true ∧ (s.chk.units.get (3 : UnitId)).job = none) ∧
    (t.chkAcc (3 : UnitId) = 0xDEADBEEF) := by decide +kernel

/-! 14, The Tack Room. -/

theorem test_tkr_request_start :
    (let s : State := queued [0x44, 1]
    let t := after (.tkrRequestStart 0) s
    (s.mode = .active ∧ s.tkr.queue.get (0 : Agent) = [(⟨1, [0x44, 1]⟩ : Req)] ∧ s.tkr.run.get (0 : Agent) = none ∧ s.tkr.replies.get (0 : Agent) = [] ∧ s.ringFits (2 * (0 : Agent).val + 1) 1 = true ∧ s.planeTaken (0 : Agent) (⟨1, [0x44, 1]⟩ : Req) = false ∧ (fin4.all fun p => !(s.tkr.planes ⟨1, [0x44, 1]⟩).contains p.val || s.planeFree p) = true) ∧
    (repliedB s t (0 : Agent) (⟨1, [0x44, 1]⟩ : Req) ⟨Rep.badArg, 0, 0, []⟩ = true ∧ t.tkr.queue.get (0 : Agent) = [])) ∧
    (let s : State := (queued [0x21, 1]).setReg 0x41 0
    let t := after (.tkrRequestStart 0) s
    (s.mode = .active ∧ s.tkr.queue.get (0 : Agent) = [(⟨1, [0x21, 1]⟩ : Req)] ∧ s.tkr.run.get (0 : Agent) = none ∧ s.tkr.replies.get (0 : Agent) = [] ∧ s.ringFits (2 * (0 : Agent).val + 1) 1 = true ∧ s.planeTaken (0 : Agent) (⟨1, [0x21, 1]⟩ : Req) = false ∧ (fin4.all fun p => !(s.tkr.planes ⟨1, [0x21, 1]⟩).contains p.val || s.planeFree p) = true ∧ s.canWrite (0 : Agent) 0x0A = false) ∧
    (repliedB s t (0 : Agent) (⟨1, [0x21, 1]⟩ : Req) ⟨Rep.denied, 0, 0, []⟩ = true)) ∧
    (let s : State := queued [0x21, 1, 0]
    let t := after (.tkrRequestStart 0) s
    (s.mode = .active ∧ s.tkr.queue.get (0 : Agent) = [(⟨1, [0x21, 1, 0]⟩ : Req)] ∧ s.tkr.run.get (0 : Agent) = none ∧ s.tkr.replies.get (0 : Agent) = [] ∧ s.ringFits (2 * (0 : Agent).val + 1) 1 = true ∧ s.planeTaken (0 : Agent) (⟨1, [0x21, 1, 0]⟩ : Req) = false ∧ (fin4.all fun p => !(s.tkr.planes ⟨1, [0x21, 1, 0]⟩).contains p.val || s.planeFree p) = true ∧ s.canWrite (0 : Agent) 0x0A = true) ∧
    (repliedB s t (0 : Agent) (⟨1, [0x21, 1, 0]⟩ : Req) ⟨Rep.badLength, 0, 0, []⟩ = true)) ∧
    (let s : State := queued [0x02, 1, 3]
    let t := after (.tkrRequestStart 0) s
    (s.mode = .active ∧ s.tkr.queue.get (0 : Agent) = [(⟨1, [0x02, 1, 3]⟩ : Req)] ∧ s.tkr.run.get (0 : Agent) = none ∧ s.tkr.replies.get (0 : Agent) = [] ∧ s.ringFits (2 * (0 : Agent).val + 1) 1 = true ∧ s.planeTaken (0 : Agent) (⟨1, [0x02, 1, 3]⟩ : Req) = false ∧ (fin4.all fun p => !(s.tkr.planes ⟨1, [0x02, 1, 3]⟩).contains p.val || s.planeFree p) = true ∧ s.canWrite (0 : Agent) 0x0A = true ∧ s.argsOk (⟨1, [0x02, 1, 3]⟩ : Req) = true) ∧
    (t.tkr.run.get (0 : Agent) = some (⟨1, [0x02, 1, 3]⟩ : Req) ∧ t.tkr.queue.get (0 : Agent) = [] ∧ t.fab = s.fab)) := by decide +kernel

theorem test_tkr_read :
    let s : State := asking [0x01, 1, 0, 0, 0, 0, 1, 0xFF, 0xFF, 0xFF, 0xFF]
    let t := after (.tkrRead 0 []) s
    (s.mode = .active ∧ s.tkr.run.get (0 : Agent) = some (⟨1, [0x01, 1, 0, 0, 0, 0, 1, 0xFF, 0xFF, 0xFF, 0xFF]⟩ : Req) ∧ s.tkr.bad = [] ∧ leNat (slice (⟨1, [0x01, 1, 0, 0, 0, 0, 1, 0xFF, 0xFF, 0xFF, 0xFF]⟩ : Req).arg 5 4) = 0xFFFFFFFF) ∧
    (repliedB s t (0 : Agent) (⟨1, [0x01, 1, 0, 0, 0, 0, 1, 0xFF, 0xFF, 0xFF, 0xFF]⟩ : Req) ⟨Rep.ok, 0, 1, entriesOf 16 (s.storePages 0 1)⟩ = true) := by decide +kernel

theorem test_tkr_info :
    let s : State := asking [0x02, 1, 1]
    let t := after (.tkrInfo 0) s
    (s.mode = .active ∧ s.tkr.run.get (0 : Agent) = some (⟨1, [0x02, 1, 1]⟩ : Req) ∧ ((s.tkr.prog.all fun p => decide (p < 48 * 256 ∨ 48 * 256 + 32768 ≤ p)) = true)) ∧
    (repliedB s t (0 : Agent) (⟨1, [0x02, 1, 1]⟩ : Req) ⟨Rep.ok, 0, 0, [List.replicate 16 0xFF]⟩ = true) := by decide +kernel

theorem test_tkr_info_pages :
    let s : State := { asking [0x02, 1, 1] with tkr := { (asking [0x02, 1, 1]).tkr with prog := [48 * 256] } }
    let t := after (.tkrInfo 0) s
    (s.mode = .active ∧ s.tkr.run.get (0 : Agent) = some (⟨1, [0x02, 1, 1]⟩ : Req)) ∧
    (t.tkr.run.get (0 : Agent) = none ∧ ((if s.tkr.replies.get (0 : Agent) = [] ∧ s.ringFits (2 * (0 : Agent).val + 1) 2 = true then ((t.fab.ring (2 * (0 : Agent).val + 1)).items.drop (s.fab.ring (2 * (0 : Agent).val + 1)).items.length == [2]) else ((t.tkr.replies.get (0 : Agent)).drop (s.tkr.replies.get (0 : Agent)).length).length == 1)) = true) := by decide +kernel

theorem test_tkr_stage :
    (let s : State := (asking [0x10, 1, 0, 0, 0, 0]) |> fun s => { s with fab := { s.fab with bad := [15] } }
    let t := after (.tkrStage 0 true) s
    (s.mode = .active ∧ s.tkr.run.get (0 : Agent) = some (⟨1, [0x10, 1, 0, 0, 0, 0]⟩ : Req) ∧ s.getSram (leNat (⟨1, [0x10, 1, 0, 0, 0, 0]⟩ : Req).arg) 256 = none) ∧
    (repliedB s t (0 : Agent) (⟨1, [0x10, 1, 0, 0, 0, 0]⟩ : Req) ⟨Rep.ecc, 34 * 65536, 0, []⟩ = true)) ∧
    (let s : State := asking [0x10, 1, 0, 0, 0, 0]
    let t := after (.tkrStage 0 true) s
    (s.mode = .active ∧ s.tkr.run.get (0 : Agent) = some (⟨1, [0x10, 1, 0, 0, 0, 0]⟩ : Req) ∧ s.getSram (leNat (⟨1, [0x10, 1, 0, 0, 0, 0]⟩ : Req).arg) 256 = some (List.replicate 256 0)) ∧
    (repliedB s t (0 : Agent) (⟨1, [0x10, 1, 0, 0, 0, 0]⟩ : Req) ⟨Rep.badRecord, 34 * 65536, recVersion (List.replicate 256 0), []⟩ = true)) ∧
    (let s : State := asking [0x10, 1, 0, 0, 0, 0]
    let t := after (.tkrStage 0 false) s
    (s.mode = .active ∧ s.tkr.run.get (0 : Agent) = some (⟨1, [0x10, 1, 0, 0, 0, 0]⟩ : Req) ∧ (s.getSram (leNat (⟨1, [0x10, 1, 0, 0, 0, 0]⟩ : Req).arg) 256).isSome = true) ∧
    (repliedB s t (0 : Agent) (⟨1, [0x10, 1, 0, 0, 0, 0]⟩ : Req) ⟨Rep.writeFail, 34 * 65536, 0, []⟩ = true)) := by decide +kernel

theorem test_tkr_note :
    let s : State := asking [0x20, 1]
    let t := after (.tkrNote 0) s
    (s.mode = .active ∧ s.tkr.run.get (0 : Agent) = some (⟨1, [0x20, 1]⟩ : Req)) ∧
    (repliedB s t (0 : Agent) (⟨1, [0x20, 1]⟩ : Req) ⟨Rep.ok, 0, s.tkr.jserial + s.tkr.jbuf.length + 1, []⟩ = true) := by decide +kernel

theorem test_tkr_seal :
    let s : State := asking [0x21, 1]
    let t := after (.tkrSeal 0) s
    (s.mode = .active ∧ s.tkr.run.get (0 : Agent) = some (⟨1, [0x21, 1]⟩ : Req)) ∧
    (t.tkr.sealNo = s.tkr.sealNo + 1 ∧ t.tkr.jsince = 0 ∧ t.tkr.run.get (0 : Agent) = none) := by decide +kernel

theorem test_tkr_open_busy :
    let s : State := { asking [0x30, 1, 0, 0] with tkr := { (asking [0x30, 1, 0, 0]).tkr with session := some ⟨1, 0, 0, 784 * 256, 24576, 0⟩ } }
    let t := after (.tkrOpen 0) s
    (s.mode = .active ∧ s.tkr.run.get (0 : Agent) = some (⟨1, [0x30, 1, 0, 0]⟩ : Req) ∧ s.tkr.session.isSome = true) ∧
    (repliedB s t (0 : Agent) (⟨1, [0x30, 1, 0, 0]⟩ : Req) ⟨Rep.busy, 0, 0, []⟩ = true ∧ t.tkr.session = s.tkr.session) := by decide +kernel

theorem test_tkr_open :
    let s : State := asking [0x30, 1, 0, 0]
    let t := after (.tkrOpen 0) s
    (s.mode = .active ∧ s.tkr.run.get (0 : Agent) = some (⟨1, [0x30, 1, 0, 0]⟩ : Req) ∧ s.tkr.session = none) ∧
    (((match t.tkr.session with | some e => decide (e.agent = (0 : Agent) ∧ e.next = 0 ∧ e.kind = leNat (slice (⟨1, [0x30, 1, 0, 0]⟩ : Req).arg 0 1)) | none => decide (False)) = true) ∧ repliedB s t (0 : Agent) (⟨1, [0x30, 1, 0, 0]⟩ : Req) ⟨Rep.ok, 784 * 65536, 0, []⟩ = true) := by decide +kernel

theorem test_tkr_write :
    (let s : State := asking [0x31, 1, 0, 0, 0, 1, 0, 0, 0, 0]
    let t := after (.tkrWrite 0 true) s
    (s.mode = .active ∧ s.tkr.run.get (0 : Agent) = some (⟨1, [0x31, 1, 0, 0, 0, 1, 0, 0, 0, 0]⟩ : Req) ∧ s.tkr.session = none) ∧
    (repliedB s t (0 : Agent) (⟨1, [0x31, 1, 0, 0, 0, 1, 0, 0, 0, 0]⟩ : Req) ⟨Rep.noSession, 0, 0, []⟩ = true)) ∧
    (let s : State := { asking [0x31, 1, 0, 0, 0, 1, 0, 0, 0, 0] with tkr := { (asking [0x31, 1, 0, 0, 0, 1, 0, 0, 0, 0]).tkr with session := some ⟨0, 0, 0, 784 * 256, 24576, 1⟩ } }
    let t := after (.tkrWrite 0 true) s
    (s.mode = .active ∧ s.tkr.run.get (0 : Agent) = some (⟨1, [0x31, 1, 0, 0, 0, 1, 0, 0, 0, 0]⟩ : Req) ∧ s.tkr.session = some ⟨0, 0, 0, 784 * 256, 24576, 1⟩) ∧
    (repliedB s t (0 : Agent) (⟨1, [0x31, 1, 0, 0, 0, 1, 0, 0, 0, 0]⟩ : Req) ⟨Rep.order, 0, 0, []⟩ = true ∧ t.tkr.session = s.tkr.session)) ∧
    (let s : State := { asking [0x31, 1, 0, 0, 0, 1, 0, 0, 0, 0] with tkr := { (asking [0x31, 1, 0, 0, 0, 1, 0, 0, 0, 0]).tkr with session := some ⟨0, 0, 0, 784 * 256, 24576, 0⟩ } }
    let t := after (.tkrWrite 0 true) s
    (s.mode = .active ∧ s.tkr.run.get (0 : Agent) = some (⟨1, [0x31, 1, 0, 0, 0, 1, 0, 0, 0, 0]⟩ : Req) ∧ s.tkr.session = some ⟨0, 0, 0, 784 * 256, 24576, 0⟩ ∧ (s.getSram (leNat (slice (⟨1, [0x31, 1, 0, 0, 0, 1, 0, 0, 0, 0]⟩ : Req).arg 4 4)) 256).isSome = true) ∧
    (repliedB s t (0 : Agent) (⟨1, [0x31, 1, 0, 0, 0, 1, 0, 0, 0, 0]⟩ : Req) ⟨Rep.ok, 784 * 65536, 1, []⟩ = true ∧ t.tkr.session = some ⟨0, 0, 0, 784 * 256, 24576, 1⟩)) ∧
    (let s : State := { asking [0x31, 1, 0, 0, 0, 1, 0, 0, 0, 0] with tkr := { (asking [0x31, 1, 0, 0, 0, 1, 0, 0, 0, 0]).tkr with session := some ⟨1, 0, 0, 784 * 256, 24576, 0⟩ } }
    let t := after (.tkrWrite 0 true) s
    (s.mode = .active ∧ s.tkr.run.get (0 : Agent) = some (⟨1, [0x31, 1, 0, 0, 0, 1, 0, 0, 0, 0]⟩ : Req) ∧ s.tkr.session = some ⟨1, 0, 0, 784 * 256, 24576, 0⟩) ∧
    (repliedB s t (0 : Agent) (⟨1, [0x31, 1, 0, 0, 0, 1, 0, 0, 0, 0]⟩ : Req) ⟨Rep.busy, 0, 0, []⟩ = true ∧ t.tkr.session = s.tkr.session)) := by decide +kernel

theorem test_tkr_close :
    (let s : State := asking [0x32, 1]
    let t := after (.tkrClose 0) s
    (s.mode = .active ∧ s.tkr.run.get (0 : Agent) = some (⟨1, [0x32, 1]⟩ : Req) ∧ s.tkr.session = none) ∧
    (repliedB s t (0 : Agent) (⟨1, [0x32, 1]⟩ : Req) ⟨Rep.noSession, 0, 0, []⟩ = true)) ∧
    (let s : State := { asking [0x32, 1] with tkr := { (asking [0x32, 1]).tkr with session := some ⟨0, 0, 0, 784 * 256, 24576, 0⟩ } }
    let t := after (.tkrClose 0) s
    (s.mode = .active ∧ s.tkr.run.get (0 : Agent) = some (⟨1, [0x32, 1]⟩ : Req) ∧ s.tkr.session = some ⟨0, 0, 0, 784 * 256, 24576, 0⟩) ∧
    (t.tkr.session = none ∧ t.tkr.run.get (0 : Agent) = none)) ∧
    (let s : State := { asking [0x32, 1] with tkr := { (asking [0x32, 1]).tkr with session := some ⟨1, 0, 0, 784 * 256, 24576, 0⟩ } }
    let t := after (.tkrClose 0) s
    (s.mode = .active ∧ s.tkr.run.get (0 : Agent) = some (⟨1, [0x32, 1]⟩ : Req) ∧ s.tkr.session = some ⟨1, 0, 0, 784 * 256, 24576, 0⟩) ∧
    (t.tkr.session = s.tkr.session ∧ repliedB s t (0 : Agent) (⟨1, [0x32, 1]⟩ : Req) ⟨Rep.busy, 0, 0, []⟩ = true)) := by decide +kernel

theorem test_tkr_abort :
    let s : State := { asking [0x33, 1] with tkr := { (asking [0x33, 1]).tkr with session := some ⟨0, 0, 0, 784 * 256, 24576, 0⟩ } }
    let t := after (.tkrAbort 0) s
    (s.mode = .active ∧ s.tkr.run.get (0 : Agent) = some (⟨1, [0x33, 1]⟩ : Req) ∧ s.tkr.session = some ⟨0, 0, 0, 784 * 256, 24576, 0⟩) ∧
    (t.tkr.session = none ∧ repliedB s t (0 : Agent) (⟨1, [0x33, 1]⟩ : Req) ⟨Rep.ok, 0, 0, []⟩ = true) := by decide +kernel

theorem test_tkr_abort_other :
    let s : State := { asking [0x33, 1] with tkr := { (asking [0x33, 1]).tkr with session := some ⟨1, 0, 0, 784 * 256, 24576, 0⟩ } }
    let t := after (.tkrAbort 0) s
    (s.mode = .active ∧ s.tkr.run.get (0 : Agent) = some (⟨1, [0x33, 1]⟩ : Req) ∧ s.tkr.session = some ⟨1, 0, 0, 784 * 256, 24576, 0⟩) ∧
    (t.tkr.session = s.tkr.session ∧ repliedB s t (0 : Agent) (⟨1, [0x33, 1]⟩ : Req) ⟨Rep.busy, 0, 0, []⟩ = true) := by decide +kernel

theorem test_reply_delivered :
    let s : State := { served with tkr := { served.tkr with replies := served.tkr.replies.set 0 [⟨[[1], [2]]⟩] } }
    let t := after (.replyDelivered 0) s
    (s.mode = .active ∧ s.tkr.replies.get (0 : Agent) = [⟨[[1], [2]]⟩] ∧ s.ringFits (2 * (0 : Agent).val + 1) 2 = true) ∧
    (t.tkr.replies.get (0 : Agent) = [] ∧ (t.fab.ring (2 * (0 : Agent).val + 1)).items = (s.fab.ring (2 * (0 : Agent).val + 1)).items ++ [2]) := by decide +kernel

theorem test_session_timeout :
    let s : State := { served with tkr := { served.tkr with session := some ⟨1, 0, 0, 784 * 256, 24576, 0⟩ } }
    let t := after (.sessionTimeout 600) s
    (s.mode = .active ∧ s.tkr.session.isSome = true ∧ 600 ≤ 600) ∧
    (t.tkr.session = none ∧ postedB s t 463 0 = true) := by decide +kernel

theorem test_journal_page :
    let s : State := { served with tkr := { served.tkr with jbuf := [⟨5, 1, 0, [1]⟩] } }
    let t := after (.journalPageProgram 10) s
    (s.mode = .active ∧ s.tkr.jbuf ≠ [] ∧ (8 ≤ s.tkr.jbuf.length ∨ 10 ≤ 10) ∧ s.tkr.jsince < 240 ∧ freeB s (s.planeOf 48) 4 = true) ∧
    (t.tkr.jserial = s.tkr.jserial + min 8 s.tkr.jbuf.length) := by decide +kernel

/-- R27: a page program on which a request waits is suspended at once. -/
theorem test_journal_suspends :
    let s : State := { queued [0x20, 1] with tkr := { (queued [0x20, 1]).tkr with jbuf := [⟨5, 1, 0, [1]⟩] } }
    let r : State := { queued [0x01, 1, 0, 0, 48, 0, 1, 0xFF, 0xFF, 0xFF, 0xFF] with tkr := { (queued [0x01, 1, 0, 0, 48, 0, 1, 0xFF, 0xFF, 0xFF, 0xFF]).tkr with jbuf := [⟨5, 1, 0, [1]⟩] } }
    let t := after (.journalPageProgram 10) r
    (s.tkr.jhead = 0 ∧ r.mode = .active ∧ r.tkr.jbuf ≠ [] ∧ 10 ≤ 10 ∧ r.tkr.jsince < 240 ∧ yieldsB r (r.planeOf 48) = true) ∧
    (t.arb.susp.get (r.planeOf 48) = some (r.tkr.logOp 48 r.tkr.jhead) ∧ t.tkr = r.tkr ∧ t.fab = r.fab) := by decide +kernel

theorem test_history_page :
    let s : State := { served with tkr := { served.tkr with hbuf := [[1, 2]] } }
    let t := after (.historyPageProgram 10) s
    (s.mode = .active ∧ s.tkr.hbuf ≠ [] ∧ 10 ≤ 10 ∧ freeB s (s.planeOf (208 + s.tkr.hhead / 256)) 4 = true) ∧
    (t.tkr.hbuf = s.tkr.hbuf.drop 8 ∧ t.tkr.jserial = s.tkr.jserial) := by decide +kernel

theorem test_seal_timer :
    let s : State := { served with tkr := { served.tkr with jsince := 1 } }
    let t := after (.sealTimer 86400) s
    (s.mode = .active ∧ s.tkr.jsince ≠ 0) ∧
    (t.tkr.sealNo = s.tkr.sealNo + 1 ∧ t.tkr.jsince = 0 ∧ t.tkr.chainFrom = []) := by decide +kernel

theorem test_seal_timer_count :
    let s : State := { served with tkr := { served.tkr with jsince := 256 } }
    let t := after (.sealTimer 0) s
    (s.mode = .active ∧ 256 ≤ s.tkr.jsince) ∧
    (t.tkr.sealNo = s.tkr.sealNo + 1 ∧ t.tkr.jsince = 0 ∧ t.tkr.chainFrom = []) := by decide +kernel

theorem test_store_scrub :
    (let s : State := { served with tkr := { served.tkr with prog := [0x3FFFF] } }
    let t := after (.storeScrub 0x3FFFF 0) s
    (s.mode = .active ∧ s.tkr.programmed 0x3FFFF = true ∧ s.tkr.isBad 0x3FFFF = false ∧ freeB s (s.planeOf 0x3FF) 3 = true) ∧
    (t.tkr.store = s.tkr.store ∧ t.fab = s.fab ∧ t.reg Reg.tkrEccCorr = s.reg Reg.tkrEccCorr)) ∧
    (let s : State := { served with tkr := { served.tkr with prog := [0x3FFFF] } }
    let t := after (.storeScrub 0x3FFFF 8) s
    (s.mode = .active ∧ s.tkr.programmed 0x3FFFF = true ∧ s.tkr.isBad 0x3FFFF = false ∧ freeB s (s.planeOf 0x3FF) 3 = true) ∧
    (t.tkr.store = s.tkr.store ∧ t.tkr.bad = s.tkr.bad ∧ 0x3FF ∈ t.tkr.weak ∧ 0x3FF ∈ t.tkr.worn ∧ t.reg Reg.tkrEccCorr = min 65535 (s.reg Reg.tkrEccCorr + 1))) ∧
    (let s : State := { served with tkr := { served.tkr with prog := [0x3FFFF] } }
    let t := after (.storeScrub 0x3FFFF 9) s
    (s.mode = .active ∧ s.tkr.programmed 0x3FFFF = true ∧ s.tkr.isBad 0x3FFFF = false ∧ freeB s (s.planeOf 0x3FF) 3 = true) ∧
    (t.tkr.isBad 0x3FFFF = true ∧ t.reg Reg.tkrEccUncorr = min 65535 (s.reg Reg.tkrEccUncorr + 1) ∧ t.reg32 Reg.tkrUncorrAddr = 0x3FFFF * 256)) := by decide +kernel

theorem test_block_refresh :
    let s : State := { served with tkr := { served.tkr with weak := [48] } }
    let t := after (.blockRefresh 48 true) s
    (s.mode = .active ∧ mayErase 48 = true ∧ (bestSpare s.tkr).isSome = true ∧ freeB s (s.planeOf 48) 4 = true ∧ 48 ∈ s.tkr.weak ∧ 48 ∉ s.tkr.worn
      ∧ (s.tkr.bad.any fun p => p / 256 == 48) = false) ∧
    (some (t.tkr.phys 48) = bestSpare s.tkr ∧ t.tkr.store = s.tkr.store ∧ t.tkr.retired = s.tkr.retired ∧ t.tkr.free = s.tkr.free.erase (t.tkr.phys 48) ++ [s.tkr.phys 48]) := by decide +kernel

theorem test_block_retire :
    let s : State := { served with tkr := { served.tkr with worn := [48] } }
    let t := after (.blockRetire 48 1) s
    (s.mode = .active ∧ mayErase 48 = true ∧ (bestSpare s.tkr).isSome = true ∧ freeB s (s.planeOf 48) 4 = true ∧ s.mayRetire 48 1 = true) ∧
    (some (t.tkr.phys 48) = bestSpare s.tkr ∧ t.tkr.retired = s.tkr.retired + 1 ∧ t.tkr.free = s.tkr.free.erase (t.tkr.phys 48)) := by decide +kernel

/-! 15, Measurement. -/

theorem test_oneshot_go :
    (let s : State := fed
    let t := after (.oneshotGo 0 0x8700#16) s
    (s.mode = .active ∧ (s.tlm.os.get (0 : Agent)).busy = false ∧ absentChannel s.part.variant 0 = false) ∧
    (t.tlm.os.get (0 : Agent) = ⟨true, 0, 7⟩ ∧ t.fld (Reg.tlmOsStat (0 : Agent).val) 4 4 = 0)) ∧
    (let s : State := fed
    let t := after (.oneshotGo 0 0x801C#16) s
    (s.mode = .active) ∧
    (t.tlm = s.tlm ∧ t.fld (Reg.tlmOsStat (0 : Agent).val) 4 4 = 6)) ∧
    (let s : State := { fed with tlm := { fed.tlm with os := fed.tlm.os.set 0 ⟨true, 3, 0⟩ } }
    let t := after (.oneshotGo 0 0x8001#16) s
    (s.mode = .active ∧ (s.tlm.os.get (0 : Agent)).busy = true) ∧
    (t.tlm = s.tlm ∧ t.fld (Reg.tlmOsStat (0 : Agent).val) 4 4 = 6)) ∧
    (let s : State := { fed with part := { fed.part with variant := .qd6440 } }
    let t := after (.oneshotGo 0 0x8003#16) s
    (s.mode = .active ∧ (s.tlm.os.get (0 : Agent)).busy = false ∧ absentChannel s.part.variant 3 = true) ∧
    (t.tlm = s.tlm ∧ t.fld (Reg.tlmOsStat (0 : Agent).val) 4 4 = 1 ∧ t.reg (Reg.tlmOsResult (0 : Agent).val) = 0)) := by decide +kernel

theorem test_oneshot_done :
    let s : State := { fed with tlm := { fed.tlm with os := fed.tlm.os.set 0 ⟨true, 3, 1⟩, order := [0] } }
    let t := after (.oneshotDone 0 [10, -3]) s
    (s.mode = .active ∧ (s.tlm.os.get (0 : Agent)).busy = true ∧ s.tlm.order.head? = some 0 ∧ s.arb.adc.free (s.floors [0, 1]) s.adcNeed none = true) ∧
    ((t.tlm.os.get (0 : Agent)).busy = false ∧ t.flag (Reg.tlmOsStat (0 : Agent).val) 1 = true ∧ t.reg (Reg.tlmOsResult (0 : Agent).val) = bitsOf (meanOf [10, -3]) 16 ∧ t.reg (Reg.tlmOsSpread (0 : Agent).val) = bitsOf 13 16) := by decide +kernel

/-- R30, R31: a one-shot waits for those before it, and for a floor. -/
theorem test_oneshot_waits :
    (let s : State := { fed with tlm := { fed.tlm with os := fed.tlm.os.set 0 ⟨true, 3, 1⟩, order := [1, 0] } }
    s.tlm.order.head? ≠ some 0 ∧ after (.oneshotDone 0 [10, -3]) s = s) ∧
    (let s : State := { fed with tlm := { fed.tlm with os := fed.tlm.os.set 0 ⟨true, 3, 1⟩, order := [0] }, arb := { fed.arb with adc := ⟨false, [(0, 1000)]⟩ } }
    s.arb.adc.free (s.floors [0, 1]) s.adcNeed none = false ∧ after (.oneshotDone 0 [10, -3]) s = s) := by decide +kernel

/-- R566: a one-shot of an NTC turns NTCB on until it is over. -/
theorem test_ntcb :
    let s : State := after (.oneshotGo 0 0x8018#16) fed
    s.tlm.ntcb = true ∧ (after (.oneshotDone 0 [1]) s).tlm.ntcb = false := by decide +kernel

theorem test_telemetry_due :
    let s : State := fed
    let t := after (.telemetryDue 0) s
    (s.mode = .active ∧ s.entryRuns 0 = true ∧ (s.tlm.flight.any (·.1 == 0) = false)) ∧
    (t.tlm.flight = s.tlm.flight ++ [(0, s.reg (Reg.tlmCfg + 0))] ∧ t.regs = s.regs) := by decide +kernel

theorem test_telemetry_late :
    let s : State := { fed with tlm := { fed.tlm with flight := [(0, 0x8000)] } }
    let t := after (.telemetryDue 0) s
    (s.mode = .active ∧ s.entryRuns 0 = true ∧ (s.tlm.flight.any (·.1 == 0) = true)) ∧
    (t.tlm.flight = s.tlm.flight ∧ t.reg Reg.tlmLateCnt = min 65535 (s.reg Reg.tlmLateCnt + 1) ∧ t.flag Reg.bgLate 0 = true ∧ t.tlm.lateRecent = true) := by decide +kernel

theorem test_telemetry_result :
    let s : State := ({ fed with tlm := { fed.tlm with flight := [(30, 0x8040)] } } : State).setReg (Reg.tlmLimhiE + 30) 5
    let t := after (.telemetryResult 30 [6, 6] 100) s
    (s.mode = .active ∧ s.tlm.flight.find? (·.1 == 30) = some (30, 0x8040) ∧ 100 ≤ s.reg (Reg.tlmPeriod + 30) * 125 ∧ absentChannel s.part.variant 0 = false ∧ s.earlierDue 30 = false ∧ s.arb.adc.mayRun (s.floors [0, 1]) s.adcNeed s.adcFg 0 = true) ∧
    (t.reg (Reg.tlmLastE + 30) = bitsOf (meanOf [6, 6]) 16 ∧ t.tlm.flight = s.tlm.flight.erase (30, 0x8040) ∧ (channelValue 0 (s.reg (Reg.tlmLimhiE + 30)) < 6 → t.flag (Reg.tlmLimitStat + 30 / 16) (30 % 16) = true)) := by decide +kernel

/-- R26: an atom of telemetry waits for a one-shot that has waited since the last boundary. -/
theorem test_telemetry_waits :
    let s : State := { fed with tlm := { fed.tlm with flight := [(30, 0x8040)], order := [2] }, arb := { fed.arb with adc := ⟨true, []⟩ } }
    (s.mode = .active ∧ s.tlm.flight.any (·.1 == 30) = true ∧ s.earlierDue 30 = false ∧ s.arb.adc.mayRun (s.floors [0, 1]) s.adcNeed s.adcFg 0 = false) ∧
    (after (.telemetryResult 30 [6, 6] 100) s = s.setAdc (s.arb.adc.await 0)) := by decide +kernel

/-- R31: a share of 1/4 lets a waiting activity with one atom to go wait three grants at most; it is due after three. -/
theorem test_floor : floorKept 1 4 1 2 = true ∧ floorKept 1 4 1 3 = false ∧ floorDue 1 4 2 = false ∧ floorDue 1 4 3 = true := by decide

theorem test_tlm_cfg :
    (let s : State := fed
    let t := after (.tlmCfg 22 false 0x801B#16) s
    (s.mode = .active) ∧
    (t.fld (Reg.tlmCfg + 22) 0 6 = 27 ∧ t.flag (Reg.tlmCfg + 22) 15 = true ∧ t.tlm = s.tlm)) ∧
    (let s : State := fed
    let t := after (.tlmCfg 63 false 0x003F#16) s
    (s.mode = .active) ∧
    (t.fld (Reg.tlmCfg + 63) 0 6 = 63 ∧ t.flag (Reg.tlmCfg + 63) 15 = false ∧ t.tlm = s.tlm)) ∧
    (let s : State := fed
    let t := after (.tlmCfg 22 true 0#16) s
    (s.mode = .active) ∧
    (t.fld (Reg.tlmPeriod + 22) 0 12 = 1 ∧ t.tlm = s.tlm)) ∧
    (let s : State := fed
    let t := after (.tlmCfg 63 true 0xFFFF#16) s
    (s.mode = .active) ∧
    (t.fld (Reg.tlmPeriod + 63) 0 12 = 0xFFF ∧ t.tlm = s.tlm)) := by decide +kernel

theorem test_history_interval :
    let s : State := fed
    let t := after (.historyIntervalEnd 3600) s
    (s.mode = .active ∧ s.histDue 3600 = true) ∧
    (t.tkr.hcount = s.tkr.hcount + 1 ∧ t.tkr.hbuf.length = s.tkr.hbuf.length + 1 ∧ t.tlm.hist.secs = 0) := by decide +kernel

theorem test_hist_interval_write :
    let s : State := fed.setFlag Reg.kprStat 1 false
    let t := after (.tlmHistInterval 1#16 59) s
    (s.mode = .active ∧ s.rtcValid = false) ∧
    (t.fld Reg.tlmHistInterval 0 6 = 1 ∧ t.tkr = s.tkr ∧ t.tlm = s.tlm) := by decide +kernel

theorem test_hist_interval_ends :
    let s : State := fed.setFlag Reg.kprStat 1 false
    let t := after (.tlmHistInterval 60#16 3600) s
    (s.mode = .active ∧ s.rtcValid = false ∧ s.reg Reg.tlmHistInterval < 64) ∧
    (t.fld Reg.tlmHistInterval 0 6 = 60 ∧ t.tkr.hcount = s.tkr.hcount + 1) := by decide +kernel

theorem test_cal_run :
    let s : State := fed
    let t := after (.calRun) s
    (s.mode = .active) ∧
    (t.cal.busy = true ∧ t.cal.again = s.cal.busy ∧ (s.cal.busy = true ∨ t.chk.tests.get 3 = s.unitUsable 3)) := by decide +kernel

theorem test_cal_trigger_period :
    let s : State := fed
    let t := after (.calTrigger 300 65535) s
    (s.mode = .active ∧ s.reg Reg.calPeriod ≤ 65535) ∧
    (t.cal.busy = true) := by decide +kernel

theorem test_cal_trigger_temp :
    let s : State := { fed with cal := { fed.cal with fuseOnly := false } }
    let t := after (.calTrigger 1000 0) s
    (s.mode = .active ∧ s.cal.fuseOnly = false ∧ s.reg Reg.calDtemp * 10 ≤ (1000 - s.cal.die).natAbs) ∧
    (t.cal.busy = true) := by decide +kernel

theorem test_cal_pass :
    let s : State := { fed with cal := { fed.cal with busy := true } }
    let t := after (.calPassEnd ⟨327, -327, 0, 0⟩ ⟨327, -327, 0, 0⟩ 0 0 0 250) s
    (s.mode = .active ∧ s.cal.busy = true ∧ s.arb.adc.mayRun (s.floors [0, 1]) s.adcNeed s.adcFg 1 = true ∧ calWithin ⟨327, -327, 0, 0⟩ ⟨327, -327, 0, 0⟩ = true) ∧
    (t.cal.fail = false ∧ t.cal.busy = s.cal.again ∧ t.cal.coef = ⟨⟨327, 0xFEB9, 0, 0⟩, ⟨327, 0xFEB9, 0, 0⟩⟩ ∧ t.reg Reg.calPasses = min 65535 (s.reg Reg.calPasses + 1)) := by decide +kernel

theorem test_cal_fails :
    let s : State := { fed with cal := { fed.cal with busy := true } }
    let t := after (.calPassEnd ⟨0, 0, 0, 0⟩ ⟨328, 0, 0, 0⟩ 0 0 0 250) s
    (s.mode = .active ∧ s.cal.busy = true ∧ s.arb.adc.mayRun (s.floors [0, 1]) s.adcNeed s.adcFg 1 = true ∧ calWithin ⟨0, 0, 0, 0⟩ ⟨328, 0, 0, 0⟩ = false) ∧
    (t.cal.fail = true ∧ t.cal.coef = s.cal.coef ∧ t.reg Reg.calPasses = s.reg Reg.calPasses) := by decide +kernel

theorem test_tbo_trim :
    let s : State := { fed with cal := { fed.cal with trimDie := 250 } }
    let t := after (.tboTrim 270) s
    (s.mode = .active ∧ 20 ≤ (270 - s.cal.trimDie).natAbs) ∧
    (t.cal = { s.cal with trimDie := 270 }) := by decide +kernel

theorem test_sense_offset :
    let s : State := live
    let t := after (.senseOffset 0 (-32768)) s
    (s.mode = .active ∧ s.noPoint 0 = false ∧ s.zeroCurrent 0 = true ∧ s.arb.adc.mayRun (s.floors [0, 1]) s.adcNeed s.adcFg 1 = true) ∧
    (t.reg (Reg.calOfsS + 0) = 0x8000 ∧ t.reg (Reg.calOfsAgeS + 0) = 0 ∧ bit t.cal.stale.toNat 0 = false) := by decide +kernel

theorem test_sense_offset_last :
    let s : State := fed
    let t := after (.senseOffset 5 32767) s
    (s.mode = .active ∧ s.noPoint 5 = false ∧ s.zeroCurrent 5 = true ∧ s.arb.adc.mayRun (s.floors [0, 1]) s.adcNeed s.adcFg 1 = true) ∧
    (t.reg (Reg.calOfsS + 5) = 0x7FFF ∧ t.reg (Reg.calOfsAgeS + 5) = 0 ∧ bit t.cal.stale.toNat 5 = false) := by decide +kernel

theorem test_offset_stale :
    let s : State := fed.setReg (Reg.calOfsAgeS + 7) 65535
    let t := after (.offsetStale 7) s
    (s.mode = .active ∧ s.noPoint 7 = false ∧ bit s.cal.stale.toNat 7 = false ∧ 60 * s.reg Reg.calOfsMax < s.reg (Reg.calOfsAgeS + 7)) ∧
    (bit t.cal.stale.toNat 7 = true ∧ postedB s t 473 0 = true ∧ t.flag Reg.bgLate 1 = true) := by decide +kernel

theorem test_deadline_miss :
    (let s : State := fed
    let t := after (.deadlineMiss 0) s
    (s.mode = .active) ∧
    (t.flag Reg.bgLate 0 = true ∧ t.reg Reg.tlmLateCnt = min 65535 (s.reg Reg.tlmLateCnt + 1))) ∧
    (let s : State := fed
    let t := after (.deadlineMiss 3) s
    (s.mode = .active) ∧
    (t.flag Reg.bgLate 3 = true ∧ t.tkr.scrubLate = true)) ∧
    (let s : State := fed
    let t := after (.deadlineMiss 5) s
    (s.mode = .active) ∧
    (t.flag Reg.bgLate 5 = true)) := by decide +kernel

/-! Rules as they stand, and the gate supply. -/

theorem test_vdrv_low :
    let s : State := fed
    let t := after (.vdrvUndervoltage 7199) s
    (7199 < 7200) ∧
    (t.mode = s.mode) := by decide +kernel

theorem test_vdrv_good :
    let s : State := { fed with cnv := { fed.cnv with vdrvLow := true } }
    let t := after (.vdrvUndervoltage 7800) s
    (7800 ≤ 7800) ∧
    (t.mode = s.mode) := by decide +kernel

end Sys2Proof.Tests
end

section
/-! Where a SHIP request is refused (R74). INPUT_VALID comes before BLOCKED where both refusals are due (log 30). -/

namespace Sys2Proof.Machine

theorem exec_enterShip (s : State) : exec .enterShip s = execEnterShip s := rfl

theorem State.active_iff (s : State) : s.active = true ↔ s.mode = .active := by simp [State.active]

/-- R74, INPUT_VALID: a valid input decides before EMERGENCY or a test is asked for. -/
theorem execEnterShip_of_anyValid {s : State} (hm : s.mode = .active) (hv : s.anyValid = true) :
    execEnterShip s = .next (s.powerStatus 2) := by
  have ha : s.active = true := s.active_iff.2 hm
  simp [execEnterShip, ha, hv]

/-- R74, BLOCKED: with no input valid, EMERGENCY or a test in progress refuses the request. -/
theorem execEnterShip_of_emergency_or_testing {s : State} (hm : s.mode = .active) (hv : s.anyValid = false)
    (hb : s.emg.emergency = true ∨ s.testing = true) : execEnterShip s = .next (s.powerStatus 3) := by
  have ha : s.active = true := s.active_iff.2 hm
  obtain he | ht := hb
  · simp [execEnterShip, ha, hv, he]
  · simp [execEnterShip, ha, hv, ht]

/-- Settles O21: the request's first two refusals, in the order in which they are asked for. -/
theorem shipRefused : Obligations.ShipRefused := by
  unfold Obligations.ShipRefused
  intro s hm
  rw [exec_enterShip]
  exact ⟨execEnterShip_of_anyValid hm, execEnterShip_of_emergency_or_testing hm⟩

end Sys2Proof.Machine
end

section
/-! Where DOWN, CLEAR and FORCE_OFF are accepted and where BLOCKED (R329). DOWN's status survives the shutdown it starts: a rail
that falls may close a test (R282), and no register that the close of a test writes is SEQ_STAT. -/

namespace Sys2Proof.Machine

/-! A field read after it is written. -/

theorem bits_putBits_same (w lsb width v : Nat) : bits (putBits w lsb width v) lsb width = v % 2 ^ width := by
  have hq : (w - bits w lsb width * 2 ^ lsb) / 2 ^ lsb = 2 ^ width * (w / 2 ^ lsb / 2 ^ width) := by
    rw [Nat.mul_comm (bits w lsb width), Nat.sub_mul_div, bits, Nat.sub_eq_of_eq_add]
    exact (Nat.div_add_mod _ _).symm
  rw [putBits, bits, Nat.add_mul_div_right _ _ (Nat.two_pow_pos lsb), hq, Nat.mul_add_mod, Nat.mod_mod]

/-- A field within the low n bits reads alike before and after the higher bits are cut off. -/
theorem bits_mod_two_pow (w : Nat) {lsb width n : Nat} (h : lsb + width ≤ n) : bits (w % 2 ^ n) lsb width = bits w lsb width := by
  obtain ⟨k, rfl⟩ := Nat.exists_eq_add_of_le h
  rw [bits, bits, Nat.add_assoc, Nat.pow_add, Nat.mod_mul_right_div_self, Nat.mod_mod_of_dvd _ (pow_dvd_pow 2 (Nat.le_add_right _ _))]

/-- A field written in a 16-bit register reads what was written. -/
theorem State.fld_setFld_same (s : State) (i v : Nat) {lsb width : Nat} (h : lsb + width ≤ 16) :
    (s.setFld i lsb width v).fld i lsb width = v % 2 ^ width := by
  rw [State.fld, State.setFld_reg, show 65536 = 2 ^ 16 from rfl, bits_mod_two_pow _ h, bits_putBits_same]

/-! The registers that the close of a test, and so a rail's fall and a shutdown, leave as they are: all outside `closeRegs`. -/

section closeRegs

open Safety (closeRegs)

theorem ne_of_closeRegs {r : Nat} (h : closeRegs r = false) : r ≠ Reg.emgFnNext ∧ r ≠ Reg.emgFnNext + 1 ∧ r ≠ Reg.emgDurNext ∧
    r ≠ Reg.emgDurNext + 1 ∧ r ≠ Reg.chgFault ∧ r ≠ Reg.chgQrem := by
  simpa [closeRegs, and_assoc] using h

theorem State.journal_reg (s : State) (code : Nat) (bs : List Byte) (r : Nat) : (s.journal code bs).reg r = s.reg r :=
  State.reg_congr (by simp) (by simp) (by simp) r

theorem State.connectBest_reg (s : State) (r : Nat) : s.connectBest.reg r = s.reg r :=
  State.reg_congr (by simp) (by simp) (by simp) r

theorem State.commitRecord_reg (s : State) (rec_ : List Byte) (r : Nat) : (s.commitRecord rec_).reg r = s.reg r :=
  State.reg_congr (by simp) (by simp) (by simp) r

theorem State.testEndToLead_reg (s : State) (outcome r : Nat) : (s.testEndToLead outcome).reg r = s.reg r :=
  State.reg_congr (by simp) (by simp) (by simp) r

theorem State.chgFault_reg_ne (s : State) (cause : Nat) {r : Nat} (h : r ≠ Reg.chgFault) : (s.chgFault cause).reg r = s.reg r :=
  calc (s.chgFault cause).reg r
    _ = (s.setReg Reg.chgFault cause).reg r := State.reg_congr (by simp) (by simp) (by simp [State.chgFault]) r
    _ = s.reg r := s.reg_setReg_ne cause h

theorem State.chgEval_reg_ne (s : State) (ov : Bool) (own : Option ChgMove) {r : Nat} (h : r ≠ Reg.chgFault) :
    (s.chgEval ov own).reg r = s.reg r := by
  unfold State.chgEval
  split
  · rfl
  · exact State.reg_congr (by simp) (by simp) (by simp) r
  · exact s.chgFault_reg_ne _ h

theorem State.learnCap_reg_ne (s : State) (cap serial : Nat) {r : Nat} (h : r ≠ Reg.chgQrem) :
    (s.learnCap cap serial).reg r = s.reg r := by
  unfold State.learnCap
  split
  · rfl
  · rw [State.post_reg, State.journal_reg, State.reg_setReg_ne _ _ h]
    rfl

theorem State.dueOver_reg (s : State) (k : TestKind) (r : Nat) : (s.dueOver k).reg r = s.reg r := rfl

theorem State.advanceNext_reg_outside (s : State) (k : TestKind) {r : Nat} (h : closeRegs r = false) :
    (s.advanceNext k).reg r = s.reg r := by
  obtain ⟨hfn, hfn1, hdur, hdur1, -, -⟩ := ne_of_closeRegs h
  cases k with
  | function =>
    simp only [State.advanceNext]
    split_ifs
    · rfl
    · rfl
    · rw [State.reg_setReg32_ne _ _ hfn hfn1, State.dueOver_reg]
  | duration =>
    simp only [State.advanceNext]
    split_ifs
    · rfl
    · rfl
    · rw [State.reg_setReg32_ne _ _ hdur hdur1, State.dueOver_reg]

theorem State.testClose_reg_outside (s : State) (outcome : Nat) {r : Nat} (h : closeRegs r = false) :
    (s.testClose outcome).reg r = s.reg r := by
  obtain ⟨-, -, -, -, hfault, hqrem⟩ := ne_of_closeRegs h
  unfold State.testClose
  split
  · rfl
  · rw [State.chgEval_reg_ne _ _ _ hfault, State.testEndToLead_reg, State.post_reg, State.advanceNext_reg_outside _ _ h,
      State.commitRecord_reg, State.learnCap_reg_ne _ _ _ hqrem, State.connectBest_reg]
    rfl

theorem State.when_reg (s : State) (c : Bool) (f : State → State) (r : Nat) :
    (s.when c f).reg r = if c = true then (f s).reg r else s.reg r := by cases c <;> rfl

theorem State.lowerRail_reg_outside (s : State) (k : Rail) {r : Nat} (h : closeRegs r = false) : (s.lowerRail k).reg r = s.reg r := by
  unfold State.lowerRail
  rw [State.when_reg, State.testFault, State.testClose_reg_outside _ _ h, ite_self, State.postIf_reg]
  rfl

theorem State.seqFinish_reg (s : State) (r : Nat) : s.seqFinish.reg r = s.reg r :=
  State.reg_congr (by simp) (by simp) (by simp) r

theorem State.goDown_reg_outside (n : Nat) (s : State) {r : Nat} (h : closeRegs r = false) : (s.goDown n).reg r = s.reg r := by
  induction n generalizing s with
  | zero => rfl
  | succ n ih =>
    unfold State.goDown
    split
    · split
      · rw [ih, State.lowerRail_reg_outside _ _ h]
      · exact State.lowerRail_reg_outside _ _ h
    · exact State.seqFinish_reg _ r

theorem State.shutdownNext_reg_outside (s : State) {r : Nat} (h : closeRegs r = false) : s.shutdownNext.reg r = s.reg r :=
  State.goDown_reg_outside 9 s h

theorem State.startShutdown_reg_outside (s : State) (cause : Nat) (latched : Bool) {r : Nat} (h : closeRegs r = false) :
    (s.startShutdown cause latched).reg r = s.reg r := by
  simp only [State.startShutdown]
  split
  · rw [State.shutdownNext_reg_outside _ h]
    cases latched <;> exact State.reg_congr (by simp) (by simp) (by simp) r
  · rw [State.seqFinish_reg]
    cases latched <;> exact State.reg_congr (by simp) (by simp) (by simp) r

end closeRegs

/-! The three commands in ACTIVE. -/

theorem exec_seqDown (s : State) : exec .seqDown s = execSeqDown s := rfl
theorem exec_seqClear (s : State) : exec .seqClear s = execSeqClear s := rfl
theorem exec_seqForceOff (s : State) : exec .seqForceOff s = execSeqForceOff s := rfl

theorem execSeqDown_accepted {s : State} (hm : s.mode = .active) (h : s.seq.state = .up ∨ s.seq.state = .on ∨ s.seq.state = .held) :
    execSeqDown s = .next ((s.seqStatus 1).startShutdown 1 false) := by
  have ha : s.active = true := s.active_iff.2 hm
  simp [execSeqDown, ha, or_assoc, h]

theorem execSeqDown_blocked {s : State} (hm : s.mode = .active) (hu : s.seq.state ≠ .up) (ho : s.seq.state ≠ .on)
    (hh : s.seq.state ≠ .held) : execSeqDown s = .next (s.seqStatus 2) := by
  have ha : s.active = true := s.active_iff.2 hm
  simp [execSeqDown, ha, hu, ho, hh]

theorem execSeqClear_blocked {s : State} (hm : s.mode = .active) (h : s.seq.state ≠ .off) :
    execSeqClear s = .next (s.seqStatus 2) := by
  have ha : s.active = true := s.active_iff.2 hm
  simp [execSeqClear, ha, h]

theorem execSeqForceOff_blocked {s : State} (hm : s.mode = .active) (h : s.seq.state ≠ .stuck) :
    execSeqForceOff s = .next (s.seqStatus 2) := by
  have ha : s.active = true := s.active_iff.2 hm
  simp [execSeqForceOff, ha, h]

/-- The status written before a shutdown starts is the status read after it. -/
theorem State.fld_startShutdown_seqStatus (s : State) (v cause : Nat) (latched : Bool) :
    ((s.seqStatus v).startShutdown cause latched).fld Reg.seqStat 13 3 = v % 2 ^ 3 := by
  have hk : Safety.closeRegs Reg.seqStat = false := by decide
  have hs : ((s.seqStatus v).startShutdown cause latched).reg Reg.seqStat = (s.seqStatus v).reg Reg.seqStat :=
    State.startShutdown_reg_outside _ cause latched hk
  rw [State.fld, hs]
  exact s.fld_setFld_same Reg.seqStat v (by decide)

/-- Settles O33: DOWN by the branch its state selects, CLEAR and FORCE_OFF by the one state that accepts each. -/
theorem commandsBlocked : Obligations.CommandsBlocked := by
  unfold Obligations.CommandsBlocked
  intro s hm
  rw [exec_seqDown, exec_seqClear, exec_seqForceOff]
  refine ⟨fun h => ?_, execSeqDown_blocked hm, execSeqClear_blocked hm, execSeqForceOff_blocked hm⟩
  have hd : exec .seqDown s = .next ((s.seqStatus 1).startShutdown 1 false) := execSeqDown_accepted hm h
  exact ⟨_, hd, s.fld_startShutdown_seqStatus 1 1 false⟩

end Sys2Proof.Machine
end

section
/-! A partner that the port cannot serve (R338). The mark `unsup` is the whole of it: UNSUPPORTED_ATTACH sets it and posts, while it
stands neither UNSUPPORTED_ATTACH nor ATTACH acts, and DETACH clears it. -/

namespace Sys2Proof.Machine

/-! A port command acts when its condition holds, and otherwise changes nothing. -/

theorem State.onPort_of_true {s : State} {p : Port} {ok : Bool} (f : State → State) (hp : s.part.variant.hasPort p = true)
    (hok : ok = true) : s.onPort p ok f = .next (f s) := by
  simp [State.onPort, hp, hok]

theorem State.onPort_of_false (s : State) (p : Port) {ok : Bool} (f : State → State) (hok : ok = false) :
    s.onPort p ok f = .next s := by
  simp [State.onPort, hok]

theorem State.onPort_of_fixed {s : State} (p : Port) (ok : Bool) {f : State → State} (hf : f s = s) : s.onPort p ok f = .next s := by
  simp [State.onPort, hf]

/-- A posting does not see the state of the ports. -/
@[simp] theorem State.postFab_setPrt (s : State) (p : Port) (c : PortSt) (x o : Nat) : (s.setPrt p c).postFab x o = s.postFab x o :=
  State.postFab_congr (by simp) (by simp) (by simp) (by simp) (by simp) x o

@[simp] theorem State.post_prt (s : State) (x : Nat) (p : Port) : (s.post x).prt p = s.prt p := rfl

@[simp] theorem State.pdFresh_prt (s : State) (p : Port) : (s.pdFresh p).prt p = { s.prt p with sent := [], bist := false } :=
  s.prt_setPrt_same p _

/-! The three commands. -/

theorem exec_unsupportedAttach (p : Port) (s : State) : exec (.unsupportedAttach p) s = execUnsupportedAttach p s := rfl
theorem exec_attach (p : Port) (source cc2 : Bool) (rp rev ms : Nat) (s : State) :
    exec (.attach p source cc2 rp rev ms) s = execAttach p source cc2 rp rev ms s := rfl
theorem exec_detach (p : Port) (ms : Nat) (s : State) : exec (.detach p ms) s = execDetach p ms s := rfl

/-- The partner is found: the mark is set and the event posted. -/
theorem execUnsupportedAttach_found {s : State} {p : Port} (hp : s.part.variant.hasPort p = true) (hm : s.mode = .active)
    (hr : (s.prt p).role = .none) (hu : (s.prt p).unsup = false) (ho : (s.prt p).openCc = false) (hi : (s.prt p).roleIn ≠ 0) :
    execUnsupportedAttach p s
      = .next ((s.setPrt p { s.prt p with unsup := true, trying := .none, sent := [] }).post (portSrc p + 16)) := by
  have ha : s.active = true := s.active_iff.2 hm
  exact State.onPort_of_true _ hp (by simp [ha, hr, hu, ho, hi])

/-- A partner already found is not posted again. -/
theorem execUnsupportedAttach_again {s : State} {p : Port} (hu : (s.prt p).unsup = true) : execUnsupportedAttach p s = .next s :=
  s.onPort_of_false p _ (by simp [hu])

theorem State.onPartner_of_unsup {s : State} {p : Port} (hu : (s.prt p).unsup = true) (source : Bool) (ms : Nat) :
    s.onPartner p source ms = .stay := by
  simp [State.onPartner, hu]

/-- While the partner stays, nothing attaches: whatever the command's condition, the port takes no step towards the partner. -/
theorem execAttach_of_unsup {s : State} {p : Port} (hu : (s.prt p).unsup = true) (source cc2 : Bool) (rp rev ms : Nat) :
    execAttach p source cc2 rp rev ms s = .next s := by
  unfold execAttach
  exact State.onPort_of_fixed p _ (by simp [State.onPartner_of_unsup hu])

/-- The partner of an unattached port leaves: the mark goes, and nothing else of the detach happens. -/
theorem execDetach_of_unsup {s : State} {p : Port} {ms : Nat} (hp : s.part.variant.hasPort p = true) (hm : s.mode = .active)
    (hr : (s.prt p).role = .none) (hu : (s.prt p).unsup = true) (hms : 15 ≤ ms) :
    execDetach p ms s = .next ((s.pdFresh p).setPrt p { (s.pdFresh p).prt p with unsup := false }) := by
  have ha : s.active = true := s.active_iff.2 hm
  have hok : (decide (15 ≤ ms) && ((s.prt p).role != .none || (s.prt p).unsup)) = true := by simp [hms, hu]
  rw [execDetach, State.onPort_of_true _ hp hok]
  simp [ha, hr]

/-- Settles O53: the mark set with one posting, the two commands that it stops, and its end with the partner's detach. -/
theorem unsupportedPartner : Obligations.UnsupportedPartner := by
  unfold Obligations.UnsupportedPartner
  intro s p hp hm hr
  refine ⟨fun hu ho hi => ?found, fun hu => ⟨execUnsupportedAttach_again hu, execAttach_of_unsup hu⟩, fun ms hu hms => ?leaves⟩
  case found =>
    exact ⟨_, execUnsupportedAttach_found hp hm hr hu ho hi, by simp [hr]⟩
  case leaves =>
    exact ⟨_, execDetach_of_unsup hp hm hr hu hms, by simp [hr]⟩

end Sys2Proof.Machine
end

section
/-! Transactions that break off (R413, R439) and notify frames that are not acknowledged (R453). A broken transaction ends like any
other, with nothing on the bus and one event counted and posted; an unacknowledged frame leaves the bus and calls its agent again,
or hands it over to ALERT_N. -/

namespace Sys2Proof.Machine

/-! The end of a transaction. -/

/-- The transaction has put `reply` on the bus and is over; calls that it has answered end. -/
def State.endTransaction (s : State) (reply : List Byte) : State :=
  ({ s with ser := { s.ser with reply := reply, acked := true, frame := .none, busBusy := false } } : State).attnSettle

theorem State.transact_of_active {s : State} (f : State → State × List Byte) (hm : s.mode = .active) (hf : (f s).1.mode = .active) :
    s.transact f = .next ((f s).1.endTransaction (f s).2) := by
  have hs : s.active = true := s.active_iff.2 hm
  have hfs : (f s).1.active = true := (f s).1.active_iff.2 hf
  simp [State.transact, hs, hfs, State.endTransaction]

theorem State.attnSettle_ptr (s : State) (a : Agent) : (s.attnSettle.ser.ag.get a).ptr = (s.ser.ag.get a).ptr := by
  match a with
  | 0 | 1 | 2 | 3 => rfl

@[simp] theorem State.endTransaction_regs (s : State) (bs : List Byte) : (s.endTransaction bs).regs = s.regs := rfl
@[simp] theorem State.endTransaction_fab (s : State) (bs : List Byte) : (s.endTransaction bs).fab = s.fab := rfl
@[simp] theorem State.endTransaction_tkr (s : State) (bs : List Byte) : (s.endTransaction bs).tkr = s.tkr := rfl
@[simp] theorem State.endTransaction_reply (s : State) (bs : List Byte) : (s.endTransaction bs).ser.reply = bs := rfl

@[simp] theorem State.endTransaction_ptr (s : State) (bs : List Byte) (a : Agent) :
    ((s.endTransaction bs).ser.ag.get a).ptr = (s.ser.ag.get a).ptr :=
  State.attnSettle_ptr _ a

/-! Transactions that break off. -/

theorem exec_busError (a : Agent) (s : State) : exec (.busError a) s = execBusError a s := rfl
theorem exec_busTimeout (a : Agent) (ms : Nat) (s : State) : exec (.busTimeout a ms) s = execBusTimeout a ms s := rfl

theorem execBusError_of_active {s : State} (a : Agent) (hm : s.mode = .active) :
    execBusError a s = .next (((s.bump Reg.serBusErrs 1).post 430).endTransaction []) :=
  State.transact_of_active _ hm (by simpa using hm)

/-- R439, with the timeout enabled and SCL low for long enough. -/
theorem execBusTimeout_of_enabled {s : State} (a : Agent) {ms : Nat} (hm : s.mode = .active) (he : s.flag Reg.serCfg 4 = true)
    (hms : 25 ≤ ms) : execBusTimeout a ms s = .next (((s.bump Reg.serTimeouts 1).post 429).endTransaction []) := by
  rw [execBusTimeout, State.transact_of_active _ hm (by simpa [he, hms] using hm)]
  simp [he, hms]

/-! Notify frames that are not acknowledged. -/

theorem exec_notifyNack (s : State) : exec .notifyNack s = execNotifyNack s := rfl

/-- The frame has left the bus; the next one waits for the backoff. -/
def State.frameDropped (s : State) : State := { s with ser := { s.ser with frame := .none, backoff := true, reply := [] } }

/-- The agent is called by ALERT_N from now on, and its retries begin anew. -/
def State.fallBack (s : State) (a : Agent) : State := (s.setAg a fun g => { g with fallback := true, tries := 0 }).alertLow

theorem State.calling_of_active {s : State} (f : State → State) (hm : s.mode = .active) : s.calling f = .next (f s.attnSettle) := by
  have hs : s.active = true := s.active_iff.2 hm
  simp [State.calling, hs]

@[simp] theorem State.attnSettle_frame (s : State) : s.attnSettle.ser.frame = s.ser.frame := rfl

theorem execNotifyNack_retries {s : State} {a : Agent} (hm : s.mode = .active) (hf : s.ser.frame = .notify a)
    (hn : (s.attnSettle.ser.ag.get a).tries < 3) :
    execNotifyNack s = .next (s.attnSettle.frameDropped.setAg a fun g =>
      { g with want := true, tries := (s.attnSettle.ser.ag.get a).tries + 1 }) := by
  rw [execNotifyNack, State.calling_of_active _ hm]
  simp [hf, hn, State.frameDropped]

theorem execNotifyNack_fallsBack {s : State} {a : Agent} (hm : s.mode = .active) (hf : s.ser.frame = .notify a)
    (hn : 3 ≤ (s.attnSettle.ser.ag.get a).tries) :
    execNotifyNack s = .next ((s.attnSettle.frameDropped.fallBack a).post (424 + a.val)) := by
  rw [execNotifyNack, State.calling_of_active _ hm]
  simp [hf, Nat.not_lt.2 hn, State.frameDropped, State.fallBack]

@[simp] theorem State.frameDropped_frame (s : State) : s.frameDropped.ser.frame = .none := rfl
@[simp] theorem State.frameDropped_backoff (s : State) : s.frameDropped.ser.backoff = true := rfl
@[simp] theorem State.setAg_frame (s : State) (a : Agent) (f : SerAgent → SerAgent) : (s.setAg a f).ser.frame = s.ser.frame := rfl
@[simp] theorem State.setAg_backoff (s : State) (a : Agent) (f : SerAgent → SerAgent) : (s.setAg a f).ser.backoff = s.ser.backoff := rfl
@[simp] theorem State.fallBack_frame (s : State) (a : Agent) : (s.fallBack a).ser.frame = s.ser.frame := rfl
@[simp] theorem State.fallBack_alert (s : State) (a : Agent) : (s.fallBack a).ser.alert = true := rfl

@[simp] theorem State.fallBack_fallback (s : State) (a : Agent) : ((s.fallBack a).ser.ag.get a).fallback = true :=
  congrArg SerAgent.fallback (s.setAg_same a fun g => { g with fallback := true, tries := 0 })

/-! A posting does not see the serial port. -/

@[simp] theorem State.postFab_attnSettle (s : State) (x o : Nat) : s.attnSettle.postFab x o = s.postFab x o :=
  State.postFab_congr (by simp) (by simp) (by simp) (by simp) (by simp) x o

@[simp] theorem State.postFab_frameDropped (s : State) (x o : Nat) : s.frameDropped.postFab x o = s.postFab x o :=
  s.postFab_congr (t := s.frameDropped) rfl rfl rfl rfl rfl x o

@[simp] theorem State.postFab_fallBack (s : State) (a : Agent) (x o : Nat) : (s.fallBack a).postFab x o = s.postFab x o :=
  s.postFab_congr (t := s.fallBack a) rfl rfl rfl rfl rfl x o

/-! FALLBACK as SER_AGTn_STAT shows it. -/

theorem bit_eq_bits (w i : Nat) : bit w i = (bits w i 1 == 1) := rfl

theorem State.live_serAgtStat (s : State) (b a : Agent) : s.live b (Reg.serAgtStat a.val)
    = some (putBits (s.reg (Reg.serAgtStat a.val)) 7 1 (b2n (s.ser.ag.get a).fallback)) := by
  match a with
  | 0 | 1 | 2 | 3 => rfl

theorem implemented_serAgtStat (a : Agent) : implemented (Reg.serAgtStat a.val) = true := by
  revert a
  decide

theorem absentReg_serAgtStat (v : Variant) (a : Agent) : absentReg v (Reg.serAgtStat a.val) = false := by
  revert a
  cases v <;> decide

theorem absentBits_serAgtStat (v : Variant) (a : Agent) : absentBits v (Reg.serAgtStat a.val) = 0 := by
  match a with
  | 0 | 1 | 2 | 3 => rfl

theorem State.peek_serAgtStat (s : State) (b a : Agent) : s.peek b (Reg.serAgtStat a.val)
    = putBits (s.reg (Reg.serAgtStat a.val)) 7 1 (b2n (s.ser.ag.get a).fallback) % 65536 := by
  simp [State.peek, implemented_serAgtStat, absentReg_serAgtStat, absentBits_serAgtStat, State.live_serAgtStat, clearBits]

theorem State.bit_peek_serAgtStat_fallback (s : State) (b a : Agent) :
    bit (s.peek b (Reg.serAgtStat a.val)) 7 = (s.ser.ag.get a).fallback := by
  rw [State.peek_serAgtStat, bit_eq_bits, show 65536 = 2 ^ 16 from rfl, bits_mod_two_pow _ (by decide), bits_putBits_same]
  cases (s.ser.ag.get a).fallback <;> rfl

/-- Settles O54: the two broken transactions by the way they end, the unacknowledged frame by the retries made so far. -/
theorem brokenTransactions : Obligations.BrokenTransactions := by
  unfold Obligations.BrokenTransactions
  intro s a hm
  refine ⟨?busError, fun ms he hms => ?busTimeout, fun hf hn => ?retry, fun hf hn => ?fallBack⟩
  case busError => exact ⟨_, execBusError_of_active a hm, by simp⟩
  case busTimeout => exact ⟨_, execBusTimeout_of_enabled a hm he hms, by simp⟩
  case retry => exact ⟨_, execNotifyNack_retries hm hf hn, by simp⟩
  case fallBack =>
    refine ⟨_, execNotifyNack_fallsBack hm hf hn, ?_⟩
    simp [State.bit_peek_serAgtStat_fallback]

end Sys2Proof.Machine
end

section
/-! WAKE_N in ACTIVE (R480). -/

namespace Sys2Proof.Machine

theorem exec_wakeNLow (us : Nat) (s : State) : exec (.wakeNLow us) s = execWakeNLow us s := rfl

/-- A wake starts the part, and in ACTIVE it is started. -/
theorem State.wake_of_active {s : State} (hm : s.mode = .active) (bit : Nat) : s.wake bit = s := by simp [State.wake, hm]

/-- Settles O57: a pull that is long enough is a wake, and in ACTIVE a wake leaves the state; a shorter one does nothing. -/
theorem wakeWhileActive : Obligations.WakeWhileActive := by
  unfold Obligations.WakeWhileActive
  intro s us hm
  rw [exec_wakeNLow, execWakeNLow, State.wake_of_active hm, ite_self]

end Sys2Proof.Machine
end

section
/-! A posting without a live route (R466). -/

namespace Sys2Proof.Machine

/-- The fabric after a posting that nothing takes: it has its EVT_SEQ and its timestamp, and one more is counted as unrouted. -/
def Fabric.discarded (f : Fabric) : Fabric :=
  { f with seq := f.seq + 1, stamp := f.stamp + 1, unrouted := min 65535 (f.unrouted + 1) }

theorem Route.live_eq_false_iff (r : Route) : r.live = false ↔ r.en = false ∨ r.mask = 0 := by
  cases h : r.en <;> simp [Route.live, h]

theorem State.postOne_of_not_live {s : State} {x : Nat} (h : (s.route x).live = false) (f : Fabric) (o : Nat) :
    s.postOne f x o = (f.discarded, []) := by
  simp [State.postOne, h, Fabric.discarded, satAdd]

/-- A discarded posting brings no further one. -/
theorem State.postAll_of_not_live {s : State} {x : Nat} (h : (s.route x).live = false) (n : Nat) (f : Fabric) (o : Nat) :
    s.postAll (n + 1) [(x, o)] f = f.discarded := by
  cases n <;> simp [State.postAll, State.postOne_of_not_live h]

theorem State.postFab_of_not_live {s : State} {x : Nat} (hm : s.mode = .active) (ha : absentSource s.part.variant x = false)
    (h : (s.route x).live = false) (o : Nat) : s.postFab x o = s.fab.discarded := by
  rw [State.postFab, ha, s.active_iff.2 hm]
  exact State.postAll_of_not_live h 23 s.fab o

theorem exec_eventPost_of_active {s : State} {src : BitVec 9} (hm : s.mode = .active) (hp : postable src.toNat = true) :
    exec (.eventPost src) s = .next (s.post src.toNat) := by
  simp [exec, execEventPost, s.active_iff.2 hm, hp]

theorem exec_evtDoorbell_of_active {s : State} (a : Agent) (d : BitVec 5) (hm : s.mode = .active) :
    exec (.evtDoorbell a d) s = .next (s.postAs d.toNat (a.val + 1)) := by
  simp [exec, execEvtDoorbell, State.ringDoorbell, s.active_iff.2 hm, Nat.mod_eq_of_lt d.isLt]

/-- Settles O55: every posting goes through the fabric's own, which discards it; the two commands post nothing else. -/
theorem unroutedPosting : Obligations.UnroutedPosting := by
  unfold Obligations.UnroutedPosting
  refine ⟨fun s x o hm ha h => State.postFab_of_not_live hm ha ((Route.live_eq_false_iff _).2 h) o, ?_⟩
  rintro s c x hm (⟨src, rfl, rfl, hp⟩ | ⟨a, d, rfl, rfl⟩) ha h
  case inl =>
    exact ⟨_, exec_eventPost_of_active hm hp, State.postFab_of_not_live hm ha ((Route.live_eq_false_iff _).2 h) 0⟩
  case inr =>
    exact ⟨_, exec_evtDoorbell_of_active a d hm, State.postFab_of_not_live hm ha ((Route.live_eq_false_iff _).2 h) _⟩

end Sys2Proof.Machine
end

section
/-! A claim with nothing to claim (R474), and what the claim registers then read. -/

namespace Sys2Proof.Machine

theorem exec_agtnClaim_of_active {s : State} (a : Agent) (hm : s.mode = .active) :
    exec (.agtnClaim a) s = .next (s.claimBy a).attnSettle := by
  simp [exec, execAgtnClaim, s.active_iff.2 hm]

/-- The state with the claim record r latched for agent a. -/
def State.latchClaim (s : State) (a : Agent) (r : ClaimRec) : State :=
  { s with fab := { s.fab with latch := s.fab.latch.set a r } }

@[simp] theorem State.latchClaim_stack (s : State) (a : Agent) (r : ClaimRec) : (s.latchClaim a r).fab.stack = s.fab.stack := rfl

@[simp] theorem State.latchClaim_pend (s : State) (a : Agent) (r : ClaimRec) : (s.latchClaim a r).fab.pend = s.fab.pend := rfl

@[simp] theorem State.latchClaim_latch_same (s : State) (a : Agent) (r : ClaimRec) : (s.latchClaim a r).fab.latch.get a = r := by
  simp [State.latchClaim]

/-- A claim with nothing claimable latches the spurious record and takes nothing. -/
theorem State.claimBy_of_nothing_claimable {s : State} {a : Agent} (h : s.claimable a = []) :
    s.claimBy a = s.latchClaim a (claimRec none) := by
  simp [State.claimBy, h, best, State.latchClaim]

theorem ClaimRec.word_spurious_of_pos {o : Nat} (h1 : 1 ≤ o) (h6 : o ≤ 6) : (claimRec none).word o = 0 := by
  interval_cases o <;> rfl

theorem claimRegs_implemented (a : Agent) {o : Nat} (h : o ≤ 6) : implemented (0x2400 + 0x200 * a.val + o) = true := by
  revert a
  interval_cases o <;> decide

theorem claimRegs_absentReg (v : Variant) (a : Agent) {o : Nat} (h : o ≤ 6) :
    absentReg v (0x2400 + 0x200 * a.val + o) = false := by
  simp [absentReg]
  omega

theorem claimRegs_absentBits (v : Variant) (a : Agent) {o : Nat} (h : o ≤ 6) : absentBits v (0x2400 + 0x200 * a.val + o) = 0 := by
  have h1 : 0x2400 + 0x200 * a.val + o ≠ 0x1501 ∧ 0x2400 + 0x200 * a.val + o ≠ 0x1502 := by omega
  simp [absentBits, h1]

/-- Bank 0x24 + 2 a is agent a's. -/
theorem State.live_agtBank (s : State) (b a : Agent) {o : Nat} (h : o < 256) :
    s.live b (0x2400 + 0x200 * a.val + o) = s.agtReg a o := by
  have hbank : (0x2400 + 0x200 * a.val + o) / 256 = 0x24 + 2 * a.val := by omega
  unfold State.live
  rw [hbank]
  fin_cases a <;> simp <;> exact congrArg (s.agtReg _) (by omega)

theorem State.live_claimRegs (s : State) (b a : Agent) {o : Nat} (h : o ≤ 6) :
    s.live b (0x2400 + 0x200 * a.val + o) = some ((s.fab.latch.get a).word o) := by
  rw [State.live_agtBank s b a (by omega), State.agtReg, if_pos h]

/-- The claim registers read the record that the agent's last claim latched. -/
theorem State.peek_claimRegs (s : State) (b a : Agent) {o : Nat} (h : o ≤ 6) :
    s.peek b (0x2400 + 0x200 * a.val + o) = (s.fab.latch.get a).word o % 65536 := by
  simp [State.peek, claimRegs_implemented a h, claimRegs_absentReg _ a h, claimRegs_absentBits _ a h, State.live_claimRegs s b a h,
    clearBits]

/-- Settles O47: the claim takes nothing, and its registers read the spurious record that it latches. -/
theorem spuriousClaim : Obligations.SpuriousClaim := by
  unfold Obligations.SpuriousClaim
  refine ⟨by decide, fun s a hm hnone => ⟨_, exec_agtnClaim_of_active a hm, ?_⟩⟩
  rw [State.claimBy_of_nothing_claimable hnone]
  have hpeek : ∀ o, o ≤ 6 → (s.latchClaim a (claimRec none)).attnSettle.peek a (0x2400 + 0x200 * a.val + o)
      = (claimRec none).word o % 65536 := fun o ho => by simp [State.peek_claimRegs _ a a ho]
  refine ⟨by simp, by simp, hpeek 0 (by omega), fun o h1 h6 => ?_⟩
  rw [hpeek o h6, ClaimRec.word_spurious_of_pos h1 h6]

end Sys2Proof.Machine
end

section
/-! The routes of the stack faults (R467). Four registers hold them; no unit writes one, the window and the configuration bank
refuse them, and where the registers go with the digital domain they read as after reset. -/

namespace Sys2Proof.Machine

/-! The four words, and the tables of registers that agree on them. -/

/-- The word of agent a's stack fault route: target mask to a alone, priority 15, group 0, RING 0 (R467). -/
def stackRoute (a : Agent) : Word := BitVec.ofNat 16 (0x81F0 + 2 ^ a.val)

/-- The words that a table of registers holds for the four routes; an unlisted one reads as after reset. -/
def stackWords (m : SMap Word) (a : Agent) : Word := SMap.get (fun _ => stackRoute a) m (Reg.evtRoute (40 + a.val))

/-- The register is one of the four routes. -/
def isStackRoute (i : Nat) : Bool := decide (0x228 ≤ i ∧ i ≤ 0x22B)

theorem SMap.get_congr {α : Type} {d e : Nat → α} {k : Nat} (h : d k = e k) (m : SMap α) :
    SMap.get d m k = SMap.get e m k := by
  induction m with
  | nil => exact h
  | cons x m ih => simp only [SMap.get, ih]

theorem resetWord_stackRoute (p : Part) (st : Straps) (a : Agent) : resetWord p st (Reg.evtRoute (40 + a.val)) = stackRoute a := by
  match a with
  | 0 | 1 | 2 | 3 => rfl

theorem get_eq_stackWords (p : Part) (st : Straps) (m : SMap Word) (a : Agent) :
    SMap.get (resetWord p st) m (Reg.evtRoute (40 + a.val)) = stackWords m a :=
  SMap.get_congr (resetWord_stackRoute p st a) m

theorem State.reg_stackRoute (s : State) (a : Agent) : s.reg (Reg.evtRoute (40 + a.val)) = (stackWords s.regs a).toNat :=
  congrArg BitVec.toNat (get_eq_stackWords s.part s.straps s.regs a)

theorem ne_of_isStackRoute {i : Nat} (h : isStackRoute i = false) (a : Agent) : Reg.evtRoute (40 + a.val) ≠ i := by
  intro he
  have ha := a.isLt
  simp only [isStackRoute, decide_eq_false_iff_not, ← he, Reg.evtRoute] at h
  omega

/-- A write of any other register leaves the four words. -/
@[simp] theorem stackWords_set (p : Part) (st : Straps) (m : SMap Word) {i : Nat} (v : Word) (h : isStackRoute i = false) :
    stackWords (SMap.set (resetWord p st) m i v) = stackWords m := by
  funext a
  rw [← get_eq_stackWords p st, ← get_eq_stackWords p st, SMap.get_set_ne _ _ _ (ne_of_isStackRoute h a)]

/-- A table that lists none of the four reads as after reset. -/
theorem stackWords_of_unlisted {m : SMap Word} (h : ∀ e ∈ m, isStackRoute e.1 = false) : stackWords m = stackRoute := by
  funext a
  induction m with
  | nil => rfl
  | cons e m ih =>
    obtain ⟨he, hm⟩ := List.forall_mem_cons.1 h
    simpa only [stackWords, SMap.get, if_neg (ne_of_isStackRoute he a)] using ih hm

@[simp] theorem stackWords_ite (c : Prop) [Decidable c] (m n : SMap Word) :
    stackWords (if c then m else n) = if c then stackWords m else stackWords n := apply_ite ..

@[simp] theorem State.ite_regs (c : Prop) [Decidable c] (s t : State) : (if c then s else t).regs = if c then s.regs else t.regs :=
  apply_ite ..

/-- States that read the four registers alike hold the same four words. -/
theorem stackWords_of_reg {s t : State} (h : ∀ a : Agent, t.reg (Reg.evtRoute (40 + a.val)) = s.reg (Reg.evtRoute (40 + a.val))) :
    stackWords t.regs = stackWords s.regs :=
  funext fun a => BitVec.eq_of_toNat_eq (by simpa only [State.reg_stackRoute] using h a)

/-! The other registers: those of a unit lie above the four, those of an agent's port below. -/

theorem isStackRoute_of_gt {i : Nat} (h : 0x22B < i) : isStackRoute i = false := by
  simp only [isStackRoute, decide_eq_false_iff_not]
  omega

@[simp] theorem isStackRoute_add {b : Nat} (k : Nat) (h : 0x22B < b) : isStackRoute (b + k) = false :=
  isStackRoute_of_gt (Nat.lt_add_right k h)

@[simp] theorem isStackRoute_add_add {b : Nat} (k l : Nat) (h : 0x22B < b) : isStackRoute (b + k + l) = false :=
  isStackRoute_add l (Nat.lt_add_right k h)

@[simp] theorem isStackRoute_chkCtx_succ (u n : Nat) : isStackRoute (Reg.chkCtx u n + 1) = false :=
  isStackRoute_add_add (b := 0x810 + 0x30 * u) _ _ (by omega)

@[simp] theorem isStackRoute_agent (b : Nat) (a : Agent) (h : b + 0x30 < 0x228) : isStackRoute (b + 0x10 * a.val) = false := by
  simp only [isStackRoute, decide_eq_false_iff_not]
  omega

/-! The writes that every unit makes, and loops of them. -/

@[simp] theorem State.setFld_stackWords (s : State) {i : Nat} (lsb w v : Nat) (h : isStackRoute i = false) :
    stackWords (s.setFld i lsb w v).regs = stackWords s.regs := stackWords_set _ _ _ _ h

@[simp] theorem State.setFlag_stackWords (s : State) {i : Nat} (b : Nat) (v : Bool) (h : isStackRoute i = false) :
    stackWords (s.setFlag i b v).regs = stackWords s.regs := s.setFld_stackWords _ _ _ h

@[simp] theorem State.setReg32_stackWords (s : State) {i : Nat} (v : Nat) (h : isStackRoute i = false)
    (h1 : isStackRoute (i + 1) = false) : stackWords (s.setReg32 i v).regs = stackWords s.regs := by simp [State.setReg32, h, h1]

@[simp] theorem State.bump_stackWords (s : State) {i : Nat} (n : Nat) (h : isStackRoute i = false) :
    stackWords (s.bump i n).regs = stackWords s.regs := stackWords_set _ _ _ _ h

@[simp] theorem State.bump8_stackWords (s : State) {i : Nat} (h : isStackRoute i = false) :
    stackWords (s.bump8 i).regs = stackWords s.regs := stackWords_set _ _ _ _ h

@[simp] theorem State.setSigned_stackWords (s : State) {i : Nat} (v : Int) (h : isStackRoute i = false) :
    stackWords (s.setSigned i v).regs = stackWords s.regs := stackWords_set _ _ _ _ h

@[simp] theorem foldl_stackWords {β : Type} {f : State → β → State} {l : List β}
    (h : ∀ t, ∀ b ∈ l, stackWords (f t b).regs = stackWords t.regs) (s : State) :
    stackWords (l.foldl f s).regs = stackWords s.regs := by
  induction l generalizing s with
  | nil => rfl
  | cons b l ih =>
    obtain ⟨hb, hl⟩ := List.forall_mem_cons.1 fun b hb t => h t b hb
    rw [List.foldl_cons, ih fun t b hb => hl b hb t, hb]

/-! Operations that run what they are given. -/

section given

variable {f : State → State} (hf : ∀ t, stackWords (f t).regs = stackWords t.regs)
include hf

@[simp] theorem State.adcJob_stackWords (s : State) (more : Bool) : stackWords (s.adcJob more f).regs = stackWords s.regs := by
  simp [State.adcJob, hf]

@[simp] theorem State.adcAtom_stackWords (s : State) (n : Nat) : stackWords (s.adcAtom n f).regs = stackWords s.regs := by
  simp [State.adcAtom, hf]

@[simp] theorem State.scrubAtom_stackWords (s : State) (p : Fin 4) : stackWords (s.scrubAtom p f).regs = stackWords s.regs := by
  simp [State.scrubAtom, hf]

@[simp] theorem State.upkeep_stackWords (s : State) (p : Fin 4) (op : TkrOp) :
    stackWords (s.upkeep p op f).regs = stackWords s.regs := by
  simp [State.upkeep, hf]

@[simp] theorem State.ackOnce_stackWords (s : State) (src seqNo : Nat) (key : List Byte) :
    stackWords (s.ackOnce src seqNo key f).regs = stackWords s.regs := by
  simp [State.ackOnce, hf]

end given

@[simp] theorem State.linkTake_stackWords (s : State) (f : AgentFrame) (typ : Nat) {deliver : State → State × Bool}
    (h : stackWords (deliver s).1.regs = stackWords s.regs) : stackWords (s.linkTake f typ deliver).regs = stackWords s.regs := by
  unfold State.linkTake
  dsimp only
  generalize deliver s = r at *
  (repeat' split) <;> simp_all

@[simp] theorem State.runOp_stackWords (s : State) (a : Agent) (op : Nat) {f : Req → State × Answered}
    (h : ∀ r, stackWords (f r).1.regs = stackWords s.regs) : stackWords (s.runOp a op f).regs = stackWords s.regs := by
  unfold State.runOp
  split <;> simp [h]

/-! The selector, the charger's table, tests and the shutdown. -/

@[simp] theorem State.takeOver_stackWords (s : State) : stackWords s.takeOver.regs = stackWords s.regs := by
  simp +decide [State.takeOver]

theorem closeRegs_stackRoute (a : Agent) : Safety.closeRegs (Reg.evtRoute (40 + a.val)) = false := by
  revert a
  decide

@[simp] theorem State.chgEval_stackWords (s : State) (ov : Bool) (own : Option ChgMove) :
    stackWords (s.chgEval ov own).regs = stackWords s.regs :=
  stackWords_of_reg fun a => s.chgEval_reg_ne ov own (ne_of_isStackRoute (by decide) a)

@[simp] theorem State.testProgress_stackWords (s : State) : stackWords s.testProgress.regs = stackWords s.regs := by
  simp +decide [State.testProgress]

@[simp] theorem State.testOver_stackWords (s : State) (u : UnitId) : stackWords (s.testOver u).regs = stackWords s.regs := by
  simp [State.testOver]

@[simp] theorem State.advanceNext_stackWords (s : State) (k : TestKind) : stackWords (s.advanceNext k).regs = stackWords s.regs :=
  stackWords_of_reg fun a => s.advanceNext_reg_outside k (closeRegs_stackRoute a)

@[simp] theorem State.learnCap_stackWords (s : State) (cap serial : Nat) :
    stackWords (s.learnCap cap serial).regs = stackWords s.regs :=
  stackWords_of_reg fun a => s.learnCap_reg_ne cap serial (ne_of_isStackRoute (by decide) a)

@[simp] theorem State.testClose_stackWords (s : State) (outcome : Nat) :
    stackWords (s.testClose outcome).regs = stackWords s.regs :=
  stackWords_of_reg fun a => s.testClose_reg_outside outcome (closeRegs_stackRoute a)

@[simp] theorem State.testFault_stackWords (s : State) : stackWords s.testFault.regs = stackWords s.regs := by
  simp [State.testFault]

@[simp] theorem State.lowerRail_stackWords (s : State) (k : Rail) : stackWords (s.lowerRail k).regs = stackWords s.regs :=
  stackWords_of_reg fun a => s.lowerRail_reg_outside k (closeRegs_stackRoute a)

@[simp] theorem State.shutdownNext_stackWords (s : State) : stackWords s.shutdownNext.regs = stackWords s.regs :=
  stackWords_of_reg fun a => s.shutdownNext_reg_outside (closeRegs_stackRoute a)

@[simp] theorem State.resumeDown_stackWords (s : State) : stackWords s.resumeDown.regs = stackWords s.regs := by
  unfold State.resumeDown
  split <;> simp

@[simp] theorem State.startShutdown_stackWords (s : State) (cause : Nat) (latched : Bool) :
    stackWords (s.startShutdown cause latched).regs = stackWords s.regs :=
  stackWords_of_reg fun a => s.startShutdown_reg_outside cause latched (closeRegs_stackRoute a)

@[simp] theorem State.latchedCause_stackWords (s : State) (cause : Nat) (k : Rail) :
    stackWords (s.latchedCause cause k).regs = stackWords s.regs := by
  unfold State.latchedCause
  split <;> simp

@[simp] theorem State.setPhases_stackWords (s : State) (ps : Four PhaseCell) :
    stackWords (s.setPhases ps).regs = stackWords s.regs := by simp [State.setPhases]

/-! What goes with the digital domain: no field of a route is retained. -/

/-- The routes are plain fields (R488): none is cleared by a read, none is retained. -/
theorem fieldsOf_stackRoute {i : Nat} (h : isStackRoute i = true) : ∀ f ∈ fieldsOf i, f.kind = .rw ∧ f.retained = false := by
  obtain ⟨hlo, hhi⟩ : 0x228 ≤ i ∧ i ≤ 0x22B := by simpa [isStackRoute] using h
  interval_cases i <;> decide

theorem bootFields_of_not_retained {fs : List Field} (h : ∀ f ∈ fs, f.retained = false) (rst old : Nat) :
    bootFields fs rst old = rst := by
  unfold bootFields
  induction fs generalizing rst with
  | nil => rfl
  | cons f fs ih =>
    obtain ⟨hf, hfs⟩ := List.forall_mem_cons.1 h
    rw [List.foldl_cons, hf]
    exact ih hfs rst

/-- A boot returns the four routes to their reset value: no field of theirs is retained. -/
@[simp] theorem State.bootRegs_stackWords (s : State) : stackWords s.bootRegs.regs = stackRoute := by
  refine stackWords_of_unlisted fun e he => ?_
  obtain ⟨e', -, hkept⟩ := List.mem_filterMap.1 he
  cases hi : isStackRoute e'.1 with
  | true =>
    have hfs := bootFields_of_not_retained fun f hf => (fieldsOf_stackRoute hi f hf).2
    simp [hfs] at hkept
  | false =>
    have hkey : e'.1 = e.1 := by
      simp only [Option.ite_none_left_eq_some, Option.some.injEq] at hkept
      rw [← hkept.2]
    exact hkey ▸ hi

theorem convBank_of_isStackRoute {i : Nat} (h : convBank i = true) : isStackRoute i = false := by
  simp only [convBank, Bool.or_eq_true, beq_iff_eq] at h
  simp only [isStackRoute, decide_eq_false_iff_not]
  omega

/-- A watchdog reset takes the routes with it, and they read as after reset. -/
@[simp] theorem State.watchdogDown_stackWords (s : State) : stackWords s.watchdogDown.regs = stackRoute :=
  stackWords_of_unlisted fun _ he => convBank_of_isStackRoute (List.mem_filter.1 he).2

/-! The status of an agent's port. -/

@[simp] theorem State.setStatus_stackWords (s : State) (a : Agent) (v : Nat) :
    stackWords (s.setStatus a v).regs = stackWords s.regs := by simp [State.setStatus]

@[simp] theorem State.denied_stackWords (s : State) (a : Agent) (acc : Nat) :
    stackWords (s.denied a acc).regs = stackWords s.regs := by simp [State.denied]

@[simp] theorem State.pecRefused_stackWords (s : State) (a : Agent) : stackWords (s.pecRefused a).regs = stackWords s.regs := by
  simp [State.pecRefused]

/-! The event fabric: a write of a fixed route is ignored. -/

@[simp] theorem State.writeAgtCtl_stackWords (s : State) (a : Agent) (v : Nat) :
    stackWords (s.writeAgtCtl a v).regs = stackWords s.regs := by simp [State.writeAgtCtl]

@[simp] theorem State.writeRoute_stackWords (s : State) (x v : Nat) : stackWords (s.writeRoute x v).regs = stackWords s.regs := by
  unfold State.writeRoute
  dsimp only
  split
  · rfl
  · rename_i hx
    have hi : isStackRoute (Reg.evtRoute x) = false := by
      simp only [Bool.or_eq_true, Bool.and_eq_true, decide_eq_true_eq] at hx
      simp only [isStackRoute, decide_eq_false_iff_not, Reg.evtRoute]
      omega
    simp [hi]

@[simp] theorem State.watchHit_stackWords (s : State) (x : Nat) : stackWords (s.watchHit x).regs = stackWords s.regs := by
  simp +decide [State.watchHit]

/-! The charger and the gauge. -/

@[simp] theorem State.reloadEmg_stackWords (s : State) (typ : Nat) : stackWords (s.reloadEmg typ).regs = stackWords s.regs := by
  simp +decide [State.reloadEmg]

@[simp] theorem State.setReserve_stackWords (s : State) (avgDis : Nat) :
    stackWords (s.setReserve avgDis).regs = stackWords s.regs := by simp +decide [State.setReserve]

@[simp] theorem State.writeChem_stackWords (s : State) (v : Nat) : stackWords (s.writeChem v).regs = stackWords s.regs := by
  simp +decide [State.writeChem]

@[simp] theorem State.chgClear_stackWords (s : State) : stackWords s.chgClear.regs = stackWords s.regs := by
  simp +decide [State.chgClear]

@[simp] theorem State.setSoc_stackWords (s : State) (anchored : Bool) :
    stackWords (s.setSoc anchored).regs = stackWords s.regs := by simp +decide [State.setSoc]

@[simp] theorem State.anchor_stackWords (s : State) : stackWords s.anchor.regs = stackWords s.regs := by
  simp +decide [State.anchor]

@[simp] theorem State.chgExpire_stackWords (s : State) (counts : Bool) (count limit cause : Nat) :
    stackWords (s.chgExpire counts count limit cause).regs = stackWords s.regs := by simp [State.chgExpire]

@[simp] theorem State.removePack_stackWords (s : State) : stackWords s.removePack.regs = stackWords s.regs := by
  simp [State.removePack]

@[simp] theorem State.insertPack_stackWords (s : State) : stackWords s.insertPack.regs = stackWords s.regs := by
  simp +decide [State.insertPack]

@[simp] theorem State.setTemps_stackWords (s : State) (t1 t2 : Option Int) :
    stackWords (s.setTemps t1 t2).regs = stackWords s.regs := by
  unfold State.setTemps
  (repeat' split) <;> simp +decide

@[simp] theorem State.ntcMeasured_stackWords (s : State) (t1 t2 : Option Int) :
    stackWords (s.ntcMeasured t1 t2).regs = stackWords s.regs := by
  unfold State.ntcMeasured
  split <;> simp

@[simp] theorem State.followCharge_stackWords (s : State) (dq : Int) :
    stackWords (s.followCharge dq).regs = stackWords s.regs := by simp +decide [State.followCharge]

@[simp] theorem State.gaugeFollow_stackWords (s : State) (vbat : Nat) (ma : Int) :
    stackWords (s.gaugeFollow vbat ma).regs = stackWords s.regs := by simp +decide [State.gaugeFollow]

/-! Measurement and calibration. -/

@[simp] theorem State.osStatus_stackWords (s : State) (a : Agent) (v : Nat) :
    stackWords (s.osStatus a v).regs = stackWords s.regs := by simp [State.osStatus]

@[simp] theorem State.writeOneshot_stackWords (s : State) (a : Agent) (v : Nat) :
    stackWords (s.writeOneshot a v).regs = stackWords s.regs := by simp [State.writeOneshot]

@[simp] theorem State.oneshotEnd_stackWords (s : State) (a : Agent) (samples : List Int) :
    stackWords (s.oneshotEnd a samples).regs = stackWords s.regs := by simp [State.oneshotEnd]

@[simp] theorem State.tlmLate_stackWords (s : State) : stackWords s.tlmLate.regs = stackWords s.regs := by
  simp +decide [State.tlmLate]

@[simp] theorem State.limits_stackWords (s : State) (e cfg : Nat) (m : Int) :
    stackWords (s.limits e cfg m).regs = stackWords s.regs := by simp +decide [State.limits]

@[simp] theorem State.writeHistInterval_stackWords (s : State) (v secs : Nat) :
    stackWords (s.writeHistInterval v secs).regs = stackWords s.regs := by simp +decide [State.writeHistInterval]

@[simp] theorem State.fixedResult_stackWords (s : State) (e : Nat) (m : Int) :
    stackWords (s.fixedResult e m).regs = stackWords s.regs := by simp +decide [State.fixedResult]

@[simp] theorem State.telemetryEnd_stackWords (s : State) (inst : Nat × Nat) (samples : List Int) :
    stackWords (s.telemetryEnd inst samples).regs = stackWords s.regs := by simp +decide [State.telemetryEnd]

theorem State.writeTlm_stackWords (s : State) {i : Nat} (v : Nat) (h : isStackRoute i = false) :
    stackWords (s.writeTlm i v).regs = stackWords s.regs := stackWords_set _ _ _ _ h

@[simp] theorem State.passStart_stackWords (s : State) : stackWords s.passStart.regs = stackWords s.regs := by
  rw [State.passStart, State.testProgress_stackWords, State.setReg_regs, stackWords_set _ _ _ _ (by decide),
    foldl_stackWords fun t u _ => by simp]
  simp

@[simp] theorem State.calStart_stackWords (s : State) : stackWords s.calStart.regs = stackWords s.regs := by simp [State.calStart]

@[simp] theorem State.storeOffset_stackWords (s : State) (p : Fin 8) (uv : Int) :
    stackWords (s.storeOffset p uv).regs = stackWords s.regs := by simp +decide [State.storeOffset]

@[simp] theorem State.passEnd_stackWords (s : State) (gain off : Four Int) (ratio iin ibat die : Int) :
    stackWords (s.passEnd gain off ratio iin ibat die).regs = stackWords s.regs := by simp +decide [State.passEnd]

/-! The sequencer. -/

@[simp] theorem State.seqStatus_stackWords (s : State) (v : Nat) : stackWords (s.seqStatus v).regs = stackWords s.regs := by
  simp +decide [State.seqStatus]

@[simp] theorem State.dropAll_stackWords (s : State) (ks : List Rail) : stackWords (s.dropAll ks).regs = stackWords s.regs := by
  induction ks generalizing s with
  | nil => rfl
  | cons k ks ih => simp [State.dropAll, ih]

@[simp] theorem State.afterAdoption_stackWords (s : State) : stackWords s.afterAdoption.regs = stackWords s.regs := by
  unfold State.afterAdoption
  dsimp only
  (repeat' split) <;> simp

@[simp] theorem State.adoptFault_stackWords (s : State) (k : Rail) : stackWords (s.adoptFault k).regs = stackWords s.regs := by
  simp [State.adoptFault]

@[simp] theorem State.adopt_stackWords (s : State) (sns : Eight Nat) : stackWords (s.adopt sns).regs = stackWords s.regs := by
  unfold State.adopt
  dsimp only
  (repeat' split) <;> simp

@[simp] theorem State.dischWritten_stackWords (s : State) (k : Rail) : stackWords (s.dischWritten k).regs = stackWords s.regs := by
  unfold State.dischWritten
  split <;> simp

@[simp] theorem State.powerStatus_stackWords (s : State) (v : Nat) : stackWords (s.powerStatus v).regs = stackWords s.regs := by
  simp +decide [State.powerStatus]

/-! The ports. -/

@[simp] theorem State.showBudget_stackWords (s : State) (p : Port) (w : Int) :
    stackWords (s.showBudget p w).regs = stackWords s.regs := by simp [State.showBudget]

@[simp] theorem State.hardReset_stackWords (s : State) (p : Port) (sent : Bool) :
    stackWords (s.hardReset p sent).regs = stackWords s.regs := by
  unfold State.hardReset
  dsimp only
  (repeat' split) <;> simp

@[simp] theorem State.cutPort_stackWords (s : State) (p : Port) (by_ : CutBy) :
    stackWords (s.cutPort p by_).regs = stackWords s.regs := by simp [State.cutPort]

@[simp] theorem State.xStopAlert_stackWords (s : State) (p : Port) (fault : Nat) :
    stackWords (s.xStopAlert p fault).regs = stackWords s.regs := by simp [State.xStopAlert]

@[simp] theorem State.hardTimeout_stackWords (s : State) (p : Port) : stackWords (s.hardTimeout p).regs = stackWords s.regs := by
  simp [State.hardTimeout]

@[simp] theorem State.writeRoleCfg_stackWords (s : State) (p : Port) (cfg : Bool) (v : Nat) :
    stackWords (s.writeRoleCfg p cfg v).regs = stackWords s.regs := by
  unfold State.writeRoleCfg
  split <;> simp

/-! The data registers of the rings. -/

@[simp] theorem State.dataPop_stackWords (s : State) (a : Agent) : stackWords (s.dataPop a).regs = stackWords s.regs := by
  have h : (s.agentPop (s.selRing a) 1).1.regs = s.regs := by simp
  unfold State.dataPop
  dsimp only
  generalize s.agentPop (s.selRing a) 1 = q at *
  (repeat' split) <;> simp_all

@[simp] theorem State.dataRead_stackWords (s : State) (a : Agent) : stackWords (s.dataRead a).regs = stackWords s.regs := by
  simp [State.dataRead]

/-! Tests. -/

@[simp] theorem State.declare_stackWords (s : State) : stackWords s.declare.regs = stackWords s.regs := by simp [State.declare]

@[simp] theorem State.settleDue_stackWords (s : State) : stackWords s.settleDue.regs = stackWords s.regs := by
  simp [State.settleDue]

@[simp] theorem State.missTest_stackWords (s : State) (k : TestKind) : stackWords (s.missTest k).regs = stackWords s.regs := by
  simp [State.missTest]

@[simp] theorem State.tryScheduled_stackWords (s : State) (k : TestKind) :
    stackWords (s.tryScheduled k).regs = stackWords s.regs := by simp [State.tryScheduled]

@[simp] theorem State.emgStatus_stackWords (s : State) (v : Nat) : stackWords (s.emgStatus v).regs = stackWords s.regs := by
  simp +decide [State.emgStatus]

@[simp] theorem State.slotHere_stackWords (s : State) : stackWords s.slotHere.regs = stackWords s.regs := by
  unfold State.slotHere
  split <;> simp

@[simp] theorem State.agentStart_stackWords (s : State) (a : Agent) (k : TestKind) :
    stackWords (s.agentStart a k).regs = stackWords s.regs := by simp [State.agentStart]

/-! The converters. -/

@[simp] theorem State.isolatePhase_stackWords (s : State) (p : Phase) (f : PhaseFault) :
    stackWords (s.isolatePhase p f).regs = stackWords s.regs := by simp [State.isolatePhase]

@[simp] theorem State.restore_stackWords (s : State) (ps : List Phase) : stackWords (s.restore ps).regs = stackWords s.regs := by
  induction ps generalizing s with
  | nil => rfl
  | cons p ps ih => simp [State.restore, ih]

@[simp] theorem State.stopX_stackWords (s : State) (p : Port) (why : XFail) :
    stackWords (s.stopX p why).regs = stackWords s.regs := by simp [State.stopX]

/-! The Link. -/

@[simp] theorem State.lnkHear_stackWords (s : State) : stackWords s.lnkHear.regs = stackWords s.regs := by
  simp +decide [State.lnkHear]

@[simp] theorem State.serveSlot_stackWords (s : State) : stackWords s.serveSlot.regs = stackWords s.regs := by
  unfold State.serveSlot
  (repeat' split) <;> simp

@[simp] theorem State.memberBeacon_stackWords (s : State) (b : Beacon) :
    stackWords (s.memberBeacon b).regs = stackWords s.regs := by simp +decide [State.memberBeacon]

@[simp] theorem State.ownSlot_stackWords (s : State) : stackWords s.ownSlot.regs = stackWords s.regs := by
  unfold State.ownSlot
  split <;> simp

@[simp] theorem State.txDone_stackWords (s : State) (v : Nat) : stackWords (s.txDone v).regs = stackWords s.regs := by
  simp +decide [State.txDone]

@[simp] theorem State.putFrame_stackWords (s : State) (f : Frame) (tries : Nat) :
    stackWords (s.putFrame f tries).regs = stackWords s.regs := by simp [State.putFrame]

@[simp] theorem State.sendRing_stackWords (s : State) (k freeUs leftUs : Nat) :
    stackWords (s.sendRing k freeUs leftUs).regs = stackWords s.regs := by
  unfold State.sendRing
  split <;> simp

@[simp] theorem State.dbSend_stackWords (s : State) (dst d : Nat) : stackWords (s.dbSend dst d).regs = stackWords s.regs := by
  simp [State.dbSend]

/-! The inputs. -/

@[simp] theorem State.writeDll_stackWords (s : State) (v mv : Nat) : stackWords (s.writeDll v mv).regs = stackWords s.regs := by
  simp +decide [State.writeDll]

@[simp] theorem State.collapse_stackWords (s : State) : stackWords s.collapse.regs = stackWords s.regs := by simp [State.collapse]

@[simp] theorem State.overvoltage_stackWords (s : State) (i : InputId) :
    stackWords (s.overvoltage i).regs = stackWords s.regs := by simp [State.overvoltage]

@[simp] theorem State.writePthEn_stackWords (s : State) (v : Nat) : stackWords (s.writePthEn v).regs = stackWords s.regs := by
  simp +decide [State.writePthEn]

/-! The Check units. -/

@[simp] theorem State.setAcc_stackWords (s : State) (u : UnitId) (v : Nat) :
    stackWords (s.setAcc u v).regs = stackWords s.regs := by simp [State.setAcc]

@[simp] theorem State.runJob_stackWords (s : State) (u : UnitId) (j : Job) :
    stackWords (s.runJob u j).regs = stackWords s.regs := by simp [State.runJob]

@[simp] theorem State.takeJob_stackWords (s : State) (u : UnitId) (n : Nat) :
    stackWords (s.takeJob u n).regs = stackWords s.regs := by
  induction n generalizing s with
  | zero => rfl
  | succ n ih =>
    unfold State.takeJob
    dsimp only
    split
    · simp
    · rename_i q _ _
      have h : (s.takeEntry q).1.regs = s.regs := by simp
      generalize s.takeEntry q = e at *
      split <;> simp_all
    · rfl

@[simp] theorem State.savePreempted_stackWords (s : State) (u : UnitId) (bg : Option (Word32 × Word32)) :
    stackWords (s.savePreempted u bg).regs = stackWords s.regs := by
  unfold State.savePreempted
  split <;> simp

@[simp] theorem State.finishJob_stackWords (s : State) (u : UnitId) (j : Job) :
    stackWords (s.finishJob u j).regs = stackWords s.regs := by simp [State.finishJob]

/-! The store. -/

@[simp] theorem State.readPage_stackWords (s : State) (pg flips : Nat) :
    stackWords (s.readPage pg flips).1.regs = stackWords s.regs := by
  unfold State.readPage
  (repeat' split) <;> simp +decide

@[simp] theorem State.readPages_stackWords (s : State) (pg : Nat) (flips : List Nat) (n : Nat) :
    stackWords (s.readPages pg flips n).1.regs = stackWords s.regs := by
  induction n generalizing s pg flips with
  | zero => rfl
  | succ n ih => simp [State.readPages, ih]

@[simp] theorem State.scrubPage_stackWords (s : State) (pg flips : Nat) :
    stackWords (s.scrubPage pg flips).regs = stackWords s.regs := by simp +decide [State.scrubPage]

/-! The window: a route goes through `writeRoute`, every other register is not one of the four. -/

theorem isStackRoute_of_outside {i : Nat} (h : ¬ (0x200 ≤ i ∧ i < 0x400)) : isStackRoute i = false := by
  simp only [isStackRoute, decide_eq_false_iff_not]
  omega

@[simp] theorem State.storeReg_stackWords (s : State) (a : Agent) (i v : Nat) :
    stackWords (s.storeReg a i v).regs = stackWords s.regs := by
  by_cases hroute : 0x200 ≤ i ∧ i < 0x400
  · simp [State.storeReg, hroute]
  · simp [State.storeReg, hroute, isStackRoute_of_outside hroute]

@[simp] theorem State.storeRegs_stackWords (s : State) (a : Agent) (ws : List (Nat × Nat)) :
    stackWords (s.storeRegs a ws).regs = stackWords s.regs :=
  foldl_stackWords (fun t w _ => t.storeReg_stackWords a w.1 w.2) s

theorem State.orderRegs_stackWords (s : State) (ws : List Nat) {is : List Nat} (get : State → Nat → Int)
    {set : State → Nat → Int → State} (h : ∀ t v, ∀ i ∈ is, stackWords (set t i v).regs = stackWords t.regs) :
    stackWords (s.orderRegs ws is get set).regs = stackWords s.regs := by
  unfold State.orderRegs
  split
  · refine foldl_stackWords (fun t x hx => ?_) s
    split
    · exact h t _ _ (List.of_mem_zip hx).1
    · rfl
  · rfl

@[simp] theorem State.orderZones_stackWords (s : State) (ws : List Nat) :
    stackWords (s.orderZones ws).regs = stackWords s.regs := by
  refine s.orderRegs_stackWords ws _ fun t v i hi => ?_
  have hi : 0x22B < i := by simp only [List.mem_cons, List.not_mem_nil, or_false] at hi; omega
  simp [isStackRoute_of_gt hi]

@[simp] theorem State.orderRail_stackWords (s : State) (ws : List Nat) (k : Rail) :
    stackWords (s.orderRail ws k).regs = stackWords s.regs := by
  unfold State.orderRail
  dsimp only
  refine State.orderRegs_stackWords _ _ _ fun t v i hi => ?_
  have hi : 0x22B < i := by simp only [List.mem_cons, List.not_mem_nil, or_false] at hi; omega
  simp [isStackRoute_of_gt hi]

@[simp] theorem State.orderRails_stackWords (s : State) (ws : List Nat) : stackWords (s.orderRails ws).regs = stackWords s.regs :=
  foldl_stackWords (fun t k _ => t.orderRail_stackWords ws k) s

@[simp] theorem State.orderEmg_stackWords (s old : State) (ws : List Nat) :
    stackWords (s.orderEmg old ws).regs = stackWords s.regs := by simp +decide [State.orderEmg]

@[simp] theorem State.orderShed_stackWords (s : State) (ws : List Nat) : stackWords (s.orderShed ws).regs = stackWords s.regs := by
  simp +decide [State.orderShed]

@[simp] theorem State.limitVsys_stackWords (s : State) : stackWords s.limitVsys.regs = stackWords s.regs := by
  simp +decide [State.limitVsys]

@[simp] theorem State.hardLimits_stackWords (s : State) (ws : List Nat) :
    stackWords (s.hardLimits ws).regs = stackWords s.regs := by simp +decide [State.hardLimits]

@[simp] theorem State.keepOrders_stackWords (s old : State) (ws : List Nat) :
    stackWords (s.keepOrders old ws).regs = stackWords s.regs := by simp +decide [State.keepOrders]

@[simp] theorem State.writeChgCtl_stackWords (s old : State) (v : Nat) :
    stackWords (s.writeChgCtl old v).regs = stackWords s.regs := by simp [State.writeChgCtl]

@[simp] theorem State.writeCapNom_stackWords (s : State) : stackWords s.writeCapNom.regs = stackWords s.regs := by
  simp [State.writeCapNom]

/-- A read clears fields of kind RC alone, and a route has none. -/
theorem State.clearField_stackWords (s : State) (i : Nat) {f : Field} (hf : f ∈ fieldsOf i) :
    stackWords (if f.kind = .rc then s.setFld i f.lsb f.width 0 else s).regs = stackWords s.regs := by
  cases hi : isStackRoute i with
  | false => simp [hi]
  | true => simp [(fieldsOf_stackRoute hi f hf).1]

@[simp] theorem State.readClear_stackWords (s : State) (a : Agent) (i : Nat) :
    stackWords (s.readClear a i).regs = stackWords s.regs := by
  have hrc := foldl_stackWords (fun t f hf => State.clearField_stackWords t i hf) s
  simp [State.readClear, hrc]

@[simp] theorem State.bootPair_stackWords (s : State) (on : Bool) (i v : Nat) :
    stackWords (s.bootPair on i v).regs = stackWords s.regs := by
  by_cases hroute : 0x200 ≤ i ∧ i < 0x400
  · simp [State.bootPair, hroute]
  · simp [State.bootPair, hroute, isStackRoute_of_outside hroute]

@[simp] theorem State.bootPairs_stackWords (s : State) (on : Bool) (bs : List Byte) :
    stackWords (s.bootPairs on bs).regs = stackWords s.regs := by
  fun_induction State.bootPairs s on bs <;> simp_all

@[simp] theorem State.loadBank_stackWords (s : State) (on : Bool) (b n : Nat) :
    stackWords (s.loadBank on b n).regs = stackWords s.regs := by simp [State.loadBank]

@[simp] theorem State.fetchReg_stackWords (s : State) (a : Agent) (i : Nat) (first : Bool) :
    stackWords (s.fetchReg a i first).1.regs = stackWords s.regs := by
  unfold State.fetchReg
  dsimp only
  split
  · rfl
  · rw [State.readClear_stackWords, foldl_stackWords fun t j _ => by simp]
    (repeat' split) <;> simp

/-! Transactions. -/

@[simp] theorem State.pecError_stackWords (s : State) (a : Agent) : stackWords (s.pecError a).regs = stackWords s.regs := by
  simp [State.pecError]

@[simp] theorem State.settleRefusals_stackWords (s : State) (a : Agent) (pec : Bool) (denied : Option Nat) :
    stackWords (s.settleRefusals a pec denied).regs = stackWords s.regs := by
  unfold State.settleRefusals
  split <;> simp

@[simp] theorem State.refuseRead_stackWords (s : State) (a : Agent) (p : Nat) (why : Refused) :
    stackWords (s.refuseRead a p why).regs = stackWords s.regs := by
  cases why <;> simp [State.refuseRead]

@[simp] theorem fetchLoop_stackWords (a : Agent) (first : Bool) (n p : Nat) (r : Fetched) :
    stackWords (fetchLoop a first n p r).st.regs = stackWords r.st.regs := by
  induction n generalizing first p r with
  | zero => rfl
  | succ n ih => unfold fetchLoop; dsimp only; split <;> simp [ih]

@[simp] theorem State.windowRead_stackWords (s : State) (a : Agent) (written : List Byte) (p n clocked : Nat) :
    stackWords (s.windowRead a written p n clocked).1.regs = stackWords s.regs := by simp [State.windowRead]

@[simp] theorem State.refuseCmd_stackWords (s : State) (a : Agent) (code : Nat) (why : Refused) :
    stackWords (s.refuseCmd a code why).regs = stackWords s.regs := by
  cases why <;> simp [State.refuseCmd]

/-! The boot. -/

@[simp] theorem State.sampleStraps_stackWords (s : State) (vsafe chem : Option Nat) :
    stackWords (s.sampleStraps vsafe chem).regs = stackRoute := rfl

@[simp] theorem State.watchdogFires_stackWords (s : State) : stackWords s.watchdogFires.regs = stackRoute := by
  simp [State.watchdogFires]

theorem State.setFrom_stackWords (s : State) {i : Nat} {vs : List Nat} (h : i + vs.length ≤ 0x228) :
    stackWords (s.setFrom i vs).regs = stackWords s.regs := by
  induction vs generalizing s i with
  | nil => rfl
  | cons v vs ih =>
    rw [List.length_cons] at h
    have hi : isStackRoute i = false := by simp only [isStackRoute, decide_eq_false_iff_not]; omega
    rw [State.setFrom, ih _ (by omega), State.setReg_regs, stackWords_set _ _ _ _ hi]

@[simp] theorem State.applyRecord_stackWords (s : State) (r : List Byte) (slot : Nat) :
    stackWords (s.applyRecord r slot).regs = stackWords s.regs := by
  unfold State.applyRecord
  simp +decide [State.setFrom_stackWords, recWords]

@[simp] theorem State.applyFallback_stackWords (s : State) : stackWords s.applyFallback.regs = stackWords s.regs := by
  unfold State.applyFallback
  simp +decide [State.setFrom_stackWords]

@[simp] theorem State.protect_stackWords (s : State) (copyOk : Bool) : stackWords (s.protect copyOk).regs = stackWords s.regs := by
  unfold State.protect
  dsimp only
  (repeat' split) <;> simp

@[simp] theorem State.applyBank_stackWords (s : State) (on : Bool) : stackWords (s.applyBank on).regs = stackWords s.regs := by
  unfold State.applyBank
  (repeat' split) <;> simp +decide

@[simp] theorem State.handOver_stackWords (s : State) : stackWords s.handOver.regs = stackWords s.regs := by simp [State.handOver]

@[simp] theorem State.liftFaults_stackWords (s : State) : stackWords s.liftFaults.regs = stackWords s.regs := by
  simp [State.liftFaults]

@[simp] theorem State.bootCharge_stackWords (s : State) : stackWords s.bootCharge.regs = stackWords s.regs := by
  simp +decide [State.bootCharge]

/-- A boot ends with the four routes as after reset: step 4 takes every register that is not retained. -/
@[simp] theorem State.bootSteps_stackWords (s : State) (sns : Eight Nat) (vbat : Nat) (copyOk : Bool) :
    stackWords (s.bootSteps sns vbat copyOk).regs = stackRoute := by simp [State.bootSteps]

@[simp] theorem State.closeInterrupted_stackWords (s : State) : stackWords s.closeInterrupted.regs = stackWords s.regs := by
  unfold State.closeInterrupted
  split <;> simp

@[simp] theorem State.portAfterHold_stackWords (s : State) (p : Port) :
    stackWords (s.portAfterHold p).regs = stackWords s.regs := by simp [State.portAfterHold]

@[simp] theorem State.chargeAfterHold_stackWords (s : State) (posted : List Nat) :
    stackWords (s.chargeAfterHold posted).regs = stackWords s.regs := by simp [State.chargeAfterHold]

@[simp] theorem State.startRunning_stackWords (s : State) : stackWords s.startRunning.regs = stackWords s.regs := by
  simp [State.startRunning]

/-! The state that a command leaves. -/

/-- The state after an answer o to state s. -/
def State.after (s : State) (o : Out) : State := s.then_ fun _ => o

@[simp] theorem State.after_next (s t : State) : s.after (.next t) = t := rfl

theorem State.then_eq_after (s : State) (f : State → Out) : s.then_ f = s.after (f s) := by simp only [State.after, State.then_]

@[simp] theorem State.after_onPort (s : State) (p : Port) (ok : Bool) (f : State → State) :
    s.after (s.onPort p ok f) = if s.part.variant.hasPort p && ok then f s else s := rfl

@[simp] theorem State.after_calling (s : State) (f : State → State) :
    s.after (s.calling f) = if s.active then f s.attnSettle else s := rfl

@[simp] theorem State.after_portCommand_stackWords {s : State} (p : Port) (can : Bool) {f : State → State}
    (h : stackWords (f (s.pdFresh p)).regs = stackWords s.regs) :
    stackWords (s.after (s.portCommand p can f)).regs = stackWords s.regs := by
  simp [State.portCommand, h]

@[simp] theorem State.after_transact_stackWords {s : State} {f : State → State × List Byte}
    (h : stackWords (f s).1.regs = stackWords s.regs) : stackWords (s.after (s.transact f)).regs = stackWords s.regs := by
  simp [State.transact, h]

@[simp] theorem State.after_writeCommand_stackWords {s : State} (a : Agent) (code bank : Nat) (tx : CmdTx)
    (lenOk : List Byte → Bool) {f : State → List Byte → State} (h : ∀ b, stackWords (f s b).regs = stackWords s.regs) :
    stackWords (s.after (s.writeCommand a code bank tx lenOk f)).regs = stackWords s.regs := by
  refine State.after_transact_stackWords ?_
  (repeat' split) <;> simp [h]

@[simp] theorem State.after_readCommand_stackWords {s : State} (a : Agent) (code bank : Nat) (tx : CmdTx)
    (zero data : List Byte) {f : State → State} (h : stackWords (f s).regs = stackWords s.regs) :
    stackWords (s.after (s.readCommand a code bank tx zero data f)).regs = stackWords s.regs := by
  refine State.after_transact_stackWords ?_
  (repeat' split) <;> simp [h]

/-- The commands that take every register with them, or all that is not retained. -/
def dropsRegisters : Instr → Bool
  | .powerOn _ _ _ _ | .keeperPowerLoss _ _ | .watchdogReset _ _ | .tboLostReset _ | .boot _ _ _ _ _ => true
  | _ => false

/-! Every other command, by family. Most are a guard around the operations above; those whose answer goes by the state's shape are
split first. -/

theorem life_stackWords {c : Instr} (h : Safety.family c = .life) (hd : dropsRegisters c = false) (s : State) :
    stackWords (s.after (exec c s)).regs = stackWords s.regs := by
  cases c <;> cases h
  case powerOn | keeperPowerLoss | watchdogReset | tboLostReset | boot => cases hd
  case shipWake | watchdogWarn | watchdogService =>
    simp only [exec, execShipWake, execWatchdogWarn, execWatchdogService, State.after_next]
    (repeat' split) <;> simp +decide
  all_goals
    simp +decide [exec, execEnterShip, execShipEntry, execEnterDormant, execSysPowerBadKey, execBrownout, execWakeNLow,
      execRemoteWakePulseEnd, execWakeAttemptFail, execWakeRetry, execWakeFailRetry, execBootDone, execHoldTimeout, execTboLost,
      execLfoLost, execLfoRestored, execRtcAlarm, execRtcSet]

theorem inputs_stackWords {c : Instr} (h : Safety.family c = .inputs) (s : State) :
    stackWords (s.after (exec c s)).regs = stackWords s.regs := by
  cases c <;> cases h
  case takeover | returnDelay | inputCurrentLimit | inputVoltageRegulation =>
    simp only [exec, execTakeover, execReturnDelay, execInputCurrentLimit, execInputVoltageRegulation, State.after_next]
    (repeat' split) <;> simp +decide
  all_goals
    simp [exec, execPoeClassEvent, execHotSwapOn, execHotSwapOff, execHotSwapPg, execHotSwapFault, execPoeValid,
      execPoeLimitUpdate, execPoeDllAlloc, execMpsPulse, execMpsPulseEnd, execInputQualified, execInputOvervoltage, execPthEn,
      execBatterySupplement, execVsysLow, execStrappedCutoff, execInputInvalid, execGateFault]

theorem converters_stackWords {c : Instr} (h : Safety.family c = .converters) (s : State) :
    stackWords (s.after (exec c s)).regs = stackWords s.regs := by
  cases c <;> cases h
  case cinchTrip | cinchRunaway | phaseDrop | reverseStop | cnvOutputLimit =>
    simp only [exec, execCinchTrip, execCinchRunaway, execPhaseDrop, execReverseStop, execCnvOutputLimit, State.after_next]
    (repeat' split) <;> simp +decide
  all_goals
    simp [exec, execVsysOv, execVsysOvResume, execPhaseAdd, execSenseLost, execDriverOverTemp, execRemoteSenseLost, execRsRetry,
      execCnvClear, execReverseStart, execDeadBusTimeout, execPortCnvFail, execCnvXnClear, execVbusOvp, execVbusOvpResume,
      execVdrvUndervoltage]

theorem charging_stackWords {c : Instr} (h : Safety.family c = .charging) (s : State) :
    stackWords (s.after (exec c s)).regs = stackWords s.regs := by
  cases c <;> cases h
  all_goals
    simp +decide [exec, execChgChem, execChgClear, execChargePermissionChange, execQualifyDone, execRecoverDone,
      execPrechargeDone, execCvEntry, execTermination, execRecharge, execRequalify, execChgOvervoltage, execRecoveryTimeout,
      execPrechargeTimeout, execSafetyTimeout, execPackRemoved, execPackInserted, execNtcMeasure, execDormantNtcSample,
      execGaugeUpdate]

theorem emergency_stackWords {c : Instr} (h : Safety.family c = .emergency) (s : State) :
    stackWords (s.after (exec c s)).regs = stackWords s.regs := by
  cases c <;> cases h
  case testDue | testRetry | testMissed | startRecordCommit | testLengthReached =>
    simp only [exec, execTestDue, execTestRetry, execTestMissed, execStartRecordCommit, execTestLengthReached, State.after_next]
    (repeat' split) <;> simp +decide
  all_goals
    simp +decide [exec, execEmergencyDeclared, execEmergencyEnded, execEmgWarn, execEmgWarnClear, execEmgCutoff,
      execSlotGranted, execStartFn, execStartDur, execEmgAbort, execTestAbortVbat]

theorem sequencer_stackWords {c : Instr} (h : Safety.family c = .sequencer) (s : State) :
    stackWords (s.after (exec c s)).regs = stackWords s.regs := by
  cases c <;> cases h
  case seqEn =>
    simp only [exec, execSeqEn, State.after_next]
    (repeat' split) <;> simp +decide
  all_goals
    simp +decide [exec, execSeqUp, execSeqDown, execSeqClear, execSeqForceOff, execSeqBadCommand, execStartDelay, execPowerGood,
      execRiseTimeout, execRailFault, execRailWarning, execRailDischarged, execDisMaxTimeout, execDisWaitStart, execSeqRestart,
      execFaultLatchAbsent]

theorem ports_stackWords {c : Instr} (h : Safety.family c = .ports) (s : State) :
    stackWords (s.after (exec c s)).regs = stackWords s.regs := by
  cases c <;> cases h
  case attach | request | psRdySend | waitReceived | psRdyReceived | senderResponseTimeout | acceptReceived | rejectReceived =>
    simp only [exec, execAttach, execRequest, execPsRdySend, execWaitReceived, execPsRdyReceived, execSenderResponseTimeout,
      execAcceptReceived, execRejectReceived, State.after_onPort]
    (repeat' split) <;> simp +decide
  all_goals
    simp [exec, execVbusWake, execUnsupportedAttach, execDetach, execDrpToggle, execSourceTurnOn, execPpsTimeout,
      execBudgetShortfall, execSourceCapabilities, execSourceCapRepeat, execKeepalive, execWaitRetry, execPrSwapReceived,
      execDrSwapReceived, execNotSupportedMessage, execSinkCapabilities, execGetSourceCap, execGetSinkCap,
      execGetStatusReceived, execGetPpsStatusReceived, execGetSourceCapExtended, execAlertReceived, execDiscoverIdentity,
      execBistCarrierMode, execHardResetReceived, execSoftResetReceived, execFrsSignal, execFrsSend, execFrsFail, execSrcCut,
      execDischargeDone, execDischargeSlow, execPdpHardReset, execPdpSoftReset, execPdpPrSwap, execPdpRenegotiate,
      execPdpGetStatus, execPdpGetPpsStatus, execPdpGetSrcCapExt, execPdpRoleCfg, execFrSwapReceived]

theorem link_stackWords {c : Instr} (h : Safety.family c = .link) (s : State) :
    stackWords (s.after (exec c s)).regs = stackWords s.regs := by
  cases c <;> cases h
  case joinReceived =>
    simp only [exec, execJoinReceived]
    split
    · rfl
    · rw [State.after_next, State.ackOnce_stackWords fun t => by split <;> simp, State.lnkHear_stackWords]
  case doorbellReceived f =>
    have hstore : (s.lnkHear.linkStore f 0x9 22 (f.payload.drop 1)).1.regs = s.lnkHear.regs := by simp
    simp only [exec, execDoorbellReceived]
    split
    · rfl
    · rw [State.after_next, State.linkTake_stackWords, State.lnkHear_stackWords]
      generalize s.lnkHear.linkStore f 0x9 22 (f.payload.drop 1) = r at hstore ⊢
      (repeat' split) <;> simp_all +decide
  case beaconReceived | listenTimeout | leaveReceived | ackReceived | ackTimeout | frameTransmit =>
    simp only [exec, execBeaconReceived, execListenTimeout, execLeaveReceived, execAckReceived, execAckTimeout,
      execFrameTransmit, State.after_next]
    (repeat' split) <;> simp +decide
  all_goals
    simp +decide [exec, execBeaconSend, execStatusSend, execStatusReceived, execClaimStart, execClaimHeard, execClaimWithdraw,
      execClaimEnd, execJoinAckReceived, execJoinRetry, execBeaconGrantLoss, execBeaconLost, execTestReqReceived,
      execTestGrantReceived, execTestEndReceived, execSlotTimeout, execDataReceived, execCapture, execLnkDbSend, execLnkDisable,
      execCrcErrorFrame]

theorem fabric_stackWords {c : Instr} (h : Safety.family c = .fabric) (s : State) :
    stackWords (s.after (exec c s)).regs = stackWords s.regs := by
  cases c <;> cases h
  all_goals
    simp [exec, execEventPost, execEvtDoorbell, execCoalesceTime, execAgtnClaim, execAgtnComplete, execAgtnCtlAwake,
      execRemoteWake, execRemoteWakeDeferred, execEvtRoute, execWatchHitDormant, execWatchHitShip]

theorem rings_stackWords {c : Instr} (h : Safety.family c = .rings) (s : State) :
    stackWords (s.after (exec c s)).regs = stackWords s.regs := by
  cases c <;> cases h
  case rawAccess | chkJobDone =>
    simp only [exec, execRawAccess, execChkJobDone, State.after_next]
    (repeat' split) <;> simp +decide
  all_goals
    simp +decide [exec, execRingCfg, execRingDataPush, execRingData0Pop, execSramScrub, execChkJobStart, execChkUnitFailed,
      execChkKat, execChkAccWrite]

theorem tackRoom_stackWords {c : Instr} (h : Safety.family c = .tackRoom) (s : State) :
    stackWords (s.after (exec c s)).regs = stackWords s.regs := by
  cases c <;> cases h
  case tkrRead | tkrStage | tkrWrite | tkrClose =>
    simp only [exec, execTkrRead, execTkrStage, execTkrWrite, execTkrClose]
    refine s.runOp_stackWords _ _ fun r => ?_
    (repeat' split) <;> simp
  case tkrRequestStart | tkrOpen | tkrAbort | replyDelivered =>
    simp only [exec, execTkrRequestStart, execTkrOpen, execTkrAbort, execReplyDelivered, State.after_next]
    (repeat' split) <;> simp +decide
  all_goals
    simp [exec, execTkrInfo, execTkrNote, execTkrSeal, execSessionTimeout, execJournalPageProgram, execSealTimer,
      execStoreScrub, execBlockRefresh, execBlockRetire, execHistoryPageProgram]

theorem measure_stackWords {c : Instr} (h : Safety.family c = .measure) (s : State) :
    stackWords (s.after (exec c s)).regs = stackWords s.regs := by
  cases c <;> cases h
  case tlmCfg e period v =>
    have h : isStackRoute ((if period then Reg.tlmPeriod else Reg.tlmCfg) + e.toNat) = false :=
      isStackRoute_add _ (by cases period <;> decide)
    simp [exec, execTlmCfg, State.writeTlm_stackWords _ _ h]
  case telemetryResult =>
    simp only [exec, execTelemetryResult, State.after_next]
    (repeat' split) <;> simp +decide
  all_goals
    simp +decide [exec, execOneshotGo, execOneshotDone, execTelemetryDue, execHistoryIntervalEnd, execTlmHistInterval,
      execCalRun, execCalTrigger, execCalPassEnd, execTboTrim, execSenseOffset, execOffsetStale, execDeadlineMiss]

/-! A commit of the window, whose writes act as commands do, and with it the transactions. -/

@[simp] theorem State.writePower_stackWords (s : State) (v : Nat) : stackWords (s.writePower v).regs = stackWords s.regs := by
  simp only [State.writePower, State.then_eq_after]
  split_ifs
  · simpa only [exec] using life_stackWords (c := .enterShip) rfl rfl s
  · simpa only [exec] using life_stackWords (c := .enterDormant) rfl rfl s
  · simpa only [exec] using life_stackWords (c := .sysPowerBadKey _) rfl rfl s

@[simp] theorem State.writeSeqCtl_stackWords (s : State) (v : Nat) : stackWords (s.writeSeqCtl v).regs = stackWords s.regs := by
  simp only [State.writeSeqCtl, State.then_eq_after]
  split
  · simpa only [exec] using sequencer_stackWords (c := .seqUp) rfl s
  · simpa only [exec] using sequencer_stackWords (c := .seqDown) rfl s
  · simpa only [exec] using sequencer_stackWords (c := .seqClear) rfl s
  · simpa only [exec] using sequencer_stackWords (c := .seqForceOff) rfl s
  · simpa only [exec] using sequencer_stackWords (c := .seqBadCommand _) rfl s

@[simp] theorem State.writeCnvCtl_stackWords (s old : State) (v : Nat) :
    stackWords (s.writeCnvCtl old v).regs = stackWords s.regs := by
  have hclear : ∀ m, stackWords (s.after (execCnvClear m s)).regs = stackWords s.regs := fun m => by
    simpa only [exec] using converters_stackWords (c := .cnvClear m) rfl s
  simp [State.writeCnvCtl, State.then_eq_after, hclear]

@[simp] theorem State.writeEmgCtl_stackWords (s : State) (a : Agent) (v : Nat) :
    stackWords (s.writeEmgCtl a v).regs = stackWords s.regs := by
  have hfn : ∀ t : State, stackWords (t.after (execStartFn a t)).regs = stackWords t.regs := fun t => by
    simpa only [exec] using emergency_stackWords (c := .startFn a) rfl t
  have hdur : ∀ t : State, stackWords (t.after (execStartDur a t)).regs = stackWords t.regs := fun t => by
    simpa only [exec] using emergency_stackWords (c := .startDur a) rfl t
  have habort : ∀ t : State, stackWords (t.after (execEmgAbort a t)).regs = stackWords t.regs := fun t => by
    simpa only [exec] using emergency_stackWords (c := .emgAbort a) rfl t
  simp [State.writeEmgCtl, State.then_eq_after, hfn, hdur, habort]

@[simp] theorem State.writePdpCtl_stackWords (s : State) (p : Port) (v : Nat) :
    stackWords (s.writePdpCtl p v).regs = stackWords s.regs := by
  simp only [State.writePdpCtl, State.then_eq_after]
  split
  · simpa only [exec] using ports_stackWords (c := .pdpHardReset p) rfl s
  · simpa only [exec] using ports_stackWords (c := .pdpSoftReset p) rfl s
  · simpa only [exec] using ports_stackWords (c := .pdpPrSwap p) rfl s
  · simpa only [exec] using ports_stackWords (c := .pdpRenegotiate p) rfl s
  · simpa only [exec] using ports_stackWords (c := .pdpGetStatus p) rfl s
  · simpa only [exec] using ports_stackWords (c := .pdpGetPpsStatus p) rfl s
  · simpa only [exec] using ports_stackWords (c := .pdpGetSrcCapExt p) rfl s
  · simp

@[simp] theorem State.react_stackWords (s old : State) (a : Agent) (i v : Nat) :
    stackWords (s.react old a i v).regs = stackWords s.regs := by
  have hseqEn : ∀ b, stackWords (s.after (execSeqEn b s.snsLevels s)).regs = stackWords s.regs := fun b => by
    simpa only [exec] using sequencer_stackWords (c := .seqEn b s.snsLevels) rfl s
  have hclear : ∀ p, stackWords (s.after (execCnvXnClear p s)).regs = stackWords s.regs := fun p => by
    simpa only [exec] using converters_stackWords (c := .cnvXnClear p) rfl s
  simp +decide [State.react, State.then_eq_after, hseqEn, hclear]

@[simp] theorem State.commit_stackWords (s : State) (a : Agent) (ws : List (Nat × Nat)) :
    stackWords (s.commit a ws).regs = stackWords s.regs := by
  unfold State.commit
  dsimp only
  (repeat' split) <;> simp

@[simp] theorem State.windowWrite_stackWords (s : State) (a : Agent) (p : Nat) (data : List Byte) :
    stackWords (s.windowWrite a p data).regs = stackWords s.regs := by
  simp [State.windowWrite]

theorem serial_stackWords {c : Instr} (h : Safety.family c = .serial) (s : State) :
    stackWords (s.after (exec c s)).regs = stackWords s.regs := by
  cases c <;> cases h
  case windowWrite =>
    simp only [exec, execWindowWrite]
    refine State.after_transact_stackWords ?_
    (repeat' split) <;> simp
  case currentPointerRead | ringPop =>
    simp only [exec, execCurrentPointerRead, execRingPop]
    refine State.after_transact_stackWords ?_
    (repeat' split) <;> simp
  case attentionFrame | attentionFallback | attentionArbLoss | notifyArbLoss | notifyNack | notifyStretchTimeout =>
    simp only [exec, execAttentionFrame, execAttentionFallback, execAttentionArbLoss, execNotifyArbLoss, execNotifyNack,
      execNotifyStretchTimeout, State.after_calling]
    (repeat' split) <;> simp +decide
  all_goals
    simp +decide [exec, execWindowRead, execSummary, execIdent, execStatus, execPendingCmd, execClaim, execComplete,
      execDoorbell, execRingPush, execTkrReq, execQuickCommand, execUnackedFirstByte, execBusError, execBusTimeout, execAraRead,
      execAttentionDue, execAttentionRepeat, execNotifyFrame]

/-- Every command but those that take the registers with them leaves the four words. -/
theorem exec_stackWords {c : Instr} (hd : dropsRegisters c = false) (s : State) :
    stackWords (s.after (exec c s)).regs = stackWords s.regs := by
  cases h : Safety.family c with
  | life => exact life_stackWords h hd s
  | inputs => exact inputs_stackWords h s
  | converters => exact converters_stackWords h s
  | charging => exact charging_stackWords h s
  | emergency => exact emergency_stackWords h s
  | sequencer => exact sequencer_stackWords h s
  | ports => exact ports_stackWords h s
  | link => exact link_stackWords h s
  | serial => exact serial_stackWords h s
  | fabric => exact fabric_stackWords h s
  | rings => exact rings_stackWords h s
  | tackRoom => exact tackRoom_stackWords h s
  | measure => exact measure_stackWords h s

/-- Those that take the registers with them act on their condition, and then the four words are those of a reset. -/
theorem exec_stackWords_of_dropsRegisters {c : Instr} (hd : dropsRegisters c = true) (s : State) :
    stackWords (s.after (exec c s)).regs = stackWords s.regs ∨ stackWords (s.after (exec c s)).regs = stackRoute := by
  cases c <;> cases hd
  case powerOn m vsafe chem bats =>
    simp only [exec, execPowerOn, State.after_next]
    split_ifs <;> simp
  case keeperPowerLoss bats vbias =>
    simp only [exec, execKeeperPowerLoss, State.after_next]
    split_ifs
    · exact .inl rfl
    · exact .inr rfl
  all_goals
    simp only [exec, execWatchdogReset, execTboLostReset, execBoot, State.after_next]
    split_ifs <;> simp

/-! The routes that the four words spell. -/

theorem State.route_of_stackWords_eq {s t : State} (h : stackWords t.regs = stackWords s.regs) (a : Agent) :
    t.route (40 + a.val) = s.route (40 + a.val) := by
  simp only [State.route, State.reg_stackRoute, h]

theorem State.route_of_stackWords_eq_stackRoute {s : State} (h : stackWords s.regs = stackRoute) (a : Agent) :
    s.route (40 + a.val) = ⟨true, false, 0, true, 15, 2 ^ a.val⟩ := by
  simp only [State.route, State.reg_stackRoute, h]
  revert a
  decide

theorem exec_evtRoute_of_stackFault (s : State) (a : Agent) (v : Word) :
    exec (.evtRoute (BitVec.ofNat 9 (40 + a.val)) v) s = .next s := by
  have hx : (BitVec.ofNat 9 (40 + a.val)).toNat = 40 + a.val := Nat.mod_eq_of_lt (by omega)
  have hlt : 40 + a.val < 44 := by omega
  simp [exec, execEvtRoute, State.writeRoute, hx, hlt]

/-- Settles O56: a command leaves the four words or takes them back to those of a reset, and a write of one is ignored. -/
theorem stackFaultRoutes : Obligations.StackFaultRoutes := by
  unfold Obligations.StackFaultRoutes
  refine ⟨State.route_of_stackWords_eq_stackRoute rfl, fun c s t hs ht a => ?_, exec_evtRoute_of_stackFault⟩
  have hafter : s.after (exec c s) = t := by rw [ht, State.after_next]
  have hwords : stackWords t.regs = stackWords s.regs ∨ stackWords t.regs = stackRoute := by
    cases hd : dropsRegisters c with
    | false => exact .inl (hafter ▸ exec_stackWords hd s)
    | true => exact hafter ▸ exec_stackWords_of_dropsRegisters hd s
  cases hwords with
  | inl hkept => rw [State.route_of_stackWords_eq hkept, hs a]
  | inr hreset => exact State.route_of_stackWords_eq_stackRoute hreset a

end Sys2Proof.Machine
end

section
/-! A pop of a ring that belongs to another agent (R496, R497): both ways of popping end in the denial of R433, which writes the
agent's status registers and posts, and the cleared latch or the count byte 0 shows that nothing was taken (R505, R434). -/

namespace Sys2Proof.Machine

/-! Flags of the agent's status register. -/

theorem State.flag_setFlag_same (s : State) (i : Nat) {b : Nat} (hb : b < 16) (v : Bool) : (s.setFlag i b v).flag i b = v :=
  calc (s.setFlag i b v).flag i b
    _ = (b2n v % 2 ^ 1 == 1) := congrArg (· == 1) (s.fld_setFld_same i (b2n v) hb)
    _ = v := by cases v <;> rfl

/-- The status is the lowest field of its register: what stands above it is not touched. -/
theorem State.flag_setStatus (s : State) (a : Agent) (v : Nat) {b : Nat} (h4 : 4 ≤ b) (hb : b < 16) :
    (s.setStatus a v).flag (Reg.serAgtStat a.val) b = s.flag (Reg.serAgtStat a.val) b := by
  obtain ⟨k, rfl⟩ := Nat.exists_eq_add_of_le h4
  have habove : ∀ w, putBits w 0 4 v / 2 ^ 4 = w / 2 ^ 4 := fun w => by simp only [putBits, bits]; omega
  rw [State.flag, State.setStatus, State.setFld_reg, bit_eq_bits, show 65536 = 2 ^ 16 from rfl, bits_mod_two_pow _ hb]
  simp only [bits, State.flag, bit, Nat.pow_add 2 4 k, ← Nat.div_div_eq_div_mul, habove, pow_one]

/-! What a denial leaves (R433). -/

/-- Agent a's access `acc` is denied and its transaction's status says so. -/
def State.deniedAccess (s : State) (a : Agent) (acc : Nat) : State := (s.denied a acc).setStatus a 2

@[simp] theorem State.deniedAccess_mode (s : State) (a : Agent) (acc : Nat) : (s.deniedAccess a acc).mode = s.mode := by
  simp [State.deniedAccess]

theorem State.refuseCmd_rights (s : State) (a : Agent) (code : Nat) :
    s.refuseCmd a code .rights = s.deniedAccess a (0x8000 + code) := rfl

@[simp] theorem State.denied_flag (s : State) (a : Agent) (acc : Nat) :
    (s.denied a acc).flag (Reg.serAgtStat a.val) 4 = true := by
  have hidx : Reg.serAgtStat a.val ≠ Reg.serAgtDenyIdx a.val := by simp only [Reg.serAgtStat, Reg.serAgtDenyIdx]; omega
  have hreg : (s.denied a acc).reg (Reg.serAgtStat a.val)
      = (s.setFlag (Reg.serAgtStat a.val) 4 true).reg (Reg.serAgtStat a.val) := by
    simp only [State.denied, State.postIf_reg, State.when_reg, State.reg_setReg_ne _ _ hidx, ite_self]
  rw [State.flag, hreg]
  exact s.flag_setFlag_same _ (by decide) true

/-- Only the rise of DENIED posts. -/
theorem State.denied_fab_of_flag {s : State} {a : Agent} (h : s.flag (Reg.serAgtStat a.val) 4 = true) (acc : Nat) :
    (s.denied a acc).fab = s.fab := by simp [State.denied, h]

@[simp] theorem State.deniedAccess_flag (s : State) (a : Agent) (acc : Nat) :
    (s.deniedAccess a acc).flag (Reg.serAgtStat a.val) 4 = true := by
  rw [State.deniedAccess, State.flag_setStatus _ _ _ (by decide) (by decide), State.denied_flag]

@[simp] theorem State.deniedAccess_status (s : State) (a : Agent) (acc : Nat) :
    (s.deniedAccess a acc).fld (Reg.serAgtStat a.val) 0 4 = 2 :=
  (s.denied a acc).fld_setFld_same (Reg.serAgtStat a.val) 2 (by decide)

theorem State.deniedAccess_fab_of_flag {s : State} {a : Agent} (h : s.flag (Reg.serAgtStat a.val) 4 = true) (acc : Nat) :
    (s.deniedAccess a acc).fab = s.fab := by
  simp [State.deniedAccess, State.denied_fab_of_flag h]

/-! The rings of agents: a delivery or attention ring of one agent (R496), and the pool rings (R497). -/

/-- Ring k is an agent's ring other than a's, or a pool ring whose POP mask leaves a out. -/
def State.popsForeign (s : State) (a : Agent) (k : Nat) : Prop :=
  (k < 8 ∧ k / 2 ≠ a.val) ∨ (64 ≤ k ∧ bit (s.fab.ring k).pop a.val = false)

theorem State.mayPop_of_popsForeign {s : State} {a : Agent} {k : Nat} (h : s.popsForeign a k) : s.mayPop a k = false := by
  rcases h with ⟨hk, ha⟩ | ⟨hk, hp⟩
  · simp [State.mayPop, hk, ha]
  · have h8 : ¬ k < 8 := by omega
    simp [State.mayPop, h8, Nat.not_lt.2 hk, hp]

theorem State.popsForeign.agentOrPool {s : State} {a : Agent} {k : Nat} (h : s.popsForeign a k) : k < 8 ∨ 64 ≤ k :=
  h.imp And.left And.left

/-- No unit takes an agent's ring or a pool ring with it. -/
theorem absentRing_of_agentOrPool (v : Variant) {k : Nat} (h : k < 8 ∨ 64 ≤ k) : absentRing v k = false := by
  have hports : k ≠ 16 ∧ k ≠ 17 ∧ k ≠ 18 ∧ k ≠ 19 := by omega
  have hlink : 20 ≤ k → ¬ k < 24 := by omega
  have hchk2 : 48 ≤ k → ¬ k < 56 := by omega
  have hchk3 : 56 ≤ k → ¬ k < 64 := by omega
  simp +contextual [absentRing, hports, hlink, hchk2, hchk3]

theorem agentsPop_of_agentOrPool {k : Nat} (h : k < 8 ∨ 64 ≤ k) : agentsPop k = true := by
  rcases h with hk | hk
  · have h24 : ¬ 24 ≤ k := by omega
    have h20 : k < 20 := by omega
    simp [agentsPop, ringDir, h24, h20]
  · have hdir : ringDir k = 2 := by
      rw [ringDir, if_neg (by omega), if_neg (by omega), if_neg (by omega), if_neg (by omega)]
    have h32 : ¬ k < 32 := by omega
    simp [agentsPop, hdir, h32]

/-! A pop through RING_DATA0. -/

theorem State.dataPop_of_popsForeign {s : State} {a : Agent} (h : s.popsForeign a (s.selRing a)) :
    s.dataPop a = (s.deniedAccess a 0x610).clearLatch a := by
  simp [State.dataPop, absentRing_of_agentOrPool _ h.agentOrPool, agentsPop_of_agentOrPool h.agentOrPool,
    State.mayPop_of_popsForeign h, State.deniedAccess]

theorem exec_ringData0Pop_of_popsForeign {s : State} {a : Agent} (hm : s.mode = .active) (hraw : s.rawSel a = false)
    (h : s.popsForeign a (s.selRing a)) :
    exec (.ringData0Pop a) s = .next ((s.deniedAccess a 0x610).clearLatch a).attnSettle := by
  simp [exec, execRingData0Pop, s.active_iff.2 hm, hraw, State.dataPop_of_popsForeign h]

theorem State.attnSettle_latch (s : State) (a : Agent) : (s.attnSettle.ser.ag.get a).latch = (s.ser.ag.get a).latch := by
  match a with
  | 0 | 1 | 2 | 3 => rfl

theorem State.clearLatch_latch (s : State) (a : Agent) : ((s.clearLatch a).ser.ag.get a).latch = Eight.all 0 :=
  congrArg SerAgent.latch (s.setAg_same a fun g => { g with latch := Eight.all 0 })

/-! A pop by command. -/

theorem State.shown_head? (s : State) (a : Agent) (written data : List Byte) (b : Byte) {n : Nat} (hn : 1 ≤ n) :
    (s.shown a written (b :: data) n).head? = some b := by
  obtain ⟨m, rfl⟩ := Nat.exists_eq_add_of_le' hn
  unfold State.shown
  split_ifs <;> rfl

theorem State.transact_of_eq {s t : State} {f : State → State × List Byte} {reply : List Byte} (hf : f s = (t, reply))
    (hm : s.mode = .active) (ht : t.mode = .active) : s.transact f = .next (t.endTransaction reply) := by
  rw [State.transact_of_active f hm (by rw [hf]; exact ht), hf]

/-- The bytes `w` of the transaction name ring k and the most entries to take. -/
theorem execRingPop_of_popsForeign {s : State} {a : Agent} {w : List Byte} {k max : Nat} (n : Nat) (hm : s.mode = .active)
    (hw : blockOk 2 2 w = true) (hk : leNat (slice w 1 1) = k) (hmax : leNat (slice w 2 1) = max)
    (hright : s.cmdRefused a 6 true = .no) (h1 : 1 ≤ max) (h15 : max ≤ 15) (h : s.popsForeign a k) :
    execRingPop a ⟨w, some n⟩ s = .next ((s.deniedAccess a 0x8021).endTransaction (s.shown a (0x21 :: w) [0] n)) := by
  refine State.transact_of_eq ?_ hm ((s.deniedAccess_mode a _).trans hm)
  have h0 : max ≠ 0 := by omega
  simp [hw, hk, hmax, hright, h0, Nat.not_lt.2 h15, absentRing_of_agentOrPool _ h.agentOrPool,
    agentsPop_of_agentOrPool h.agentOrPool, State.mayPop_of_popsForeign h, State.refuseCmd_rights]

theorem exec_ringPop (a : Agent) (tx : CmdTx) (s : State) : exec (.ringPop a tx) s = execRingPop a tx s := rfl

/-- Settles O58: the ring is one that agents pop but this one may not, so either pop is the denial, and takes nothing. -/
theorem popsOfAnother : Obligations.PopsOfAnother := by
  unfold Obligations.PopsOfAnother
  intro s a k hm h
  refine ⟨fun hraw hsel => ?data, fun max n hright h1 h15 hn => ?command⟩
  case data =>
    have hforeign : s.popsForeign a (s.selRing a) := hsel ▸ h
    refine ⟨_, exec_ringData0Pop_of_popsForeign hm hraw hforeign, ?_, ?_, ?_, fun hold => ?_⟩
    · exact s.deniedAccess_flag a 0x610
    · exact s.deniedAccess_status a 0x610
    · rw [State.attnSettle_latch, State.clearLatch_latch]
    · exact State.deniedAccess_fab_of_flag hold 0x610
  case command =>
    refine ⟨_, (exec_ringPop a _ s).trans (execRingPop_of_popsForeign n hm rfl rfl rfl hright h1 h15 h), ?_, ?_, ?_, fun hold => ?_⟩
    · exact s.deniedAccess_flag a 0x8021
    · exact s.deniedAccess_status a 0x8021
    · exact s.shown_head? a _ _ _ hn
    · exact State.deniedAccess_fab_of_flag hold 0x8021

end Sys2Proof.Machine
end

section
/-! The requests of the agents (R537, R539): those that wait, that run, or whose reply waits. Twelve commands move them, the end of
the digital domain takes them, and no other command reaches them: what the units write into the store goes beside them. -/

namespace Sys2Proof.Machine

/-! The requests, and what of the state shows them. -/

/-- What the Tack Room holds of the agents' requests: those that wait, those that run, the replies still to enter (R537, R539). -/
def Tkr.requests (t : Tkr) : Four (List Req) × Four (Option Req) × Four (List ReplyItem) := (t.queue, t.run, t.replies)

theorem Tkr.held_of_requests_eq {t u : Tkr} (h : u.requests = t.requests) : u.held = t.held := by
  obtain ⟨hqueue, hrun, hreplies⟩ : u.queue = t.queue ∧ u.run = t.run ∧ u.replies = t.replies := by simpa [Tkr.requests] using h
  funext a
  simp only [Tkr.held, hqueue, hrun, hreplies]

theorem Tkr.run_of_requests_eq {t u : Tkr} (h : u.requests = t.requests) : u.run = t.run := congrArg (·.2.1) h

@[simp] theorem State.ite_tkr (c : Prop) [Decidable c] (s t : State) : (if c then s else t).tkr = if c then s.tkr else t.tkr :=
  apply_ite ..

@[simp] theorem Tkr.ite_requests (c : Prop) [Decidable c] (t u : Tkr) :
    (if c then t else u).requests = if c then t.requests else u.requests := apply_ite ..

/-! The fields of the Tack Room beside the requests. -/

@[simp] theorem Tkr.requests_withSession (t : Tkr) (e : Option Session) :
    ({ t with session := e } : Tkr).requests = t.requests := rfl

@[simp] theorem Tkr.requests_withBad (t : Tkr) (bad : List Nat) : ({ t with bad := bad } : Tkr).requests = t.requests := rfl

@[simp] theorem Tkr.requests_withScrubLate (t : Tkr) (late : Bool) :
    ({ t with scrubLate := late } : Tkr).requests = t.requests := rfl

@[simp] theorem Tkr.requests_withHistory (t : Tkr) (hbuf : List (List Byte)) (hcount : Nat) :
    ({ t with hbuf := hbuf, hcount := hcount } : Tkr).requests = t.requests := rfl

/-! The store: none of its operations sees the requests. -/

@[simp] theorem State.journalAs_requests (s : State) (typ origin : Nat) (data : List Byte) :
    (s.journalAs typ origin data).tkr.requests = s.tkr.requests := rfl

@[simp] theorem State.journal_requests (s : State) (typ : Nat) (data : List Byte) :
    (s.journal typ data).tkr.requests = s.tkr.requests := rfl

@[simp] theorem State.spareCheck_requests (s : State) : s.spareCheck.tkr.requests = s.tkr.requests := rfl

@[simp] theorem State.program_requests (s : State) (pg : Nat) (bs : List Byte) :
    (s.program pg bs).tkr.requests = s.tkr.requests := rfl

@[simp] theorem State.retire_requests (s : State) (b cause : Nat) (keep : Bool) :
    (s.retire b cause keep).tkr.requests = s.tkr.requests := by
  unfold State.retire
  (repeat' split) <;> simp only [State.spareCheck_requests, State.post_keeps, State.journal_requests] <;> rfl

@[simp] theorem State.eraseBlk_requests (s : State) (b : Nat) : (s.eraseBlk b).tkr.requests = s.tkr.requests := by
  unfold State.eraseBlk
  split
  · exact s.retire_requests b 4 false
  · rfl

@[simp] theorem State.writeFail_requests (s : State) (b : Nat) : (s.writeFail b).tkr.requests = s.tkr.requests := by
  simp [State.writeFail]

@[simp] theorem State.logFrom_requests (s : State) (first blocks n head : Nat) :
    (s.logFrom first blocks n head).1.tkr.requests = s.tkr.requests := by
  induction n generalizing s head with
  | zero => rfl
  | succ n ih =>
    unfold State.logFrom
    dsimp only
    (repeat' split) <;> simp [ih]

@[simp] theorem State.logPage_requests (s : State) (first blocks head : Nat) :
    (s.logPage first blocks head).1.tkr.requests = s.tkr.requests := s.logFrom_requests first blocks blocks head

@[simp] theorem State.journalPage_requests (s : State) : s.journalPage.tkr.requests = s.tkr.requests := by
  unfold State.journalPage
  split
  · rfl
  · exact s.logPage_requests 48 128 s.tkr.jhead

@[simp] theorem State.journalFlush_requests (s : State) (n : Nat) : (s.journalFlush n).tkr.requests = s.tkr.requests := by
  fun_induction State.journalFlush s n <;> simp_all

@[simp] theorem State.sealNow_requests (s : State) : s.sealNow.tkr.requests = s.tkr.requests := by
  have h := fun k =>
    (State.logPage_requests (s.journalFlush k) 48 128 (s.journalFlush k).tkr.jhead).trans (s.journalFlush_requests k)
  simpa only [State.sealNow, State.post_keeps, Tkr.program, Tkr.requests] using h _

@[simp] theorem State.journalProgram_requests (s : State) : s.journalProgram.tkr.requests = s.tkr.requests := by
  simp [State.journalProgram]

@[simp] theorem State.testProgram_requests (s : State) (bs : List Byte) : (s.testProgram bs).tkr.requests = s.tkr.requests := by
  unfold State.testProgram
  dsimp only
  split
  · simp only [State.post_keeps]
    exact s.eraseBlk_requests _
  · rfl

@[simp] theorem State.historyPage_requests (s : State) : s.historyPage.tkr.requests = s.tkr.requests := by
  unfold State.historyPage
  split
  · rfl
  · simp only [State.post_keeps]
    exact s.logPage_requests 208 576 s.tkr.hhead

@[simp] theorem State.historyFlush_requests (s : State) (n : Nat) : (s.historyFlush n).tkr.requests = s.tkr.requests := by
  fun_induction State.historyFlush s n <;> simp_all

@[simp] theorem State.activate_requests (s : State) (b other : Nat) : (s.activate b other).tkr.requests = s.tkr.requests := by
  simp [State.activate]

@[simp] theorem State.histEnd_requests (s : State) : s.histEnd.tkr.requests = s.tkr.requests := by
  simp [State.histEnd]

@[simp] theorem State.closeLogs_requests (s : State) : s.closeLogs.tkr.requests = s.tkr.requests := by simp [State.closeLogs]

@[simp] theorem State.writeHistInterval_requests (s : State) (v secs : Nat) :
    (s.writeHistInterval v secs).tkr.requests = s.tkr.requests := by simp [State.writeHistInterval]

/-! The other units: what they leave in the store are JOURNAL entries, test records and summaries. -/

@[simp] theorem State.commitRecord_requests (s : State) (r : List Byte) : (s.commitRecord r).tkr.requests = s.tkr.requests := by
  simp [State.commitRecord]

@[simp] theorem State.learnCap_requests (s : State) (cap serial : Nat) :
    (s.learnCap cap serial).tkr.requests = s.tkr.requests := by simp [State.learnCap]

@[simp] theorem State.chgFault_requests (s : State) (cause : Nat) : (s.chgFault cause).tkr.requests = s.tkr.requests := by
  simp [State.chgFault]

@[simp] theorem State.chgEval_requests (s : State) (ov : Bool) (own : Option ChgMove) :
    (s.chgEval ov own).tkr.requests = s.tkr.requests := by
  unfold State.chgEval
  split <;> simp

@[simp] theorem State.testClose_requests (s : State) (outcome : Nat) : (s.testClose outcome).tkr.requests = s.tkr.requests := by
  unfold State.testClose
  split <;> simp

@[simp] theorem State.testFault_requests (s : State) : s.testFault.tkr.requests = s.tkr.requests := by simp [State.testFault]

@[simp] theorem State.lowerRail_requests (s : State) (k : Rail) : (s.lowerRail k).tkr.requests = s.tkr.requests := by
  simp [State.lowerRail]

@[simp] theorem State.goDown_requests (n : Nat) (s : State) : (State.goDown n s).tkr.requests = s.tkr.requests := by
  fun_induction State.goDown n s <;> simp_all

@[simp] theorem State.shutdownNext_requests (s : State) : s.shutdownNext.tkr.requests = s.tkr.requests := by
  simp [State.shutdownNext]

@[simp] theorem State.resumeDown_requests (s : State) : s.resumeDown.tkr.requests = s.tkr.requests := by
  unfold State.resumeDown
  (repeat' split) <;> simp

@[simp] theorem State.startShutdown_requests (s : State) (cause : Nat) (latched : Bool) :
    (s.startShutdown cause latched).tkr.requests = s.tkr.requests := by
  unfold State.startShutdown
  dsimp only
  (repeat' split) <;> simp

@[simp] theorem State.latchedCause_requests (s : State) (cause : Nat) (k : Rail) :
    (s.latchedCause cause k).tkr.requests = s.tkr.requests := by
  unfold State.latchedCause
  (repeat' split) <;> simp

@[simp] theorem State.emergencyEnd_requests (s : State) : s.emergencyEnd.tkr.requests = s.tkr.requests := by
  simp [State.emergencyEnd]

@[simp] theorem State.setPhases_requests (s : State) (ps : Four PhaseCell) :
    (s.setPhases ps).tkr.requests = s.tkr.requests := by simp [State.setPhases]

@[simp] theorem State.chgClear_requests (s : State) : s.chgClear.tkr.requests = s.tkr.requests := by simp [State.chgClear]

@[simp] theorem State.chgExpire_requests (s : State) (counts : Bool) (count limit cause : Nat) :
    (s.chgExpire counts count limit cause).tkr.requests = s.tkr.requests := by simp [State.chgExpire]

@[simp] theorem State.removePack_requests (s : State) : s.removePack.tkr.requests = s.tkr.requests := by simp [State.removePack]

@[simp] theorem State.insertPack_requests (s : State) : s.insertPack.tkr.requests = s.tkr.requests := by simp [State.insertPack]

@[simp] theorem State.ntcMeasured_requests (s : State) (t1 t2 : Option Int) :
    (s.ntcMeasured t1 t2).tkr.requests = s.tkr.requests := by
  unfold State.ntcMeasured
  dsimp only
  (repeat' split) <;> simp

@[simp] theorem State.fixedResult_requests (s : State) (e : Nat) (m : Int) :
    (s.fixedResult e m).tkr.requests = s.tkr.requests := by simp [State.fixedResult]

@[simp] theorem State.telemetryEnd_requests (s : State) (inst : Nat × Nat) (samples : List Int) :
    (s.telemetryEnd inst samples).tkr.requests = s.tkr.requests := by simp [State.telemetryEnd]

@[simp] theorem State.dropAll_requests (s : State) (ks : List Rail) : (s.dropAll ks).tkr.requests = s.tkr.requests := by
  induction ks generalizing s with
  | nil => rfl
  | cons k ks ih => simp [State.dropAll, ih]

@[simp] theorem State.afterAdoption_requests (s : State) : s.afterAdoption.tkr.requests = s.tkr.requests := by
  unfold State.afterAdoption
  dsimp only
  (repeat' split) <;> simp

@[simp] theorem State.adoptFault_requests (s : State) (k : Rail) : (s.adoptFault k).tkr.requests = s.tkr.requests := by
  simp [State.adoptFault]

@[simp] theorem State.adopt_requests (s : State) (sns : Eight Nat) : (s.adopt sns).tkr.requests = s.tkr.requests := by
  unfold State.adopt
  dsimp only
  (repeat' split) <;> simp

@[simp] theorem State.dischWritten_requests (s : State) (k : Rail) : (s.dischWritten k).tkr.requests = s.tkr.requests := by
  unfold State.dischWritten
  split <;> simp

@[simp] theorem State.declare_requests (s : State) : s.declare.tkr.requests = s.tkr.requests := by simp [State.declare]

@[simp] theorem State.missTest_requests (s : State) (k : TestKind) : (s.missTest k).tkr.requests = s.tkr.requests := by
  simp [State.missTest]

@[simp] theorem State.tryScheduled_requests (s : State) (k : TestKind) : (s.tryScheduled k).tkr.requests = s.tkr.requests := by
  simp [State.tryScheduled]

@[simp] theorem State.isolatePhase_requests (s : State) (p : Phase) (f : PhaseFault) :
    (s.isolatePhase p f).tkr.requests = s.tkr.requests := by simp [State.isolatePhase]

@[simp] theorem State.restore_requests (s : State) (ps : List Phase) : (s.restore ps).tkr.requests = s.tkr.requests := by
  induction ps generalizing s with
  | nil => rfl
  | cons p ps ih => simp [State.restore, ih]

@[simp] theorem State.writeChgCtl_requests (s old : State) (v : Nat) :
    (s.writeChgCtl old v).tkr.requests = s.tkr.requests := by simp [State.writeChgCtl]

@[simp] theorem State.writeCapNom_requests (s : State) : s.writeCapNom.tkr.requests = s.tkr.requests := by
  simp [State.writeCapNom]

/-! The work of a request. -/

@[simp] theorem State.noteFlips_requests (s : State) (b flips : Nat) : (s.noteFlips b flips).tkr.requests = s.tkr.requests := rfl

@[simp] theorem State.readPage_requests (s : State) (pg flips : Nat) :
    (s.readPage pg flips).1.tkr.requests = s.tkr.requests := by
  unfold State.readPage
  (repeat' split) <;> simp

@[simp] theorem State.readPages_requests (s : State) (pg : Nat) (flips : List Nat) (n : Nat) :
    (s.readPages pg flips n).1.tkr.requests = s.tkr.requests := by
  induction n generalizing s pg flips with
  | zero => rfl
  | succ n ih => simp [State.readPages, ih]

@[simp] theorem State.journalOut_requests (s : State) : s.journalOut.tkr.requests = s.tkr.requests := by
  simp [State.journalOut]

@[simp] theorem State.sessionEnd_requests (s : State) : s.sessionEnd.tkr.requests = s.tkr.requests := rfl

@[simp] theorem State.setImg_requests (s : State) (slot : Nat) (v : Option Nat) :
    (s.setImg slot v).tkr.requests = s.tkr.requests := rfl

@[simp] theorem State.writePages_requests (s : State) (pg : Nat) (bs : List Byte) (n : Nat) :
    (s.writePages pg bs n).tkr.requests = s.tkr.requests := by
  induction n generalizing s pg bs with
  | zero => rfl
  | succ n ih => simp [State.writePages, ih]

@[simp] theorem State.activateBank_requests (s : State) (e : Session) : (s.activateBank e).1.tkr.requests = s.tkr.requests := by
  unfold State.activateBank
  dsimp only
  split <;> simp

@[simp] theorem State.installPatch_requests (s : State) (e : Session) (install : Bool) :
    (s.installPatch e install).1.tkr.requests = s.tkr.requests := by
  unfold State.installPatch
  dsimp only
  (repeat' split) <;> simp

@[simp] theorem State.closeSession_requests (s : State) (r : Req) (e : Session) :
    (s.closeSession r e).1.tkr.requests = s.tkr.requests := by
  unfold State.closeSession
  dsimp only
  (repeat' split) <;> simp

@[simp] theorem State.scrubPage_requests (s : State) (pg flips : Nat) : (s.scrubPage pg flips).tkr.requests = s.tkr.requests := by
  simp [State.scrubPage]

@[simp] theorem State.refresh_requests (s : State) (b : Nat) (eraseOk : Bool) :
    (s.refresh b eraseOk).tkr.requests = s.tkr.requests := by
  unfold State.refresh
  (repeat' split) <;>
    simp only [State.retire_requests, State.spareCheck_requests, State.post_keeps, State.journal_requests] <;> rfl

/-! The boot. -/

@[simp] theorem State.stageBoot_requests (s : State) (copyOk : Bool) : (s.stageBoot copyOk).tkr.requests = s.tkr.requests := by
  unfold State.stageBoot
  dsimp only
  (repeat' split) <;> simp

@[simp] theorem State.protect_requests (s : State) (copyOk : Bool) : (s.protect copyOk).tkr.requests = s.tkr.requests := by
  unfold State.protect
  dsimp only
  split <;> simp

@[simp] theorem State.liftFaults_requests (s : State) : s.liftFaults.tkr.requests = s.tkr.requests := by simp [State.liftFaults]

@[simp] theorem State.bootCharge_requests (s : State) : s.bootCharge.tkr.requests = s.tkr.requests := by simp [State.bootCharge]

@[simp] theorem State.bootSteps_requests (s : State) (sns : Eight Nat) (vbat : Nat) (copyOk : Bool) :
    (s.bootSteps sns vbat copyOk).tkr.requests = s.tkr.requests := by simp [State.bootSteps]

@[simp] theorem State.bootJournal_requests (s : State) : s.bootJournal.tkr.requests = s.tkr.requests := by
  unfold State.bootJournal
  split <;> simp

@[simp] theorem State.closeInterrupted_requests (s : State) : s.closeInterrupted.tkr.requests = s.tkr.requests := by
  unfold State.closeInterrupted
  split <;> simp

@[simp] theorem State.chargeAfterHold_requests (s : State) (posted : List Nat) :
    (s.chargeAfterHold posted).tkr.requests = s.tkr.requests := by simp [State.chargeAfterHold]

/-! Loops, and operations that run what they are given. -/

@[simp] theorem foldl_requests {β : Type} {f : State → β → State} (h : ∀ t b, (f t b).tkr.requests = t.tkr.requests)
    (l : List β) (s : State) : (l.foldl f s).tkr.requests = s.tkr.requests := foldl_keep (·.tkr.requests) f h l s

section given

variable {f : State → State} (hf : ∀ t, (f t).tkr.requests = t.tkr.requests)
include hf

@[simp] theorem State.adcJob_requests (s : State) (more : Bool) : (s.adcJob more f).tkr.requests = s.tkr.requests := by
  simp [State.adcJob, hf]

@[simp] theorem State.adcAtom_requests (s : State) (n : Nat) : (s.adcAtom n f).tkr.requests = s.tkr.requests := by
  simp [State.adcAtom, hf]

@[simp] theorem State.scrubAtom_requests (s : State) (p : Fin 4) : (s.scrubAtom p f).tkr.requests = s.tkr.requests := by
  simp [State.scrubAtom, hf]

@[simp] theorem State.upkeep_requests (s : State) (p : Fin 4) (op : TkrOp) :
    (s.upkeep p op f).tkr.requests = s.tkr.requests := by
  simp [State.upkeep, hf]

@[simp] theorem State.ackOnce_requests (s : State) (src seqNo : Nat) (key : List Byte) :
    (s.ackOnce src seqNo key f).tkr.requests = s.tkr.requests := by
  simp [State.ackOnce, hf]

end given

@[simp] theorem State.linkTake_requests (s : State) (f : AgentFrame) (typ : Nat) {deliver : State → State × Bool}
    (h : (deliver s).1.tkr.requests = s.tkr.requests) : (s.linkTake f typ deliver).tkr.requests = s.tkr.requests := by
  unfold State.linkTake
  dsimp only
  generalize deliver s = r at *
  (repeat' split) <;> simp_all

@[simp] theorem State.after_portCommand_requests {s : State} (p : Port) (can : Bool) {f : State → State}
    (h : (f (s.pdFresh p)).tkr.requests = s.tkr.requests) : (s.after (s.portCommand p can f)).tkr.requests = s.tkr.requests := by
  simp [State.portCommand, h]

@[simp] theorem State.after_transact_requests {s : State} {f : State → State × List Byte}
    (h : (f s).1.tkr.requests = s.tkr.requests) : (s.after (s.transact f)).tkr.requests = s.tkr.requests := by
  simp [State.transact, h]

@[simp] theorem State.after_writeCommand_requests {s : State} (a : Agent) (code bank : Nat) (tx : CmdTx)
    (lenOk : List Byte → Bool) {f : State → List Byte → State} (h : ∀ b, (f s b).tkr.requests = s.tkr.requests) :
    (s.after (s.writeCommand a code bank tx lenOk f)).tkr.requests = s.tkr.requests := by
  refine State.after_transact_requests ?_
  (repeat' split) <;> simp [h]

@[simp] theorem State.after_readCommand_requests {s : State} (a : Agent) (code bank : Nat) (tx : CmdTx)
    (zero data : List Byte) {f : State → State} (h : (f s).tkr.requests = s.tkr.requests) :
    (s.after (s.readCommand a code bank tx zero data f)).tkr.requests = s.tkr.requests := by
  refine State.after_transact_requests ?_
  (repeat' split) <;> simp [h]

/-! Every command that neither moves a request nor takes the digital domain with it, by family. -/

/-- The commands that can move or end a request: those of the Tack Room's requests and replies, the ends of the digital domain,
and a window write, which can ask for one of these. -/
def movesRequests : Instr → Bool
  | .tkrReq _ _ | .tkrRequestStart _ | .tkrRead _ _ | .tkrInfo _ | .tkrStage _ _ | .tkrNote _ | .tkrSeal _ | .tkrOpen _
  | .tkrWrite _ _ | .tkrClose _ | .tkrAbort _ | .replyDelivered _ => true
  | .keeperPowerLoss _ _ | .shipEntry | .enterDormant | .watchdogReset _ _ | .brownout | .tboLostReset _ => true
  | .windowWrite _ _ => true
  | _ => false

theorem life_requests {c : Instr} (h : Safety.family c = .life) (hm : movesRequests c = false) (s : State) :
    (s.after (exec c s)).tkr.requests = s.tkr.requests := by
  cases c <;> cases h
  case keeperPowerLoss | shipEntry | enterDormant | watchdogReset | brownout | tboLostReset => cases hm
  case shipWake | watchdogWarn | watchdogService =>
    simp only [exec, execShipWake, execWatchdogWarn, execWatchdogService, State.after_next]
    (repeat' split) <;> simp
  all_goals
    simp [exec, execPowerOn, execBoot, execEnterShip, execSysPowerBadKey, execWakeNLow,
      execRemoteWakePulseEnd, execWakeAttemptFail, execWakeRetry, execWakeFailRetry, execBootDone, execHoldTimeout, execTboLost,
      execLfoLost, execLfoRestored, execRtcAlarm, execRtcSet]

theorem inputs_requests {c : Instr} (h : Safety.family c = .inputs) (s : State) :
    (s.after (exec c s)).tkr.requests = s.tkr.requests := by
  cases c <;> cases h
  case takeover | returnDelay | inputCurrentLimit | inputVoltageRegulation =>
    simp only [exec, execTakeover, execReturnDelay, execInputCurrentLimit, execInputVoltageRegulation, State.after_next]
    (repeat' split) <;> simp
  all_goals
    simp [exec, execPoeClassEvent, execHotSwapOn, execHotSwapOff, execHotSwapPg, execHotSwapFault, execPoeValid,
      execPoeLimitUpdate, execPoeDllAlloc, execMpsPulse, execMpsPulseEnd, execInputQualified, execInputOvervoltage, execPthEn,
      execBatterySupplement, execVsysLow, execStrappedCutoff, execInputInvalid, execGateFault]

theorem converters_requests {c : Instr} (h : Safety.family c = .converters) (s : State) :
    (s.after (exec c s)).tkr.requests = s.tkr.requests := by
  cases c <;> cases h
  case cinchTrip | cinchRunaway | phaseDrop | reverseStop | cnvOutputLimit =>
    simp only [exec, execCinchTrip, execCinchRunaway, execPhaseDrop, execReverseStop, execCnvOutputLimit, State.after_next]
    (repeat' split) <;> simp
  all_goals
    simp [exec, execVsysOv, execVsysOvResume, execPhaseAdd, execSenseLost, execDriverOverTemp, execRemoteSenseLost, execRsRetry,
      execCnvClear, execReverseStart, execDeadBusTimeout, execPortCnvFail, execCnvXnClear, execVbusOvp, execVbusOvpResume,
      execVdrvUndervoltage]

theorem charging_requests {c : Instr} (h : Safety.family c = .charging) (s : State) :
    (s.after (exec c s)).tkr.requests = s.tkr.requests := by
  cases c <;> cases h
  all_goals
    simp [exec, execChgChem, execChgClear, execChargePermissionChange, execQualifyDone, execRecoverDone,
      execPrechargeDone, execCvEntry, execTermination, execRecharge, execRequalify, execChgOvervoltage, execRecoveryTimeout,
      execPrechargeTimeout, execSafetyTimeout, execPackRemoved, execPackInserted, execNtcMeasure, execDormantNtcSample,
      execGaugeUpdate]

theorem emergency_requests {c : Instr} (h : Safety.family c = .emergency) (s : State) :
    (s.after (exec c s)).tkr.requests = s.tkr.requests := by
  cases c <;> cases h
  case testDue | testRetry | testMissed | startRecordCommit | testLengthReached =>
    simp only [exec, execTestDue, execTestRetry, execTestMissed, execStartRecordCommit, execTestLengthReached, State.after_next]
    (repeat' split) <;> simp
  all_goals
    simp [exec, execEmergencyDeclared, execEmergencyEnded, execEmgWarn, execEmgWarnClear, execEmgCutoff,
      execSlotGranted, execStartFn, execStartDur, execEmgAbort, execTestAbortVbat]

theorem sequencer_requests {c : Instr} (h : Safety.family c = .sequencer) (s : State) :
    (s.after (exec c s)).tkr.requests = s.tkr.requests := by
  cases c <;> cases h
  case seqEn =>
    simp only [exec, execSeqEn, State.after_next]
    (repeat' split) <;> simp
  all_goals
    simp [exec, execSeqUp, execSeqDown, execSeqClear, execSeqForceOff, execSeqBadCommand, execStartDelay, execPowerGood,
      execRiseTimeout, execRailFault, execRailWarning, execRailDischarged, execDisMaxTimeout, execDisWaitStart, execSeqRestart,
      execFaultLatchAbsent]

theorem ports_requests {c : Instr} (h : Safety.family c = .ports) (s : State) :
    (s.after (exec c s)).tkr.requests = s.tkr.requests := by
  cases c <;> cases h
  case attach | request | psRdySend | waitReceived | psRdyReceived | senderResponseTimeout | acceptReceived | rejectReceived =>
    simp only [exec, execAttach, execRequest, execPsRdySend, execWaitReceived, execPsRdyReceived, execSenderResponseTimeout,
      execAcceptReceived, execRejectReceived, State.after_onPort]
    (repeat' split) <;> simp
  all_goals
    simp [exec, execVbusWake, execUnsupportedAttach, execDetach, execDrpToggle, execSourceTurnOn, execPpsTimeout,
      execBudgetShortfall, execSourceCapabilities, execSourceCapRepeat, execKeepalive, execWaitRetry, execPrSwapReceived,
      execDrSwapReceived, execNotSupportedMessage, execSinkCapabilities, execGetSourceCap, execGetSinkCap,
      execGetStatusReceived, execGetPpsStatusReceived, execGetSourceCapExtended, execAlertReceived, execDiscoverIdentity,
      execBistCarrierMode, execHardResetReceived, execSoftResetReceived, execFrsSignal, execFrsSend, execFrsFail, execSrcCut,
      execDischargeDone, execDischargeSlow, execPdpHardReset, execPdpSoftReset, execPdpPrSwap, execPdpRenegotiate,
      execPdpGetStatus, execPdpGetPpsStatus, execPdpGetSrcCapExt, execPdpRoleCfg, execFrSwapReceived]

theorem link_requests {c : Instr} (h : Safety.family c = .link) (s : State) :
    (s.after (exec c s)).tkr.requests = s.tkr.requests := by
  cases c <;> cases h
  case joinReceived =>
    simp only [exec, execJoinReceived]
    split
    · rfl
    · rw [State.after_next, State.ackOnce_requests fun t => by split <;> simp]
      simp
  case doorbellReceived f =>
    have hstore : (s.lnkHear.linkStore f 0x9 22 (f.payload.drop 1)).1.tkr = s.tkr := by simp
    simp only [exec, execDoorbellReceived, State.after_next]
    split
    · rfl
    · rw [State.linkTake_requests]
      · simp
      generalize s.lnkHear.linkStore f 0x9 22 (f.payload.drop 1) = r at hstore ⊢
      (repeat' split) <;> simp_all
  case beaconReceived | listenTimeout | leaveReceived | ackReceived | ackTimeout | frameTransmit =>
    simp only [exec, execBeaconReceived, execListenTimeout, execLeaveReceived, execAckReceived, execAckTimeout,
      execFrameTransmit, State.after_next]
    (repeat' split) <;> simp
  all_goals
    simp [exec, execBeaconSend, execStatusSend, execStatusReceived, execClaimStart, execClaimHeard, execClaimWithdraw,
      execClaimEnd, execJoinAckReceived, execJoinRetry, execBeaconGrantLoss, execBeaconLost, execTestReqReceived,
      execTestGrantReceived, execTestEndReceived, execSlotTimeout, execDataReceived, execCapture, execLnkDbSend, execLnkDisable,
      execCrcErrorFrame]

theorem fabric_requests {c : Instr} (h : Safety.family c = .fabric) (s : State) :
    (s.after (exec c s)).tkr.requests = s.tkr.requests := by
  cases c <;> cases h
  all_goals
    simp [exec, execEventPost, execEvtDoorbell, execCoalesceTime, execAgtnClaim, execAgtnComplete, execAgtnCtlAwake,
      execRemoteWake, execRemoteWakeDeferred, execEvtRoute, execWatchHitDormant, execWatchHitShip]

theorem rings_requests {c : Instr} (h : Safety.family c = .rings) (s : State) :
    (s.after (exec c s)).tkr.requests = s.tkr.requests := by
  cases c <;> cases h
  case rawAccess | chkJobDone =>
    simp only [exec, execRawAccess, execChkJobDone, State.after_next]
    (repeat' split) <;> simp
  all_goals
    simp [exec, execRingCfg, execRingDataPush, execRingData0Pop, execSramScrub, execChkJobStart, execChkUnitFailed,
      execChkKat, execChkAccWrite]

theorem measure_requests {c : Instr} (h : Safety.family c = .measure) (s : State) :
    (s.after (exec c s)).tkr.requests = s.tkr.requests := by
  cases c <;> cases h
  case telemetryResult =>
    simp only [exec, execTelemetryResult, State.after_next]
    (repeat' split) <;> simp
  all_goals
    simp [exec, execOneshotGo, execOneshotDone, execTelemetryDue, execHistoryIntervalEnd, execTlmCfg, execTlmHistInterval,
      execCalRun, execCalTrigger, execCalPassEnd, execTboTrim, execSenseOffset, execOffsetStale, execDeadlineMiss]

theorem serial_requests {c : Instr} (h : Safety.family c = .serial) (hm : movesRequests c = false) (s : State) :
    (s.after (exec c s)).tkr.requests = s.tkr.requests := by
  cases c <;> cases h
  case windowWrite | tkrReq => cases hm
  case currentPointerRead | ringPop =>
    simp only [exec, execCurrentPointerRead, execRingPop]
    refine State.after_transact_requests ?_
    (repeat' split) <;> simp
  case attentionFrame | attentionFallback | attentionArbLoss | notifyArbLoss | notifyNack | notifyStretchTimeout =>
    simp only [exec, execAttentionFrame, execAttentionFallback, execAttentionArbLoss, execNotifyArbLoss, execNotifyNack,
      execNotifyStretchTimeout, State.after_calling]
    (repeat' split) <;> simp
  all_goals
    simp [exec, execWindowRead, execSummary, execIdent, execStatus, execPendingCmd, execClaim, execComplete,
      execDoorbell, execRingPush, execQuickCommand, execUnackedFirstByte, execBusError, execBusTimeout, execAraRead,
      execAttentionDue, execAttentionRepeat, execNotifyFrame]

theorem tackRoom_requests {c : Instr} (h : Safety.family c = .tackRoom) (hm : movesRequests c = false) (s : State) :
    (s.after (exec c s)).tkr.requests = s.tkr.requests := by
  cases c <;> cases h
  case sessionTimeout | journalPageProgram | sealTimer | storeScrub | blockRefresh | blockRetire | historyPageProgram =>
    simp [exec, execSessionTimeout, execJournalPageProgram, execSealTimer, execStoreScrub, execBlockRefresh, execBlockRetire,
      execHistoryPageProgram]
  all_goals cases hm

/-- Every other command leaves the requests as they are. -/
theorem exec_requests {c : Instr} (hm : movesRequests c = false) (s : State) :
    (s.after (exec c s)).tkr.requests = s.tkr.requests := by
  cases h : Safety.family c with
  | life => exact life_requests h hm s
  | inputs => exact inputs_requests h s
  | converters => exact converters_requests h s
  | charging => exact charging_requests h s
  | emergency => exact emergency_requests h s
  | sequencer => exact sequencer_requests h s
  | ports => exact ports_requests h s
  | link => exact link_requests h s
  | serial => exact serial_requests h hm s
  | fabric => exact fabric_requests h s
  | rings => exact rings_requests h s
  | tackRoom => exact tackRoom_requests h hm s
  | measure => exact measure_requests h s

end Sys2Proof.Machine
end

section
/-! The reply ring of an agent (R539): an item that fits enters it whole, and what the ring's watermark posts goes to the agents'
event rings. -/

namespace Sys2Proof.Machine

/-! An item that fits its ring. -/

@[simp] theorem Fabric.ring_setRing_same (f : Fabric) (k : Nat) (r : Ring) : (f.setRing k r).ring k = r := SMap.get_set_same ..

theorem Fabric.ring_setRing_ne (f : Fabric) {j k : Nat} (r : Ring) (h : k ≠ j) : (f.setRing j r).ring k = f.ring k :=
  SMap.get_set_ne _ _ _ h

@[simp] theorem Fabric.ring_putEntries (f : Fabric) (r : Ring) (n : Nat) (es : List (List Byte)) (k : Nat) :
    (f.putEntries r n es).ring k = f.ring k := by
  induction es generalizing f n with
  | nil => rfl
  | cons e es ih => exact ih _ _

theorem Fabric.hwPush_ring_ne (f : Fabric) {j k : Nat} (es : List (List Byte)) (h : k ≠ j) :
    (f.hwPush j es).1.ring k = f.ring k := by
  simp only [Fabric.hwPush, Fabric.append]
  (repeat' split) <;> simp [Fabric.ring_setRing_ne _ _ h]

/-- What fits enters whole, behind what is there, whatever the ring's policy (R498, R499). -/
theorem Fabric.hwPush_items_of_fits {f : Fabric} {k : Nat} {es : List (List Byte)} (h : es.length ≤ (f.ring k).room) :
    ((f.hwPush k es).1.ring k).items = (f.ring k).items ++ [es.length] := by
  have hcap : es.length ≤ (f.ring k).cap := h.trans (Nat.sub_le _ _)
  simp only [Fabric.hwPush, Fabric.append, Nat.not_lt.2 h, hcap, decide_true, decide_false, Bool.not_false, Bool.true_or,
    Bool.and_self, if_true, if_false]
  split_ifs <;> simp

/-! Postings reach the agents' event rings, which have even numbers, and no other ring (R469). -/

theorem Fabric.ring_of_rings_eq {f g : Fabric} (h : g.rings = f.rings) (k : Nat) : g.ring k = f.ring k := by
  rw [Fabric.ring, h, Fabric.ring]

theorem Fabric.mergeOpen_rings (f : Fabric) (x : Nat) (e : Entry) : (f.mergeOpen x e).rings = f.rings := by
  unfold Fabric.mergeOpen
  (repeat' split) <;> rfl

section
variable {k : Nat} (hk : k % 2 = 1)
include hk

theorem Fabric.toRing_ring_of_odd (f : Fabric) (e : Entry) (a : Agent) : (f.toRing e a).1.ring k = f.ring k := by
  have hpush := f.hwPush_ring_ne [e.ringBytes] (show k ≠ 2 * a.val by omega)
  simp only [Fabric.toRing]
  (repeat' split) <;> exact hpush

theorem Fabric.toRings_ring_of_odd (f : Fabric) (e : Entry) (as : List Agent) : (f.toRings e as).1.ring k = f.ring k := by
  induction as generalizing f with
  | nil => rfl
  | cons a as ih => simp only [Fabric.toRings, ih, Fabric.toRing_ring_of_odd hk]

theorem State.deliver_ring_of_odd (s : State) (f : Fabric) (e : Entry) : (s.deliver f e).1.ring k = f.ring k := by
  cases hlive : (s.route e.num).live with
  | false => simp [State.deliver, hlive, Fabric.ring]
  | true =>
    cases hring : (s.route e.num).ring with
    | true =>
      simp only [State.deliver, hlive, hring, Bool.not_true, Bool.false_eq_true, if_false, if_true, Fabric.toRings_ring_of_odd hk]
      split <;> rfl
    | false =>
      simp only [State.deliver, hlive, hring, Bool.not_true, Bool.false_eq_true, if_false]
      split <;> rfl

theorem State.deliverAll_ring_of_odd (s : State) (f : Fabric) (es : List Entry) : (s.deliverAll f es).1.ring k = f.ring k := by
  induction es generalizing f with
  | nil => rfl
  | cons e es ih => simp only [State.deliverAll, ih, State.deliver_ring_of_odd hk]

theorem State.closeBatch_ring_of_odd (s : State) (f : Fabric) (g : Nat) : (s.closeBatch f g).1.ring k = f.ring k := by
  unfold State.closeBatch
  split
  · rfl
  · exact s.deliverAll_ring_of_odd hk _ _

theorem State.postOne_ring_of_odd (s : State) (f : Fabric) (x o : Nat) : (s.postOne f x o).1.ring k = f.ring k := by
  simp only [State.postOne]
  (repeat' split) <;> simp -failIfUnchanged only [State.closeBatch_ring_of_odd hk, State.deliver_ring_of_odd hk] <;>
    exact Fabric.ring_of_rings_eq (by simp [Fabric.mergeOpen_rings, Fabric.setBatch]) k

theorem State.postAll_ring_of_odd (s : State) (n : Nat) (xs : List (Nat × Nat)) (f : Fabric) :
    (s.postAll n xs f).ring k = f.ring k := by
  induction n generalizing xs f with
  | zero => rfl
  | succ n ih =>
    cases xs with
    | nil => rfl
    | cons x xs => simp only [State.postAll, ih, State.postOne_ring_of_odd hk]

theorem State.postFab_ring_of_odd (s : State) (x o : Nat) : (s.postFab x o).ring k = s.fab.ring k := by
  unfold State.postFab
  split_ifs
  · rfl
  · exact s.postAll_ring_of_odd hk _ _ _
  · rfl
  · rfl

theorem State.posts_ring_of_odd (s : State) (xs : List Nat) : (s.posts xs).fab.ring k = s.fab.ring k := by
  induction xs generalizing s with
  | nil => rfl
  | cons x xs ih => rw [State.posts_cons, ih, State.post_fab, State.postFab_ring_of_odd hk]

end

/-! The reply ring of an agent. -/

theorem State.ringWrite_reply_items {s : State} {a : Agent} {es : List (List Byte)}
    (h : s.ringFits (2 * a.val + 1) es.length = true) :
    ((s.ringWrite (2 * a.val + 1) es).fab.ring (2 * a.val + 1)).items = (s.fab.ring (2 * a.val + 1)).items ++ [es.length] := by
  have hagent : 2 * a.val + 1 < 8 := by omega
  have hodd : (2 * a.val + 1) % 2 = 1 := by omega
  rw [State.ringWrite, absentRing_of_agentOrPool _ (.inl hagent)]
  simp only [State.withFab, Bool.false_eq_true, if_false, State.posts_ring_of_odd hodd]
  exact Fabric.hwPush_items_of_fits (of_decide_eq_true h)

end Sys2Proof.Machine
end

section
/-! At most four requests of an agent, one session, and INFO of an empty partition (R537, R546, R644). A request that ends gives
way to at most one reply, one that starts leaves the queue, and TKR_REQ alone adds one, where fewer than four are held. -/

namespace Sys2Proof.Machine

/-! The end of a request (R539). -/

/-- The reply enters its ring at once: none of the agent's waits before it, and it fits. -/
def State.replyEnters (s : State) (a : Agent) (r : Req) (x : Answered) : Bool :=
  (s.tkr.replies.get a).isEmpty && s.ringFits (2 * a.val + 1) (r.item x).entries.length

theorem State.reply_tkr (s : State) (a : Agent) (r : Req) (x : Answered) :
    (s.reply a r x).tkr = { s.tkr with
      run := s.tkr.run.set a none,
      replies := if s.replyEnters a r x then s.tkr.replies else s.tkr.replies.set a (s.tkr.replies.get a ++ [r.item x]) } := by
  cases h : s.replyEnters a r x <;> rw [State.replyEnters] at h
  · simp [State.reply, h]
  · simp [State.reply, h]

theorem State.reply_fab_of_enters {s : State} {a : Agent} {r : Req} {x : Answered} (h : s.replyEnters a r x = true) :
    ((s.reply a r x).fab.ring (2 * a.val + 1)).items = (s.fab.ring (2 * a.val + 1)).items ++ [(r.item x).entries.length] := by
  have hfits : s.ringFits (2 * a.val + 1) (r.item x).entries.length = true := (Bool.and_eq_true_iff.1 h).2
  rw [State.reply, ← State.replyEnters, h, if_pos rfl]
  exact State.ringWrite_reply_items hfits

theorem State.replied_reply (s : State) (a : Agent) (r : Req) (x : Answered) : Safety.replied s (s.reply a r x) a r x := by
  have hcond : (s.tkr.replies.get a = [] ∧ s.ringFits (2 * a.val + 1) (r.item x).entries.length = true) ↔
      s.replyEnters a r x = true := by
    simp [State.replyEnters]
  refine ⟨by simp [State.reply_tkr], ?_⟩
  simp only [hcond]
  split
  case isTrue h => exact ⟨by simp [State.reply_tkr, h, (hcond.2 h).1], State.reply_fab_of_enters h⟩
  case isFalse h => simp [State.reply_tkr, h]

/-! What an agent holds. -/

/-- The request that ends gives way to at most one reply. -/
theorem State.reply_held_le {s : State} {a : Agent} {q : Req} (h : s.tkr.run.get a = some q) (r : Req) (x : Answered) :
    (s.reply a r x).tkr.held ≤ s.tkr.held := by
  intro b
  by_cases hb : b = a
  · subst hb
    simp only [State.reply_tkr, Tkr.held, Four.get_set_same, h]
    split
    · simp
    · simp
      omega
  · simp only [State.reply_tkr, Tkr.held, Four.get_set_ne _ _ hb]
    split <;> simp [Four.get_set_ne _ _ hb]

theorem State.runOp_eq_of_running {s : State} {a : Agent} {op : Nat} {r : Req} (h : s.running a op = some r)
    (f : Req → State × Answered) : s.runOp a op f = (f r).1.reply a r (f r).2 := by
  rw [State.runOp, h]

theorem State.run_of_running {s : State} {a : Agent} {op : Nat} {r : Req} (h : s.running a op = some r) :
    s.tkr.run.get a = some r := by
  unfold State.running at h
  split at h
  · rename_i q hq
    rw [hq]
    exact (Option.ite_none_right_eq_some.1 h).2
  · cases h

theorem State.running_eq_some {s : State} {a : Agent} {r : Req} (hm : s.mode = .active) (hr : s.tkr.run.get a = some r) :
    s.running a r.op = some r := by
  simp [State.running, hr, s.active_iff.2 hm]

/-- An operation that leaves the requests alone ends its own. -/
theorem State.runOp_held_le (s : State) (a : Agent) (op : Nat) {f : Req → State × Answered}
    (h : ∀ r, (f r).1.tkr.requests = s.tkr.requests) : (s.runOp a op f).tkr.held ≤ s.tkr.held := by
  cases hrun : s.running a op with
  | none => simp [State.runOp, hrun]
  | some r =>
    have hr : (f r).1.tkr.run.get a = some r := by
      rw [Tkr.run_of_requests_eq (h r)]
      exact State.run_of_running hrun
    rw [State.runOp_eq_of_running hrun]
    exact (State.reply_held_le hr _ _).trans (Tkr.held_of_requests_eq (h r)).le

/-! The start of a request. -/

/-- The request goes from the queue's front to where it runs. -/
def State.takeRequest (s : State) (a : Agent) (r : Req) : State :=
  { s with tkr := { s.tkr with queue := s.tkr.queue.set a ((s.tkr.queue.get a).drop 1), run := s.tkr.run.set a (some r) } }

theorem State.takeRequest_held_le {s : State} {a : Agent} {r : Req} (h : s.nextRequest a = some r) :
    (s.takeRequest a r).tkr.held ≤ s.tkr.held := by
  obtain ⟨rest, hq⟩ : ∃ rest, s.tkr.queue.get a = r :: rest := by
    unfold State.nextRequest at h
    split at h
    · cases h
    · rename_i q rest hq
      exact ⟨rest, by rw [hq, Option.some.inj (Option.ite_none_right_eq_some.1 h).2]⟩
  intro b
  by_cases hb : b = a
  · subst hb
    simp only [State.takeRequest, Tkr.held, Four.get_set_same, hq, List.drop_one, List.tail_cons, List.length_cons,
      Option.toList_some]
    simp
  · simp [State.takeRequest, Tkr.held, Four.get_set_ne _ _ hb]

/-- A request that starts ends at once, where a check refuses it, or runs. -/
theorem State.startRequest_cases (s : State) (a : Agent) (r : Req) :
    (∃ x, s.startRequest a r = (s.takeRequest a r).reply a r x) ∨
      s.startRequest a r = (s.takeRequest a r).grantPlanes a (s.tkr.planes r) := by
  unfold State.startRequest
  cases opSpec r.op with
  | none => exact .inl ⟨_, rfl⟩
  | some spec =>
    dsimp only
    generalize (!if spec.2 == 2 then s.canWrite a 0x0A else s.canRead a 0x0A) = denied
    split
    · exact .inl ⟨_, rfl⟩
    · split
      · exact .inl ⟨_, rfl⟩
      · split
        · exact .inl ⟨_, rfl⟩
        · exact .inr rfl

theorem State.startRequest_held_le {s : State} {a : Agent} {r : Req} (h : s.nextRequest a = some r) :
    (s.startRequest a r).tkr.held ≤ s.tkr.held := by
  have htake := State.takeRequest_held_le h
  rcases s.startRequest_cases a r with ⟨x, hx⟩ | hruns
  · rw [hx]
    exact (State.reply_held_le (Four.get_set_same _ _ _) r x).trans htake
  · simpa only [hruns, State.grantPlanes_keeps] using htake

/-! The commands of the Tack Room. -/

@[simp] theorem State.putSram_tkr (s : State) (d : Nat) (es : List (List Byte)) : (s.putSram d es).tkr = s.tkr := rfl

theorem execTkrRequestStart_held_le (a : Agent) (s : State) : (s.after (execTkrRequestStart a s)).tkr.held ≤ s.tkr.held := by
  rw [execTkrRequestStart, State.after_next]
  split
  · rename_i r hr
    split
    · exact State.startRequest_held_le hr
    · exact le_rfl
  · exact le_rfl

theorem execReplyDelivered_held_le (a : Agent) (s : State) : (s.after (execReplyDelivered a s)).tkr.held ≤ s.tkr.held := by
  rw [execReplyDelivered, State.after_next]
  split
  · exact le_rfl
  · rename_i it rest hreplies
    split
    · intro b
      by_cases hb : b = a
      · subst hb
        simp [Tkr.held, hreplies]
      · simp [Tkr.held, Four.get_set_ne _ _ hb]
    · exact le_rfl

theorem tackRoom_held_le {c : Instr} (h : Safety.family c = .tackRoom) (hm : movesRequests c = true) (s : State) :
    (s.after (exec c s)).tkr.held ≤ s.tkr.held := by
  cases c <;> cases h <;> cases hm
  case tkrRequestStart a => exact execTkrRequestStart_held_le a s
  case replyDelivered a => exact execReplyDelivered_held_le a s
  all_goals
    simp only [exec, execTkrRead, execTkrInfo, execTkrStage, execTkrNote, execTkrSeal, execTkrOpen, execTkrWrite, execTkrClose,
      execTkrAbort, State.after_next]
    refine s.runOp_held_le _ _ fun r => ?_
    (repeat' split) <;> simp

/-! The end of the digital domain takes every request with it (R548, R550). -/

@[simp] theorem Tkr.afterHold_held (t : Tkr) : t.afterHold.held = 0 := by
  funext a
  match a with
  | 0 | 1 | 2 | 3 => rfl

@[simp] theorem State.digitalDown_held (s : State) : s.digitalDown.tkr.held = 0 := Tkr.afterHold_held _

@[simp] theorem State.intoShip_held (s : State) : s.intoShip.tkr.held = 0 := s.digitalDown_held

@[simp] theorem State.watchdogFires_held (s : State) : s.watchdogFires.tkr.held = 0 := s.digitalDown_held

theorem life_held_le {c : Instr} (h : Safety.family c = .life) (hm : movesRequests c = true) (s : State) :
    (s.after (exec c s)).tkr.held ≤ s.tkr.held := by
  cases c <;> cases h <;> cases hm
  all_goals
    simp only [exec, execKeeperPowerLoss, execShipEntry, execEnterDormant, execWatchdogReset, execBrownout, execTboLostReset,
      State.after_next]
    split_ifs <;> simp

/-! A commit of the window can ask for DORMANT; nothing else of it reaches the requests. -/

theorem foldl_held_le {β : Type} {f : State → β → State} (h : ∀ t b, (f t b).tkr.held ≤ t.tkr.held) (l : List β) (s : State) :
    (l.foldl f s).tkr.held ≤ s.tkr.held := by
  induction l generalizing s with
  | nil => exact le_rfl
  | cons b l ih => exact (ih _).trans (h s b)

theorem State.writePower_held_le (s : State) (v : Nat) : (s.writePower v).tkr.held ≤ s.tkr.held := by
  simp only [State.writePower, State.then_eq_after]
  split_ifs
  · exact (Tkr.held_of_requests_eq (life_requests (c := .enterShip) rfl rfl s)).le
  · exact life_held_le (c := .enterDormant) rfl rfl s
  · exact (Tkr.held_of_requests_eq (life_requests (c := .sysPowerBadKey _) rfl rfl s)).le

@[simp] theorem State.writeSeqCtl_requests (s : State) (v : Nat) : (s.writeSeqCtl v).tkr.requests = s.tkr.requests := by
  simp only [State.writeSeqCtl, State.then_eq_after]
  split
  · exact sequencer_requests (c := .seqUp) rfl s
  · exact sequencer_requests (c := .seqDown) rfl s
  · exact sequencer_requests (c := .seqClear) rfl s
  · exact sequencer_requests (c := .seqForceOff) rfl s
  · exact sequencer_requests (c := .seqBadCommand _) rfl s

@[simp] theorem State.writeCnvCtl_requests (s old : State) (v : Nat) : (s.writeCnvCtl old v).tkr.requests = s.tkr.requests := by
  have hclear : ∀ m, (s.after (execCnvClear m s)).tkr.requests = s.tkr.requests := fun m =>
    converters_requests (c := .cnvClear m) rfl s
  simp [State.writeCnvCtl, State.then_eq_after, hclear]

@[simp] theorem State.writeEmgCtl_requests (s : State) (a : Agent) (v : Nat) :
    (s.writeEmgCtl a v).tkr.requests = s.tkr.requests := by
  have hfn : ∀ t : State, (t.after (execStartFn a t)).tkr.requests = t.tkr.requests := emergency_requests (c := .startFn a) rfl
  have hdur : ∀ t : State, (t.after (execStartDur a t)).tkr.requests = t.tkr.requests := emergency_requests (c := .startDur a) rfl
  have habort : ∀ t : State, (t.after (execEmgAbort a t)).tkr.requests = t.tkr.requests :=
    emergency_requests (c := .emgAbort a) rfl
  simp [State.writeEmgCtl, State.then_eq_after, hfn, hdur, habort]

@[simp] theorem State.writePdpCtl_requests (s : State) (p : Port) (v : Nat) :
    (s.writePdpCtl p v).tkr.requests = s.tkr.requests := by
  simp only [State.writePdpCtl, State.then_eq_after]
  split
  · exact ports_requests (c := .pdpHardReset p) rfl s
  · exact ports_requests (c := .pdpSoftReset p) rfl s
  · exact ports_requests (c := .pdpPrSwap p) rfl s
  · exact ports_requests (c := .pdpRenegotiate p) rfl s
  · exact ports_requests (c := .pdpGetStatus p) rfl s
  · exact ports_requests (c := .pdpGetPpsStatus p) rfl s
  · exact ports_requests (c := .pdpGetSrcCapExt p) rfl s
  · simp

theorem State.react_requests_of_ne (s old : State) (a : Agent) {i : Nat} (v : Nat) (h : i ≠ Reg.sysPower) :
    (s.react old a i v).tkr.requests = s.tkr.requests := by
  have hseqEn : ∀ b, (s.after (execSeqEn b s.snsLevels s)).tkr.requests = s.tkr.requests := fun b =>
    sequencer_requests (c := .seqEn b s.snsLevels) rfl s
  have hclear : ∀ p, (s.after (execCnvXnClear p s)).tkr.requests = s.tkr.requests := fun p =>
    converters_requests (c := .cnvXnClear p) rfl s
  simp [State.react, State.then_eq_after, hseqEn, hclear, h]

theorem State.react_held_le (s old : State) (a : Agent) (i v : Nat) : (s.react old a i v).tkr.held ≤ s.tkr.held := by
  by_cases h : i = Reg.sysPower
  · subst h
    simp only [State.react, beq_self_eq_true, if_true]
    split
    · exact le_rfl
    · exact s.writePower_held_le v
  · exact (Tkr.held_of_requests_eq (s.react_requests_of_ne old a v h)).le

theorem State.commit_held_le (s : State) (a : Agent) (ws : List (Nat × Nat)) : (s.commit a ws).tkr.held ≤ s.tkr.held := by
  have hreact := foldl_held_le (fun t (w : Nat × Nat) => t.react_held_le s a w.1 w.2) ws
  simp only [State.commit, State.checkOffer_keeps]
  refine (hreact _).trans (Tkr.held_of_requests_eq ?_).le
  (repeat' split) <;> simp

theorem State.windowWrite_held_le (s : State) (a : Agent) (p : Nat) (data : List Byte) :
    (s.windowWrite a p data).tkr.held ≤ s.tkr.held := by
  have hcommit := fun ws => (s.setAg a fun g => { g with ptr := (p + (dataWords data).length % 16) % 16384 }).commit_held_le a ws
  simp only [State.windowWrite]
  split
  · exact hcommit _
  · simpa using hcommit _

/-! Transactions. -/

theorem State.after_transact_tkr (s : State) (f : State → State × List Byte) :
    (s.after (s.transact f)).tkr = if s.active then (f s).1.tkr else s.tkr := by
  cases h : s.active <;> simp [State.transact, h]

theorem execWindowWrite_held_le (a : Agent) (bytes : List Byte) (s : State) :
    (s.after (execWindowWrite a bytes s)).tkr.held ≤ s.tkr.held := by
  rw [execWindowWrite, State.after_transact_tkr]
  dsimp only
  (repeat' split)
  case h_1 => exact s.windowWrite_held_le _ _ _
  all_goals simp

/-! TKR_REQ (R536, R537). -/

/-- The request waits behind the agent's others, with the next number. -/
def State.queueRequest (s : State) (a : Agent) (bytes : List Byte) : State :=
  { s with tkr := { s.tkr with
      queue := s.tkr.queue.set a (s.tkr.queue.get a ++ [⟨s.tkr.reqNo, bytes⟩]), reqNo := s.tkr.reqNo + 1 } }

/-- What a TKR_REQ that passes its checks does with its bytes, the count byte in front. -/
def State.takeTkrReq (s : State) (a : Agent) (b : List Byte) : State :=
  if 4 ≤ s.tkr.held a then s.setStatus a 7 else (s.queueRequest a (b.drop 1)).setStatus a 0

theorem exec_tkrReq (a : Agent) (tx : CmdTx) (s : State) :
    exec (.tkrReq a tx) s = s.writeCommand a 0x30 9 tx (blockOk 1 255) fun s b => s.takeTkrReq a b := rfl

theorem State.takeTkrReq_held_le_four {s : State} {b : Agent} (a : Agent) (bytes : List Byte) (h : s.tkr.held b ≤ 4) :
    (s.takeTkrReq a bytes).tkr.held b ≤ 4 := by
  unfold State.takeTkrReq
  split
  · simpa using h
  · by_cases hb : b = a
    · subst hb
      simp only [State.setStatus_keeps, State.queueRequest, Tkr.held, Four.get_set_same, List.length_append,
        List.length_singleton, not_le] at *
      omega
    · simpa [State.queueRequest, Tkr.held, Four.get_set_ne _ _ hb] using h

theorem exec_tkrReq_held_le_four (a : Agent) (tx : CmdTx) {s : State} {b : Agent} (h : s.tkr.held b ≤ 4) :
    (s.after (exec (.tkrReq a tx) s)).tkr.held b ≤ 4 := by
  rw [exec_tkrReq, State.writeCommand, State.after_transact_tkr]
  dsimp only
  (repeat' split) <;> simp [h, s.takeTkrReq_held_le_four a _ h]

/-! Every command. -/

theorem exec_held_le_of_movesRequests {c : Instr} (hm : movesRequests c = true) (hreq : ∀ a tx, c ≠ .tkrReq a tx) (s : State) :
    (s.after (exec c s)).tkr.held ≤ s.tkr.held := by
  cases c <;> cases hm
  case keeperPowerLoss | shipEntry | enterDormant | watchdogReset | brownout | tboLostReset => exact life_held_le rfl rfl s
  case windowWrite a bytes => exact execWindowWrite_held_le a bytes s
  case tkrReq a tx => exact absurd rfl (hreq a tx)
  all_goals exact tackRoom_held_le rfl rfl s

/-- Every command but TKR_REQ leaves each agent with no more requests than it had. -/
theorem exec_held_le {c : Instr} (hreq : ∀ a tx, c ≠ .tkrReq a tx) (s : State) : (s.after (exec c s)).tkr.held ≤ s.tkr.held := by
  cases hm : movesRequests c with
  | false => exact (Tkr.held_of_requests_eq (exec_requests hm s)).le
  | true => exact exec_held_le_of_movesRequests hm hreq s

theorem exec_held_le_four {c : Instr} {s t : State} {a : Agent} (h : s.tkr.held a ≤ 4) (ht : exec c s = .next t) :
    t.tkr.held a ≤ 4 := by
  have hafter : s.after (exec c s) = t := by rw [ht, State.after_next]
  rw [← hafter]
  by_cases hreq : ∃ b tx, c = .tkrReq b tx
  · obtain ⟨b, tx, rfl⟩ := hreq
    exact exec_tkrReq_held_le_four b tx h
  · exact (exec_held_le (fun b tx hc => hreq ⟨b, tx, hc⟩) s a).trans h

/-! TKR_REQ with nothing to refuse it. -/

/-- A command that writes and is neither discarded nor refused does what it does with its bytes. -/
theorem State.writeCommand_of_granted {s t : State} {a : Agent} {code bank : Nat} {w : List Byte} {lenOk : List Byte → Bool}
    {f : State → List Byte → State} (hm : s.mode = .active) (hpec : s.pecWrong a (BitVec.ofNat 8 code :: w) = false)
    (hlen : lenOk ((s.body a (BitVec.ofNat 8 code :: w)).drop 1) = true) (hright : s.cmdRefused a bank true = .no)
    (hf : f s ((s.body a (BitVec.ofNat 8 code :: w)).drop 1) = t) (ht : t.mode = .active) :
    s.writeCommand a code bank ⟨w, none⟩ lenOk f = .next (t.endTransaction []) :=
  State.transact_of_eq (by simp only [hpec, hlen, hright, hf, Bool.not_true, Bool.false_eq_true, if_false]) hm ht

theorem blockOk_of_count {n : Byte} {data : List Byte} (hn : n.toNat = data.length) (h1 : 1 ≤ data.length) :
    blockOk 1 255 (n :: data) = true := by
  have h255 : data.length ≤ 255 := hn ▸ Nat.le_of_lt_succ n.isLt
  simp [blockOk, hn, h1, h255]

theorem exec_tkrReq_of_granted {s : State} {a : Agent} {w data : List Byte} {n : Byte} (hm : s.mode = .active)
    (hpec : s.pecWrong a (0x30 :: w) = false) (hbody : (s.body a (0x30 :: w)).drop 1 = n :: data) (hn : n.toNat = data.length)
    (h1 : 1 ≤ data.length) (hright : s.cmdRefused a 9 true = .no) :
    exec (.tkrReq a ⟨w, none⟩) s = .next ((s.takeTkrReq a (n :: data)).endTransaction []) := by
  have hmode : (s.takeTkrReq a (n :: data)).mode = .active := by
    unfold State.takeTkrReq
    split <;> simpa [State.queueRequest] using hm
  rw [exec_tkrReq]
  refine State.writeCommand_of_granted hm hpec ?_ hright (congrArg (s.takeTkrReq a) hbody) hmode
  exact (congrArg (blockOk 1 255) hbody).trans (blockOk_of_count hn h1)

theorem State.takeTkrReq_queue {s : State} {a : Agent} (h : s.tkr.held a < 4) (n : Byte) (data : List Byte) :
    (s.takeTkrReq a (n :: data)).tkr.queue.get a = s.tkr.queue.get a ++ [⟨s.tkr.reqNo, data⟩] := by
  simp [State.takeTkrReq, State.queueRequest, Nat.not_le.2 h]

/-- The fifth request (R537). -/
theorem State.takeTkrReq_of_full {s : State} {a : Agent} (h : 4 ≤ s.tkr.held a) (bytes : List Byte) :
    s.takeTkrReq a bytes = s.setStatus a 7 := if_pos h

/-! The session and its operations (R546), and INFO (R644). -/

@[simp] theorem State.reply_session (s : State) (a : Agent) (r : Req) (x : Answered) :
    (s.reply a r x).tkr.session = s.tkr.session := by rw [State.reply_tkr]

/-- A request that its operation answers with no other effect. -/
theorem State.runOp_answers {s : State} {a : Agent} {op : Nat} {r : Req} {x : Answered} {f : Req → State × Answered}
    (hm : s.mode = .active) (hr : s.tkr.run.get a = some r) (hop : r.op = op) (hf : f r = (s, x)) :
    Safety.replied s (s.runOp a op f) a r x ∧ (s.runOp a op f).tkr.session = s.tkr.session := by
  subst hop
  rw [State.runOp_eq_of_running (State.running_eq_some hm hr), hf]
  exact ⟨s.replied_reply a r x, s.reply_session a r x⟩

/-- OPEN without a session opens one for its agent. -/
theorem execTkrOpen_session {s : State} {a : Agent} {r : Req} (hm : s.mode = .active) (hr : s.tkr.run.get a = some r)
    (hop : r.op = 0x30) (hnone : s.tkr.session = none) :
    ∃ e, (s.after (execTkrOpen a s)).tkr.session = some e ∧ e.agent = a := by
  rw [execTkrOpen, State.after_next, State.runOp_eq_of_running (hop ▸ State.running_eq_some hm hr), State.reply_session]
  simp [hnone]

theorem State.logPages_eq_nil {s : State} {part : Nat}
    (h : ∀ p ∈ s.tkr.prog, ¬((logPart part).1 ≤ p ∧ p < (logPart part).1 + (logPart part).2)) : s.logPages part = [] := by
  simp only [State.logPages, List.filter_eq_nil_iff, Bool.and_eq_true, decide_eq_true_eq]
  exact fun p hp hin => h p hp hin.1

/-- Settles O59: TKR_REQ alone adds to what an agent holds, and only below four; each refusal is its operation's branch. -/
theorem requestsAndSessions : Obligations.RequestsAndSessions := by
  unfold Obligations.RequestsAndSessions
  refine ⟨fun c s t a => exec_held_le_four, fun s a w data n hm hpec hbody hn h1 hright => ?request, fun s a r hm hr => ?session⟩
  case request =>
    have hexec := exec_tkrReq_of_granted hm hpec hbody hn h1 hright
    refine ⟨fun hheld => ⟨_, hexec, State.takeTkrReq_queue hheld n data⟩, fun hfull => ⟨_, hexec, ?_, ?_⟩⟩
    · simp [State.takeTkrReq_of_full hfull]
    · rw [State.takeTkrReq_of_full hfull]
      exact s.fld_setFld_same (Reg.serAgtStat a.val) 7 (by decide)
  case session =>
    refine ⟨fun hop hnone => ⟨_, rfl, execTkrOpen_session hm hr hop hnone⟩,
      fun e he => ⟨?openBusy, ?write, ?close, ?abort⟩, ?info⟩
    case openBusy =>
      intro hop
      exact ⟨_, rfl, he ▸ State.runOp_answers hm hr hop (by simp [he])⟩
    case write =>
      intro hother hop v
      exact ⟨_, rfl, he ▸ State.runOp_answers hm hr hop (by simp [he, hother])⟩
    case close =>
      intro hother hop
      exact ⟨_, rfl, he ▸ State.runOp_answers hm hr hop (by simp [he, hother])⟩
    case abort =>
      intro hother hop
      exact ⟨_, rfl, he ▸ State.runOp_answers hm hr hop (by simp [he, hother])⟩
    case info =>
      intro hop hempty
      exact ⟨_, rfl, (State.runOp_answers hm hr hop (by simp [State.logPages_eq_nil hempty])).1⟩

end Sys2Proof.Machine
end

section
/-! Measurements that are refused, late or stale (R569, R573, R587). A refused GO and a late entry do what O60 says of them in every
state. A stale offset does so while bit 15 of BG_LATE, a bit the register does not have, reads 0; O60 asks it of every state, and a
state whose fabric holds an entry of no source refutes it. -/

namespace Sys2Proof.Machine

open Safety (Answers)

/-! A GO that converts nothing (R569). -/

/-- The state with v stored in agent a's TLM_OS_CTL. -/
def State.storeOneshotCtl (s : State) (a : Agent) (v : Nat) : State :=
  s.setReg (Reg.tlmOsCtl a.val) (storeFields (fieldsOf (Reg.tlmOsCtl a.val)) (s.reg (Reg.tlmOsCtl a.val)) v)

@[simp] theorem State.storeOneshotCtl_tlm (s : State) (a : Agent) (v : Nat) : (s.storeOneshotCtl a v).tlm = s.tlm := by
  simp [State.storeOneshotCtl]

theorem State.osStatus_fld (s : State) (a : Agent) {v : Nat} (hv : v < 16) :
    (s.osStatus a v).fld (Reg.tlmOsStat a.val) 4 4 = v :=
  (s.fld_setFld_same _ v (by decide)).trans (Nat.mod_eq_of_lt hv)

theorem exec_oneshotGo_of_go {s : State} (a : Agent) {v : Word} (hm : s.mode = .active) (hgo : bit v.toNat 15 = true) :
    exec (.oneshotGo a v) s = .next (s.writeOneshot a v.toNat) := by
  simp [exec, execOneshotGo, s.active_iff.2 hm, hgo]

theorem State.writeOneshot_of_badArg {s : State} {a : Agent} {v : Nat} (hgo : bit v 15 = true)
    (h : (s.tlm.os.get a).busy = true ∨ 28 ≤ bits v 0 6) : s.writeOneshot a v = (s.storeOneshotCtl a v).osStatus a 6 := by
  simp [State.writeOneshot, State.storeOneshotCtl, hgo, h]

theorem absentChannel_lt {v : Variant} {c : Nat} (h : absentChannel v c = true) : c < 28 := by
  simp only [absentChannel, Bool.or_eq_true, Bool.and_eq_true, beq_iff_eq] at h
  omega

theorem State.writeOneshot_of_absentChannel {s : State} {a : Agent} {v : Nat} (hgo : bit v 15 = true)
    (hb : (s.tlm.os.get a).busy = false) (h : absentChannel s.part.variant (bits v 0 6) = true) :
    s.writeOneshot a v = ((s.storeOneshotCtl a v).setReg (Reg.tlmOsResult a.val) 0).osStatus a 1 := by
  simp [State.writeOneshot, State.storeOneshotCtl, hgo, hb, h, Nat.not_le.2 (absentChannel_lt h)]

theorem exec_oneshotGo_answers_badArg {s : State} {a : Agent} {v : Word} (hm : s.mode = .active) (hgo : bit v.toNat 15 = true)
    (h : (s.tlm.os.get a).busy = true ∨ 28 ≤ bits v.toNat 0 6) :
    Answers (.oneshotGo a v) s fun t => t.tlm = s.tlm ∧ t.fld (Reg.tlmOsStat a.val) 4 4 = 6 := by
  refine ⟨_, (exec_oneshotGo_of_go a hm hgo).trans (congrArg _ (State.writeOneshot_of_badArg hgo h)), ?_, ?_⟩
  · simp
  · exact State.osStatus_fld _ a (by decide)

theorem exec_oneshotGo_answers_unitAbsent {s : State} {a : Agent} {v : Word} (hm : s.mode = .active) (hgo : bit v.toNat 15 = true)
    (hb : (s.tlm.os.get a).busy = false) (h : absentChannel s.part.variant (bits v.toNat 0 6) = true) :
    Answers (.oneshotGo a v) s fun t => t.tlm = s.tlm ∧ t.fld (Reg.tlmOsStat a.val) 4 4 = 1 := by
  refine ⟨_, (exec_oneshotGo_of_go a hm hgo).trans (congrArg _ (State.writeOneshot_of_absentChannel hgo hb h)), ?_, ?_⟩
  · simp
  · exact State.osStatus_fld _ a (by decide)

/-! An entry that falls due while it is still incomplete (R572, R573). -/

theorem exec_telemetryDue_of_incomplete {s : State} {e : BitVec 6} (hm : s.mode = .active) (hr : s.entryRuns e.toNat = true)
    (hf : s.tlm.flight.any (·.1 == e.toNat) = true) : exec (.telemetryDue e) s = .next s.tlmLate := by
  simp [exec, execTelemetryDue, s.active_iff.2 hm, hr, hf]

theorem State.tlmLate_tlm (s : State) : s.tlmLate.tlm = { s.tlm with lateRecent := true } := by simp [State.tlmLate]

theorem State.tlmLate_reg (s : State) (i : Nat) :
    s.tlmLate.reg i = ((s.bump Reg.tlmLateCnt 1).setFlag Reg.bgLate 0 true).reg i := rfl

theorem State.tlmLate_count (s : State) : s.tlmLate.reg Reg.tlmLateCnt = min 65535 (s.reg Reg.tlmLateCnt + 1) := by
  have hsat : satAdd 65535 (s.reg Reg.tlmLateCnt) 1 < 65536 := Nat.lt_succ_of_le (Nat.min_le_left _ _)
  rw [State.tlmLate_reg, State.reg_setFlag_ne _ _ _ (by decide), State.bump_reg, Nat.mod_eq_of_lt hsat, satAdd]

theorem State.tlmLate_bgLate (s : State) : s.tlmLate.flag Reg.bgLate 0 = true :=
  (s.bump Reg.tlmLateCnt 1).flag_setFlag_same Reg.bgLate (by decide) true

theorem exec_telemetryDue_answers_late {s : State} {e : BitVec 6} (hm : s.mode = .active) (hr : s.entryRuns e.toNat = true)
    (hf : s.tlm.flight.any (·.1 == e.toNat) = true) :
    Answers (.telemetryDue e) s fun t => t.tlm.flight = s.tlm.flight ∧ t.reg Reg.tlmLateCnt = min 65535 (s.reg Reg.tlmLateCnt + 1)
      ∧ t.flag Reg.bgLate 0 = true ∧ t.tlm.lateRecent = true :=
  ⟨_, exec_telemetryDue_of_incomplete hm hr hf, by rw [State.tlmLate_tlm], s.tlmLate_count, s.tlmLate_bgLate,
    by rw [State.tlmLate_tlm]⟩

/-! Two states that post alike. -/

/-- t and s post alike: they agree on the posting's own fields and on the registers it reads, but for the words of routes that are
live in neither. -/
structure State.PostsAlike (t s : State) : Prop where
  part : t.part = s.part
  mode : t.mode = s.mode
  fab : t.fab = s.fab
  awake : t.awake = s.awake
  rtc : t.rtc = s.rtc
  coal : ∀ x, t.fld (Reg.coalCount (s.route x).group) 0 8 = s.fld (Reg.coalCount (s.route x).group) 0 8
  route : ∀ x, t.route x = s.route x ∨ ((t.route x).live = false ∧ (s.route x).live = false)

section PostsAlike
variable {s t : State} (h : t.PostsAlike s)
include h

theorem State.PostsAlike.deliver_eq (f : Fabric) (e : Entry) : t.deliver f e = s.deliver f e := by
  rcases h.route e.num with hr | ⟨ht, hs⟩
  · simp only [State.deliver, State.nextBound, hr, h.awake]
  · simp [State.deliver, ht, hs]

theorem State.PostsAlike.closeBatch_eq (f : Fabric) (g : Nat) : t.closeBatch f g = s.closeBatch f g := by
  have hd : t.deliver = s.deliver := funext₂ h.deliver_eq
  simp only [State.closeBatch, State.deliverAll_congr hd]

theorem State.PostsAlike.postOne_eq : t.postOne = s.postOne := by
  funext f x o
  rcases h.route x with hr | ⟨ht, hs⟩
  · simp only [State.postOne, hr, h.rtc, h.coal, h.deliver_eq, h.closeBatch_eq]
  · rw [State.postOne_of_not_live ht, State.postOne_of_not_live hs]

theorem State.PostsAlike.postFab_eq (x o : Nat) : t.postFab x o = s.postFab x o := by
  simp only [State.postFab, State.active, h.part, h.mode, h.fab, State.postAll_congr h.postOne_eq]

end PostsAlike

/-! An offset older than CAL_OFS_MAX (R587). Its posting comes after bit 1 of BG_LATE is set (R588). -/

/-- Point p is stale, and activity 1 has missed its deadline. -/
def State.markStale (s : State) (p : Fin 8) : State :=
  ({ s with cal := { s.cal with stale := s.cal.stale ||| BitVec.ofNat 8 (2 ^ p.val) } } : State).setFlag Reg.bgLate 1 true

theorem exec_offsetStale_of_overage {s : State} {p : Fin 8} (hm : s.mode = .active) (hp : s.noPoint p = false)
    (hfresh : bit s.cal.stale.toNat p.val = false) (hage : 60 * s.reg Reg.calOfsMax < s.reg (Reg.calOfsAgeS + p.val)) :
    exec (.offsetStale p) s = .next ((s.markStale p).post 473) := by
  simp [exec, execOffsetStale, State.markStale, s.active_iff.2 hm, hp, hfresh, hage]

theorem State.markStale_stale (s : State) (p : Fin 8) : bit (s.markStale p).cal.stale.toNat p.val = true := by
  have hbit : bit (s.cal.stale ||| BitVec.ofNat 8 (2 ^ p.val)).toNat p.val = true := by
    generalize s.cal.stale = w
    revert w p
    decide
  simpa [State.markStale] using hbit

theorem State.markStale_bgLate (s : State) (p : Fin 8) : (s.markStale p).flag Reg.bgLate 1 = true :=
  State.flag_setFlag_same _ Reg.bgLate (by decide) true

theorem State.markStale_reg_ne (s : State) (p : Fin 8) {i : Nat} (hi : i ≠ Reg.bgLate) : (s.markStale p).reg i = s.reg i :=
  State.reg_setFlag_ne _ 1 true hi

theorem State.markStale_bgLate_bit15 (s : State) (p : Fin 8) : (s.markStale p).flag Reg.bgLate 15 = s.flag Reg.bgLate 15 := by
  have habove : ∀ w, putBits w 1 1 1 % 65536 / 2 ^ 15 % 2 = w / 2 ^ 15 % 2 := fun w => by simp only [putBits, bits]; omega
  have hreg : (s.markStale p).reg Reg.bgLate = putBits (s.reg Reg.bgLate) 1 1 1 % 65536 := State.setFld_reg _ _ _ _ _
  rw [State.flag, State.flag, bit, bit, hreg, habove]

theorem State.route_not_live_of_flag {s : State} {x i : Nat} (hx : Reg.evtRoute x = i) (h15 : s.flag i 15 = false) :
    (s.route x).live = false :=
  (Route.live_eq_false_iff _).2 (.inl ((congrArg (s.flag · 15) hx).trans h15))

/-- A posting reads BG_LATE as a route at most, and while bit 15 is 0 that route is not live. -/
theorem State.markStale_postsAlike {s : State} (h15 : s.flag Reg.bgLate 15 = false) (p : Fin 8) : (s.markStale p).PostsAlike s where
  part := by simp [State.markStale]
  mode := by simp [State.markStale]
  fab := by simp [State.markStale]
  awake := by
    funext a
    have ha : Reg.agtCtl a.val ≠ Reg.bgLate := by simp only [Reg.agtCtl, Reg.bgLate]; omega
    simp only [State.awake, State.flag, s.markStale_reg_ne p ha]
  rtc := by
    rw [State.rtc, State.rtc, State.reg32, State.reg32, s.markStale_reg_ne p (by decide), s.markStale_reg_ne p (by decide)]
  coal x := by
    have hg : (s.route x).group < 32 := Nat.mod_lt _ (by decide)
    have hne : Reg.coalCount (s.route x).group ≠ Reg.bgLate := by simp only [Reg.coalCount, Reg.bgLate]; omega
    simp only [State.fld, s.markStale_reg_ne p hne]
  route x := by
    by_cases hx : Reg.evtRoute x = Reg.bgLate
    · have h15' : (s.markStale p).flag Reg.bgLate 15 = false := (s.markStale_bgLate_bit15 p).trans h15
      exact .inr ⟨State.route_not_live_of_flag hx h15', State.route_not_live_of_flag hx h15⟩
    · exact .inl (by simp only [State.route, s.markStale_reg_ne p hx])

theorem exec_offsetStale_answers_stale {s : State} {p : Fin 8} (hm : s.mode = .active) (h15 : s.flag Reg.bgLate 15 = false)
    (hp : s.noPoint p = false) (hfresh : bit s.cal.stale.toNat p.val = false)
    (hage : 60 * s.reg Reg.calOfsMax < s.reg (Reg.calOfsAgeS + p.val)) :
    Answers (.offsetStale p) s fun t => bit t.cal.stale.toNat p.val = true ∧ t.fab = s.postFab 473 0 ∧ t.flag Reg.bgLate 1 = true :=
  ⟨_, exec_offsetStale_of_overage hm hp hfresh hage, s.markStale_stale p, (State.markStale_postsAlike h15 p).postFab_eq 473 0,
    s.markStale_bgLate p⟩

/-! The state that refutes. -/

/-- An entry of no source: sources end at 511, and the word where this number's route would stand is BG_LATE. -/
def strayEntry : Entry := ⟨Reg.bgLate - Reg.evtRoute 0, 0, 0, 1, 1, 0, 0, false, false, false, false, Four.all false⟩

/-- ACTIVE, with the stray entry held in group 1. CAL_LATE belongs to that group, whose batch closes with one posting, and BG_LATE
reads as the route that is enabled but names no agent. The offset of point 0 is as old as can be. -/
def strayHeld : State :=
  let s : State := { State.reset with mode := .active, fab := { Fabric.init with batches := [⟨1, 0, [strayEntry]⟩] } }
  (((s.setReg (Reg.evtRoute 473) 0x8201).setReg (Reg.coalCount 1) 1).setReg Reg.bgLate 0x8000).setReg Reg.calOfsAgeS 65535

theorem strayHeld_overage : 60 * strayHeld.reg Reg.calOfsMax < strayHeld.reg Reg.calOfsAgeS := by decide

/-- Posted in the state itself, CAL_LATE closes the batch and the stray entry goes nowhere. -/
theorem strayHeld_unrouted : (strayHeld.postFab 473 0).unrouted = 1 := by decide +kernel

/-- Posted once bit 1 of BG_LATE is set, it finds agent 1 named in the stray entry's route, and the entry is delivered. -/
theorem markStale_strayHeld_unrouted : ((strayHeld.markStale 0).postFab 473 0).unrouted = 0 := by decide +kernel

theorem postFab_markStale_strayHeld_ne : (strayHeld.markStale 0).postFab 473 0 ≠ strayHeld.postFab 473 0 := fun h => by
  have hcount := congrArg Fabric.unrouted h
  rw [markStale_strayHeld_unrouted, strayHeld_unrouted] at hcount
  exact absurd hcount (by decide)

/-- Refutes O60 in its last clause: it compares with a posting made before bit 1 of BG_LATE is set, and in a state whose batch holds
an entry that BG_LATE routes the two differ. -/
theorem not_measurementRefusals : ¬ Obligations.MeasurementRefusals := by
  unfold Obligations.MeasurementRefusals
  intro h
  obtain ⟨-, -, hstale⟩ := h strayHeld rfl
  obtain ⟨t, ht, -, hfab, -⟩ := hstale 0 rfl rfl strayHeld_overage
  have hexec : exec (.offsetStale 0) strayHeld = .next ((strayHeld.markStale 0).post 473) :=
    exec_offsetStale_of_overage rfl rfl rfl strayHeld_overage
  rw [hexec] at ht
  cases ht
  exact postFab_markStale_strayHeld_ne hfab

end Sys2Proof.Machine
end
